-- ==== Sys2Proof/Word.lean ====
section
/-! DEFINITION. The byte, the per-phase triple, and the manual's enumerations and operand shapes, which Syntax.lean's
commands carry. Names follow 00_scope.md section 4.5 and the chapters. -/

namespace Sys2Proof

/-- A byte of the serial link (R191). -/
abbrev Byte := BitVec 8

/-- One value for each of the three phases. -/
structure Tri (α : Type) where
  p1 : α
  p2 : α
  p3 : α
deriving DecidableEq, Repr

def Tri.all3 {α : Type} (a : α) : Tri α := ⟨a, a, a⟩
def Tri.map {α β : Type} (f : α → β) (t : Tri α) : Tri β := ⟨f t.p1, f t.p2, f t.p3⟩
def Tri.zip {α β γ : Type} (f : α → β → γ) (t : Tri α) (u : Tri β) : Tri γ := ⟨f t.p1 u.p1, f t.p2 u.p2, f t.p3 u.p3⟩
def Tri.any (t : Tri Bool) : Bool := t.p1 || t.p2 || t.p3
def Tri.every (t : Tri Bool) : Bool := t.p1 && t.p2 && t.p3
def Tri.sum (t : Tri Nat) : Nat := t.p1 + t.p2 + t.p3
def Tri.toList {α : Type} (t : Tri α) : List α := [t.p1, t.p2, t.p3]

/-- One sample set (R1): a signed 16-bit code for each of the seven channels V1, V2, V3, I1, I2, I3 and IN. -/
structure SampleSet where
  v : Tri (BitVec 16)
  i : Tri (BitVec 16)
  n : BitVec 16
deriving DecidableEq, Repr

/-- A byte as the receiver takes it (R192): its value, and whether its stop bit was seen. -/
structure RxByte where
  value : Byte
  stopBit : Bool
deriving DecidableEq, Repr

/-- The two watched covers (R140): COVER is the main cover, TERM the terminal cover. -/
inductive Cover where
  | main
  | terminal
deriving DecidableEq, Repr

/-- The twelve durable records, in the order of the table of R184. -/
inductive Record where
  | config | identity | life | account | code | days | tariff | evidence | snapshot | switch | supply | residue
deriving DecidableEq, Repr

/-- The seven configuration sections, in the order of the table of R186. -/
inductive ConfigSection where
  | cal | measure | account | switch | thermal | tamper | link
deriving DecidableEq, Repr

/-- What a start finds outside the part's own state: the records the durable store cannot read or finds failing their
checksum at this start beyond those a cut write left so (R184), and the first debounced readings of COVER, TERM and MAG
(R140, R141). -/
structure StartReadings where
  failed : List Record
  coverOpen : Bool
  termOpen : Bool
  magAsserted : Bool
deriving DecidableEq, Repr

/-- The power states (R166). -/
inductive PowerState where
  | mains | holdup | battery
deriving DecidableEq, Repr

/-- The kinds of start (R172), in the order R200 numbers them. -/
inductive StartKind where
  | cold | warm | restart | resetLine
deriving DecidableEq, Repr

/-- The life states (R178). -/
inductive LifeState where
  | commissioning | inService | serviceWindow | halted
deriving DecidableEq, Repr

/-- The switch states (R105). -/
inductive SwitchState where
  | closed | opening | opened | armed | closing | jammed
deriving DecidableEq, Repr

/-- The hold reasons (R100). -/
inductive Hold where
  | credit | load | thermal | tamper | remote | fault
deriving DecidableEq, Repr

/-- The credit conditions (R63), in the order of 00_scope.md section 4.5. -/
inductive CreditCondition where
  | ok | low | emergency | friendly | exhausted
deriving DecidableEq, Repr

/-- The day types (R37). -/
inductive DayType where
  | workday | restday
deriving DecidableEq, Repr

/-- The thirteen evidence classes (R138), class 1 first. -/
inductive EvClass where
  | coverOpen | terminalOpen | magnet | reverse | residual | voltageCut | relayBypass | codeAttack | linkSilence
  | relayFault | overheat | clockStep | outage
deriving DecidableEq, Repr

/-- The states of an evidence record (R158), in the order of 00_scope.md section 4.5. -/
inductive EvState where
  | opened | cleared | active | ended
deriving DecidableEq, Repr

/-- The faults, in the order of the table of R189. -/
inductive FaultKind where
  | storeFault | storeRepaired | clockInvalid | backupLow | sensorFault | channelStuck | relayJammed
deriving DecidableEq, Repr

/-- The notices, 40h to 48h in order (R198). -/
inductive Notice where
  | life | power | credit | switch | evidence | fault | tariff | day | keypad
deriving DecidableEq, Repr

/-- The reply statuses (R196). -/
inductive Status where
  | ok | clamped | busy | unknownKind | badLength | badValue | state | authority | power | condition | incomplete
  | notAllowed | notArmed | clockLimit | full | format | locked | check | auth | kind | used | stale | overflow
deriving DecidableEq, Repr

end Sys2Proof
end

