-- ==== Sys2Proof/Syntax.lean ====
section
/-! DEFINITION. The commands: one constructor for each row of spec/opcode_table.json. The PM36 is a block that takes
commands from outside: bus events (frames, gaps, breaks), requests of the host, completions of durable writes, expiries
of timers, changes of its pins and of its supply. The table gives the rows no bits; the operands are what the rule of
each row says the step brings with it. -/

namespace Sys2Proof

inductive Instr where
  /-- BLOCK_COMPLETE (R2): the block's 256 sample sets, and the undebounced MAG level when the summary is made (R18). -/
  | blockComplete (samples : List SampleSet) (mag : Bool)
  /-- CHARGE_QUANTUM (R56) -/
  | chargeQuantum
  /-- PENDING_COUNTS_WRITE (R52) -/
  | pendingCountsWrite
  /-- ACCOUNT_WRITE_COMPLETE (R59) -/
  | accountWriteComplete
  /-- TAKE_DAY_BOUNDARY (R66) -/
  | takeDayBoundary
  /-- DAY_BOUNDARY_WRITE_COMPLETE (R43) -/
  | dayBoundaryWriteComplete
  /-- TAKE_DAY_ADOPTION (R67) -/
  | takeDayAdoption
  /-- TAKE_CODE_ENTRY (R68) -/
  | takeCodeEntry
  /-- EMERGENCY (R61), request 12h -/
  | emergency
  /-- TAKE_EMERGENCY_ENTRY (R61) -/
  | takeEmergencyEntry
  /-- TAKE_ENTRY_ENTRY (R72) -/
  | takeEntryEntry
  /-- ENTRY_WRITE_COMPLETE (R181) -/
  | entryWriteComplete
  /-- CLOCK_SECOND (R29) -/
  | clockSecond
  /-- TARIFF_ACTIVATION (R48) -/
  | tariffActivation
  /-- TARIFF_ACTIVATION_COMPLETE (R48) -/
  | tariffActivationComplete
  /-- LOCKOUT_END (R91) -/
  | lockoutEnd
  /-- LOCKOUT_END_WRITE_COMPLETE (R91) -/
  | lockoutEndWriteComplete
  /-- BACKOFF_END (R128) -/
  | backoffEnd
  /-- SET_TIME (R32), request 20h: the requested clock value -/
  | setTime (value : BitVec 32)
  /-- SET_TIME_WRITE_COMPLETE (R36) -/
  | setTimeWriteComplete
  /-- CODE_KEY_DIGIT (R75), request 10h: the key byte; a value that names no key is refused BAD-VALUE -/
  | codeKeyDigit (key : Byte)
  /-- CODE_KEY_CLEAR (R76), request 10h with key 0Ah -/
  | codeKeyClear
  /-- CODE_KEY_BACK (R76), request 10h with key 0Bh -/
  | codeKeyBack
  /-- CODE_KEY_ENTER (R78), request 10h with key 0Ch -/
  | codeKeyEnter
  /-- PAUSE_TIMER_EXPIRY (R77) -/
  | pauseTimerExpiry
  /-- CODE_ENTER (R79), request 11h: the digits of the message, first digit first -/
  | codeEnter (digits : List Byte)
  /-- COUNTED_FAILURE_WRITE_COMPLETE (R90) -/
  | countedFailureWriteComplete
  /-- CODE_ACCEPT_WRITE_COMPLETE (R93) -/
  | codeAcceptWriteComplete
  /-- COIL_PULSE_START (R108) -/
  | coilPulseStart
  /-- BLANKING_END (R109) -/
  | blankingEnd
  /-- LS_INPUT_CHANGE (R109): the levels of LS1..LS3 after the change, and the whole milliseconds since the start of the
  attempt's pulse (of no account while no attempt is being verified) -/
  | lsInputChange (ls : Tri Bool) (ms : Nat)
  /-- ATTEMPT_CONFIRMED (R109) -/
  | attemptConfirmed
  /-- COIL_PULSE_END (R108) -/
  | coilPulseEnd
  /-- VERIFICATION_WINDOW_END (R110) -/
  | verificationWindowEnd
  /-- BUTTON_PRESS (R113) -/
  | buttonPress
  /-- RECONNECT (R114), request 13h -/
  | reconnect
  /-- REMOTE_HOLD_SET (R103), request 21h: the choice byte, 1 for set; a value that names no choice is refused BAD-VALUE -/
  | remoteHoldSet (choice : Byte)
  /-- REMOTE_HOLD_CLEAR (R103), request 21h with choice 0 -/
  | remoteHoldClear
  /-- SWITCH_RECORD_WRITE_COMPLETE (R103) -/
  | switchRecordWriteComplete
  /-- RELAY_RETRY (R117), request 22h -/
  | relayRetry
  /-- POSITION_SENSING_END (R118) -/
  | positionSensingEnd
  /-- BYPASS_SUSPENSION_END (R145) -/
  | bypassSuspensionEnd
  /-- SLOW_SCAN (R130): the conversions of TS1, TS2 and VBK, oldest first; the scan uses the first 2^n of each -/
  | slowScan (ts1 ts2 vbk : List Nat)
  /-- COVER_OPEN_ONSET (R140) -/
  | coverOpenOnset (which : Cover)
  /-- COVER_OPEN_END (R140) -/
  | coverOpenEnd (which : Cover)
  /-- MAGNET_ONSET (R141) -/
  | magnetOnset
  /-- MAGNET_END (R141) -/
  | magnetEnd
  /-- BATTERY_COVER_OPENING (R171): the cover input, and the level the backup domain's 50 ms debounce has just found -/
  | batteryCoverOpening (which : Cover) (isOpen : Bool)
  /-- SUPPLY_FAILING (R166) -/
  | supplyFailing
  /-- SUPPLY_GOOD_DIP (R169) -/
  | supplyGoodDip
  /-- HOLDUP_LIMIT_EXPIRY (R167) -/
  | holdupLimitExpiry
  /-- MAIN_DOMAIN_LOSS (R167) -/
  | mainDomainLoss
  /-- BACKUP_DOMAIN_LOSS (R167) -/
  | backupDomainLoss
  /-- START (R172) -/
  | start (found : StartReadings)
  /-- START_WRITE_COMPLETE (R174) -/
  | startWriteComplete
  /-- RESET_ASSERT (R176) -/
  | resetAssert
  /-- RESET_RELEASE (R176) -/
  | resetRelease
  /-- RESIDUE_WRITE_COMPLETE (R26) -/
  | residueWriteComplete
  /-- DURABLE_WRITE_COMPLETE (R161): a record that the completed write covers -/
  | durableWriteComplete (record : Record)
  /-- WINDOW_TIMER_EXPIRY (R183) -/
  | windowTimerExpiry
  /-- CLOSE_SERVICE (R183), request 2Ah -/
  | closeService
  /-- LIFE_RECORD_WRITE_COMPLETE (R183) -/
  | lifeRecordWriteComplete
  /-- CLOSE_COMMISSION (R180), request 29h -/
  | closeCommission
  /-- INSTALL_KEY (R179), request 28h -/
  | installKey (serial : BitVec 32) (key : BitVec 120)
  /-- IDENTITY_WRITE_COMPLETE (R179) -/
  | identityWriteComplete
  /-- WRITE_CONFIG (R187), request 27h: the section byte and the contents as sent (R200) -/
  | writeConfig (sel : Byte) (contents : List Byte)
  /-- CONFIG_WRITE_COMPLETE (R187) -/
  | configWriteComplete
  /-- TARIFF_BEGIN (R46), request 23h -/
  | tariffBegin
  /-- TARIFF_SECTION (R45), request 24h: the section byte and the contents as sent (R200) -/
  | tariffSection (sel : Byte) (contents : List Byte)
  /-- TARIFF_COMMIT (R47), request 25h -/
  | tariffCommit (time : BitVec 32) (ident : BitVec 16)
  /-- TARIFF_DISCARD (R47), request 26h -/
  | tariffDiscard
  /-- TARIFF_WRITE_COMPLETE (R46) -/
  | tariffWriteComplete
  /-- FRAME (R192): the bytes of the frame as received, back to back -/
  | frame (bytes : List RxByte)
  /-- GAP_ERROR (R192): the byte that ends the gap -/
  | gapError (next : RxByte)
  /-- BREAK (R193) -/
  | lineBreak
  /-- TRANSMIT_FRAME (R197) -/
  | transmitFrame
  /-- SILENCE_TIMER_EXPIRY (R199) -/
  | silenceTimerExpiry
  /-- IDENTIFY (R203), request 01h -/
  | identify
  /-- STATUS (R203), request 02h: the clear-memory flag as sent -/
  | status (clearMemory : Byte)
  /-- READ_INSTANT (R203), request 03h -/
  | readInstant
  /-- READ_ENERGY (R74), request 04h -/
  | readEnergy
  /-- READ_ACCOUNT (R74), request 05h -/
  | readAccount
  /-- READ_DAYS (R203), request 06h -/
  | readDays (index : Byte)
  /-- READ_EVIDENCE (R202), request 07h: an evidence number, or 0 for the first open -/
  | readEvidence (number : BitVec 32)
  /-- READ_SNAPSHOT (R203), request 08h -/
  | readSnapshot (slot half : Byte)
  /-- READ_CODE_LIST (R203), request 09h -/
  | readCodeList
  /-- READ_TARIFF (R203), request 0Ah -/
  | readTariff (which sel : Byte)
  /-- READ_CONFIG (R203), request 0Bh -/
  | readConfig (sel : Byte)
  /-- LINK_STATUS (R194), request 0Ch -/
  | linkStatus
  /-- ECHO (R203), request 0Dh -/
  | echo (payload : List Byte)
  /-- RESTART (R205), request 2Bh -/
  | restart
  /-- FRAME_SENT (R195) -/
  | frameSent
  /-- LINE_HIGH_HUNT (R193) -/
  | lineHighHunt
deriving DecidableEq, Repr

end Sys2Proof
end

