-- ==== Sys2Proof/Decode.lean ====
section
/-! DEFINITION. What the opcode table's bits spell. spec/opcode_table.json gives none of its 93 rows any bits: the PM36's
steps are bus frames, pin events, timer expiries and completions, not words (log entry 8). -/

namespace Sys2Proof

/-- The command a word spells by the table's bits: the table gives bits to no row, so none. -/
def decodeTableWord (_nbits _w : Nat) : Option Instr := none

end Sys2Proof
end

