-- ==== Sys2Proof/Machine/Records.lean ====
section
/-! DEFINITION. The shapes of the settings, of the durable records and of each block's working state: types only. -/

namespace Sys2Proof.Machine

/-! ### Settings (R186) -/

/-- CAL (R21): the gains G, the constants K of the voltage and current channels and of IN, and the residual constant. -/
structure CalSettings where
  g : Tri Nat
  kV : Tri Nat
  kI : Tri Nat
  kN : Nat
  kR : Nat
deriving DecidableEq, Repr

/-- MEASURE (R21, R139) -/
structure MeasureSettings where
  eSub : Nat
  vNom : Nat
  residualBilling : Bool
  presence : Nat
  reverseMin : Nat
  residualThreshold : Nat
  bypassThreshold : Nat
deriving DecidableEq, Repr

/-- ACCOUNT (R50) -/
structure AccountSettings where
  opening : Nat
  ceiling : Nat
  low : Nat
  emergency : Nat
  friendlyCap : Nat
  daily : Nat
  rate : Nat
deriving DecidableEq, Repr

/-- SWITCH (R121, R123, R125) -/
structure SwitchSettings where
  ack : Bool
  pulse : Nat
  blanking : Nat
  window : Nat
  limit : Nat
  persistence : Nat
deriving DecidableEq, Repr

/-- THERMAL (R136) -/
structure ThermalSettings where
  averaging : Nat
  table : List (Nat × Int)
  alarm : Int
  trip : Int
  hysteresis : Nat
  backup : Nat
deriving DecidableEq, Repr

/-- The five choices of TAMPER for one class (R152). -/
structure ClassPolicy where
  detect : Bool
  disconnect : Bool
  penalty : Bool
  snapshot : Bool
  notify : Bool
deriving DecidableEq, Repr

/-- The configuration record (R186): seven sections, TAMPER as the thirteen classes in order, LINK as its silence limit
(R199), and the sections whose written flag is set. -/
structure ConfigRec where
  cal : CalSettings
  measure : MeasureSettings
  account : AccountSettings
  switch : SwitchSettings
  thermal : ThermalSettings
  tamper : List ClassPolicy
  silence : Nat
  written : List ConfigSection
deriving DecidableEq, Repr

/-- The contents of one section as WRITE-CONFIG carries them; for SWITCH whether the load limit field is there (R186). -/
inductive SectionValue where
  | cal (c : CalSettings)
  | measure (m : MeasureSettings)
  | account (a : AccountSettings)
  | switch (w : SwitchSettings) (hasLimit : Bool)
  | thermal (t : ThermalSettings)
  | tamper (p : List ClassPolicy)
  | link (silence : Nat)
deriving DecidableEq, Repr

/-! ### Tariffs (R44) -/

/-- PRICES: eight prices in mc per kWh, and the penalty and default bands. -/
structure PriceSection where
  prices : List Nat
  penaltyBand : Nat
  defaultBand : Nat
deriving DecidableEq, Repr

/-- DAYS: the rest-day flags, Monday first, and the holidays as day numbers. -/
structure DaysSection where
  restDays : List Bool
  holidays : List Nat
deriving DecidableEq, Repr

/-- FRIENDLY: the windows (start, end) of each day type. -/
structure FriendlySection where
  workday : List (Nat × Nat)
  restday : List (Nat × Nat)
deriving DecidableEq, Repr

/-- A tariff (R44); a schedule is its (minute, band) switch points. -/
structure Tariff where
  prices : PriceSection
  scheduleWorkday : List (Nat × Nat)
  scheduleRestday : List (Nat × Nat)
  days : DaysSection
  friendly : FriendlySection
  identifier : Nat
deriving DecidableEq, Repr

/-- The five sections of a pending tariff, each absent until it is stored (R46). -/
structure PendingSections where
  prices : Option PriceSection
  scheduleWorkday : Option (List (Nat × Nat))
  scheduleRestday : Option (List (Nat × Nat))
  days : Option DaysSection
  friendly : Option FriendlySection
deriving DecidableEq, Repr

/-- The contents of one tariff section (R45). -/
inductive TariffValue where
  | prices (p : PriceSection)
  | scheduleWorkday (l : List (Nat × Nat))
  | scheduleRestday (l : List (Nat × Nat))
  | days (d : DaysSection)
  | friendly (f : FriendlySection)
deriving DecidableEq, Repr

/-- The pending tariff (R46, R47). -/
inductive Pending where
  | empty
  | building (parts : PendingSections)
  | ready (parts : PendingSections) (time identifier : Nat)
deriving DecidableEq, Repr

/-! ### The other durable records (R184) -/

structure IdentityRec where
  serial : BitVec 32
  key : BitVec 120
  installed : Bool
deriving DecidableEq, Repr

/-- The life record (R178): HALTED is never written there. -/
structure LifeRec where
  state : LifeState
  window : Option Nat
deriving DecidableEq, Repr

/-- The account record (R49). -/
structure AccountRec where
  balance : Int
  residue : Nat
  debt : Nat
  emergency : Bool
  total : Nat
  bands : List Nat
  reverse : Tri Nat
  substituted : Nat
  dayImport : Nat
  dayCharged : Nat
  dayCredited : Nat
  totalCharged : Nat
  totalCredited : Nat
deriving DecidableEq, Repr

/-- The code record (R99). -/
structure CodeRec where
  accepted : List Nat
  failures : Nat
  level : Nat
  lockEnd : Option Nat
deriving DecidableEq, Repr

/-- A day record (R65). -/
structure DayRecord where
  day : Nat
  energy : Nat
  charged : Nat
  credited : Nat
deriving DecidableEq, Repr

/-- The days record (R41, R65): the history oldest first, the last processed day and the adjustment day. -/
structure DaysRec where
  history : List DayRecord
  lastDay : Option Nat
  adjustDay : Option Nat
deriving DecidableEq, Repr

structure TariffRec where
  active : Tariff
  pending : Pending
deriving DecidableEq, Repr

/-- An evidence record (R158). -/
structure EvRecord where
  number : Nat
  cls : EvClass
  state : EvState
  onset : Option Nat
  finish : Option Nat
  phase : Option Nat
  value : Option Int
  repeats : Nat
  onBattery : Bool
  slot : Option Nat
  clearSeq : Option Nat
  clearTime : Option Nat
deriving DecidableEq, Repr

/-- The evidence record of the durable store (R161): the log, oldest first, and the next number. -/
structure EvidenceRec where
  log : List EvRecord
  next : Nat
deriving DecidableEq, Repr

/-- One phase of a block summary (R18). -/
structure PhaseSummary where
  vrms : Nat
  irms : Nat
  energy : Nat
  reverse : Bool
deriving DecidableEq, Repr

/-- A block summary (R18). -/
structure Summary where
  phases : Tri PhaseSummary
  neutral : Nat
  residual : Nat
  mag : Bool
  switch : SwitchState
deriving DecidableEq, Repr

/-- A snapshot slot in use (R162). -/
structure Slot where
  number : Nat
  pre : List Summary
  post : List Summary
  collecting : Bool
deriving DecidableEq, Repr

/-- The hold set (R100). -/
structure HoldSet where
  credit : Bool
  load : Bool
  thermal : Bool
  tamper : Bool
  remote : Bool
  fault : Bool
deriving DecidableEq, Repr

/-- The switch record (R104); an operate time of 0 means none confirmed. -/
structure SwitchRec where
  holds : HoldSet
  codeLimit : Option Nat
  openLast : Nat
  openMax : Nat
  closeLast : Nat
  closeMax : Nat
deriving DecidableEq, Repr

/-- A back-off (R127): its end, a clock value, and its period. -/
structure Backoff where
  until_ : Nat
  period : Nat
deriving DecidableEq, Repr

/-- The supply record (R129, R177). -/
structure SupplyRec where
  trips : List Nat
  backoff : Option Backoff
  dips : Nat
  outages : Nat
deriving DecidableEq, Repr

/-- The carried remainders of registration (R4, R5, R13, R14). -/
structure Accumulators where
  residue : Tri Nat
  q : Nat
  reverse : Tri Nat
  substituted : Nat
deriving DecidableEq, Repr

/-- The residue record (R25). -/
structure ResidueRec where
  acc : Accumulators
  valid : Bool
deriving DecidableEq, Repr

/-- The contents of the durable store, record by record. -/
structure Records where
  config : ConfigRec
  identity : IdentityRec
  life : LifeRec
  account : AccountRec
  code : CodeRec
  days : DaysRec
  tariff : TariffRec
  evidence : EvidenceRec
  snapshot : List (Option Slot)
  switch : SwitchRec
  supply : SupplyRec
  residue : ResidueRec
deriving DecidableEq, Repr

/-- New contents of one record. -/
inductive RecordValue where
  | config (v : ConfigRec)
  | identity (v : IdentityRec)
  | life (v : LifeRec)
  | account (v : AccountRec)
  | code (v : CodeRec)
  | days (v : DaysRec)
  | tariff (v : TariffRec)
  | evidence (v : EvidenceRec)
  | snapshot (v : List (Option Slot))
  | switch (v : SwitchRec)
  | supply (v : SupplyRec)
  | residue (v : ResidueRec)
deriving DecidableEq, Repr

/-- The last code result (R98). -/
structure CodeResult where
  outcome : Option Status
  kind : Option Nat
  sequence : Option Nat
  amount : Nat
  recovered : Nat
  held : List EvClass
deriving DecidableEq, Repr

/-- What a durable write is for: it fixes the records the write covers, what it puts there when it starts, and what its
completion brings about. -/
inductive Purpose where
  /-- a quantum or the pending counts alone (R56, R57, R52), with the account record to be stored -/
  | charge (a : AccountRec)
  /-- emergency taken (R61) -/
  | emergencyTaken (a : AccountRec)
  /-- a day boundary (R66): the account record, the day records to append and the target day -/
  | dayBoundary (a : AccountRec) (appended : List DayRecord) (target : Nat)
  /-- a day adoption (R67) -/
  | dayAdoption (day : Nat)
  /-- an accepted CREDIT or SET-DEBT code (R68): the account record, the code's sequence and its result -/
  | codeEffect (a : AccountRec) (sequence : Nat) (result : CodeResult)
  /-- the entry write (R181) -/
  | entry
  /-- a taken SET-TIME (R33 to R35): value, CLOCK-STEP onset and outcome, adjustment day, remaining lockout (R92) -/
  | setTime (value : Nat) (prior : Option Nat) (outcome : Nat) (adjustDay : Option Nat) (carry : Option Nat)
  /-- a counted failure (R89): its status, kind and sequence, and the clock value at the examination -/
  | counted (status : Status) (kind sequence : Option Nat) (clock : Nat)
  /-- an accepted CLEAR-TAMPER code (R156): the classes to clear, the sequence, the handed time, the result -/
  | clearTamper (classes : List EvClass) (sequence : Nat) (time : Option Nat) (result : CodeResult)
  /-- an accepted SET-LIMIT code (R95) -/
  | setLimit (limit : Option Nat) (sequence : Nat) (result : CodeResult)
  /-- an accepted OPEN-SERVICE code (R96, R182): the duration in minutes -/
  | openService (minutes : Nat) (sequence : Nat) (result : CodeResult)
  /-- the end of a lockout (R91) -/
  | lockoutEnd
  /-- the re-arming of a lockout at a cold start (R92), to the end time given -/
  | lockoutRearm (until_ : Nat)
  | switchRecord
  | supplyRecord
  /-- the evidence record, the snapshot record, or both as one (R161) -/
  | evidenceLog (evidence snapshot : Bool)
  | lifeRecord
  | identity (serial : BitVec 32) (key : BitVec 120)
  /-- a taken WRITE-CONFIG (R187): the section as clamped, and whether anything was clamped -/
  | config (v : SectionValue) (clamped : Bool)
  /-- a taken tariff request (R46): the request's kind byte and selector, the pending tariff it makes, the status -/
  | tariffRequest (kind : Nat) (sel : Nat) (pending : Pending) (status : Status)
  | tariffActivation
  /-- the residue record (R25), marked valid or not; forRestart when a RESTART waits for it (R205) -/
  | residue (valid : Bool) (forRestart : Bool)
  /-- the start write (R174) -/
  | startWrite
  /-- the writing of a days or tariff record reinitialised at a start (R184) -/
  | reinitialised (record : Record)
deriving DecidableEq, Repr

/-- A write in flight: its purpose and what it stores. -/
structure Write where
  purpose : Purpose
  puts : List RecordValue
deriving DecidableEq, Repr

/-- The durable store (R184): stored contents; the records a cut write left failing their checksum; the halting records
found failing at the last start; the writes in flight; and the requested writes that have not started, oldest first. -/
structure Store where
  recs : Records
  bad : List Record
  unsound : List Record
  flight : List Write
  waiting : List Purpose
deriving DecidableEq, Repr

/-! ### Working state of the blocks -/

/-- Registration unit and block engine: the carried remainders, the seven stuck counts (V1..V3, I1..I3, IN), the block
trace, the last block summary, whether the residue record has been established (R24) and whether a block is open (R2). -/
structure Registration where
  acc : Accumulators
  stuck : List Nat
  trace : List Summary
  last : Option Summary
  established : Bool
  blockOpen : Bool
deriving DecidableEq, Repr

/-- An entry of the account unit's queue (R51). -/
inductive Entry where
  | quanta (time : Option Nat) (count : Nat)
  | dayBoundary (first count target : Nat)
  | dayAdoption (day : Nat)
  | code (kind : Nat) (amount : Nat) (sequence : Nat)
  | emergency
  | entry
deriving DecidableEq, Repr

/-- Account unit: the queue, the four pending counts (R52) and the current credit condition (R64). -/
structure Account where
  queue : List Entry
  pendingReverse : Tri Nat
  pendingSubstituted : Nat
  condition : Option CreditCondition
deriving DecidableEq, Repr

/-- Calendar unit: the friendly state (R40), and whether a boundary or adoption is outstanding (R42). -/
structure Calendar where
  friendly : Bool
  outstanding : Bool
deriving DecidableEq, Repr

/-- Code unit: the digit buffer, whether the pause timer runs (R77), and the last code result (R98). -/
structure CodeUnit where
  digits : List Byte
  pauseRunning : Bool
  last : CodeResult
deriving DecidableEq, Repr

/-- The coil line driven, if any (R105). -/
inductive Drive where
  | none | openLine | closeLine
deriving DecidableEq, Repr

/-- An attempt under way (R108, R109): blanking time and window in force at its pulse start, the phases whose LS a closing
needs, and the latest moment seen, in ms from the pulse start. -/
structure Attempt where
  blanking : Nat
  window : Nat
  need : Tri Bool
  now : Nat
deriving DecidableEq, Repr

/-- Where an operation stands (R108 to R112). -/
inductive Progress where
  /-- no operation -/
  | idle
  /-- an attempt awaits its pulse -/
  | waiting
  | blanking (a : Attempt)
  /-- verification: the start of the confirming interval running, and whether the window has ended -/
  | watching (a : Attempt) (since : Option Nat) (windowOver : Bool)
  /-- confirmed with its operate time; the pulse has not ended -/
  | confirmed (operateTime : Nat)
  /-- abandoned at a change to HOLDUP (R112) -/
  | abandoned
deriving DecidableEq, Repr

/-- The rule that called for position sensing (R117, R119, R120). -/
inductive Sensing where
  | atStart | atDip | forRetry
deriving DecidableEq, Repr

/-- Switch controller: the switch record in working state, the switch state, the attempt count, the operation's progress,
the coil line driven, the LS inputs, the position sensing in progress, and whether an operation completed in HOLDUP has an
operate time whose write is deferred (R111, R120). -/
structure Switch where
  record : SwitchRec
  state : SwitchState
  attempt : Nat
  progress : Progress
  drive : Drive
  ls : Tri Bool
  sensing : Option Sensing
  timesDue : Bool
deriving DecidableEq, Repr

/-- A terminal sensor (R131, R132). -/
structure Sensor where
  temperature : Option Int
  faulty : Bool
deriving DecidableEq, Repr

/-- Supervision unit: the supply record in working state, the over-limit count, the two sensors, the cell voltage, the
OVERHEAT condition, whether it holds THERMAL present, whether a scan has been made since the start, and BACKUP-LOW. -/
structure Supervision where
  supply : SupplyRec
  overCount : Nat
  sensor1 : Sensor
  sensor2 : Sensor
  cell : Option Nat
  overheat : Bool
  thermal : Bool
  scanned : Bool
  backupLow : Bool
deriving DecidableEq, Repr

/-- A persistence flag and its count (R142 to R145). -/
structure Persist where
  present : Bool
  count : Nat
deriving DecidableEq, Repr

/-- An onset or end that is held back (R156, R181), with the clock value at its arrival. -/
structure Arrival where
  cls : EvClass
  isOnset : Bool
  time : Option Nat
  phase : Option Nat
  value : Option Int
deriving DecidableEq, Repr

/-- Tamper unit: the log and slots in working state, the conditions of classes 1 to 10 (OVERHEAT's is the supervision
unit's), the suspension of RELAY-BYPASS counting, the classes a CLEAR-TAMPER write is to clear, whether an entry holds
arrivals back, and the arrivals held back. -/
structure Tamper where
  evidence : EvidenceRec
  slots : List (Option Slot)
  coverOpen : Bool
  termOpen : Bool
  magnet : Bool
  reverse : Tri Persist
  residual : Persist
  voltageCut : Tri Persist
  bypass : Persist
  codeAttack : Bool
  linkSilence : Bool
  relayFault : Bool
  suspended : Bool
  clearing : List EvClass
  entryHold : Bool
  heldBack : List Arrival
deriving DecidableEq, Repr

/-- Life control: the life state, the window sequence, the duration in minutes the running window timer was started with,
the fault set oldest first, the fault memory, and the repaired set (R178, R182, R184, R189, R190). -/
structure Life where
  state : LifeState
  window : Option Nat
  timer : Option Nat
  faults : List FaultKind
  memory : List FaultKind
  repaired : List Record
deriving DecidableEq, Repr

/-- What brought a start about, when no power loss did (R172). -/
inductive StartCause where
  | supply | resetLine | restart
deriving DecidableEq, Repr

/-- The main domain: off; held by the reset line; awaiting the beginning of a start; in a start (and whether its start
write is still to complete); in a start abandoned at a change to HOLDUP (R175); or running. -/
inductive Domain where
  | off
  | held
  | awaiting (cause : StartCause)
  | starting (cause : StartCause) (writeDue : Bool)
  | abandoned (cause : StartCause)
  | running
deriving DecidableEq, Repr

/-- A cover slot of the backup domain (R171), with the level its debounce last found. -/
structure CoverSlot where
  count : Nat
  first : Option Nat
  isOpen : Bool
deriving DecidableEq, Repr

/-- The backup domain's retained memory (R170); intact stands for its check value agreeing with it. -/
structure Retained where
  intact : Bool
  clock : Nat
  valid : Bool
  outageStart : Option Nat
  offMark : Bool
  coldMark : Bool
  cover : CoverSlot
  term : CoverSlot
deriving DecidableEq, Repr

/-- Backup monitor: the power state, whether the hold-up limit has expired and the switch-off awaits the permitted writes
(R167), the main domain, the last start kind and the retained memory. -/
structure Backup where
  power : PowerState
  limitExpired : Bool
  domain : Domain
  lastStart : StartKind
  retained : Retained
deriving DecidableEq, Repr

/-- The receiver (R192, R193): idle; waiting for 1 ms of high line; hunting; after a sync byte; or within a frame, with the
bytes still to come and those taken since the sync byte, newest first. -/
inductive Receiver where
  | idle
  | waitHigh
  | hunting
  | synced
  | within (left : Nat) (taken : List Byte)
deriving DecidableEq, Repr

/-- Where the request in hand stands (R195): awaiting its owner's examination, waiting for a write, or answered with the
reply payload formed. -/
inductive Stage where
  | owner
  | waiting
  | replied (payload : List Byte)
deriving DecidableEq, Repr

/-- The request in hand (R195). -/
structure InHand where
  kind : Byte
  payload : List Byte
  stage : Stage
deriving DecidableEq, Repr

/-- What the transmitter is sending (R197). -/
inductive SendingKind where
  | reply | busy | notice (n : Notice)
deriving DecidableEq, Repr

structure Sending where
  what : SendingKind
  bytes : List Byte
deriving DecidableEq, Repr

/-- The BUSY owed (R195): the reply's kind, and whether the reply it follows has been sent. -/
structure BusyOwed where
  kind : Byte
  ready : Bool
deriving DecidableEq, Repr

/-- Host link (R191 to R199). notices holds the pending notices, each at most once; restartDue says that the reply OK to
a RESTART has been sent and a BUSY is still to go (R205). -/
structure Link where
  receiver : Receiver
  gapErrors : Nat
  crcErrors : Nat
  formatErrors : Nat
  inHand : Option InHand
  busyOwed : Option BusyOwed
  sending : Option Sending
  notices : List Notice
  silenceRunning : Bool
  restartDue : Bool
deriving DecidableEq, Repr

end Sys2Proof.Machine
end

