-- ==== Sys2Proof/Machine/Bits.lean ====
section
/-! DEFINITION. Byte order, the 16-bit CRC, the integer square root: pure helpers. -/

namespace Sys2Proof.Machine

/-- The k low bytes of v, most significant first (R200). -/
def beBytes : Nat → Nat → List Byte
  | 0, _ => []
  | k + 1, v => BitVec.ofNat 8 (v / 256 ^ k) :: beBytes k v

/-- A signed number in k bytes, two's complement, most significant first (R200). -/
def beSigned (k : Nat) (z : Int) : List Byte := beBytes k (z % (256 ^ k : Nat)).toNat

/-- An absent field of k bytes: all ones (R200). -/
def absentBytes (k : Nat) : List Byte := List.replicate k 0xFF

/-- A field that may be absent (R200). -/
def optBytes (k : Nat) : Option Nat → List Byte
  | some v => beBytes k v
  | none => absentBytes k

/-- A signed field that may be absent: absent is the most negative value of its width (R200). -/
def optSigned (k : Nat) : Option Int → List Byte
  | some z => beSigned k z
  | none => beBytes k (256 ^ k / 2)

/-- Yes is 1 and no is 0 in replies and notices (R200). -/
def boolByte (b : Bool) : Byte := if b then 1 else 0

/-- The number that bytes spell, most significant first. -/
def ofBytes (bs : List Byte) : Nat := bs.foldl (fun acc b => acc * 256 + b.toNat) 0

/-- The field of w bytes at offset off. -/
def field (bs : List Byte) (off w : Nat) : Nat := ofBytes ((bs.drop off).take w)

/-- The signed field of w bytes at offset off (R200). -/
def signedField (bs : List Byte) (off w : Nat) : Int :=
  let v := field bs off w
  if v < 256 ^ w / 2 then (v : Int) else (v : Int) - (256 ^ w : Nat)

/-- A yes-or-no byte of a request: any value other than 0 is yes (R200). -/
def flagField (bs : List Byte) (off : Nat) : Bool := field bs off 1 != 0

/-- A number clamped to the nearer end of its range (R45, R187). -/
def clampNat (lo hi v : Nat) : Nat := max lo (min hi v)
def clampInt (lo hi v : Int) : Int := max lo (min hi v)

/-- One advance of the CRC register with the polynomial 1021h (R85). -/
def crcAdvance (r : BitVec 16) : BitVec 16 := if r.msb then (r <<< 1) ^^^ 0x1021 else r <<< 1

/-- n advances. -/
def crcAdvances : Nat → BitVec 16 → BitVec 16
  | 0, r => r
  | n + 1, r => crcAdvances n (crcAdvance r)

/-- A byte is combined into the register's high eight bits, and the register is advanced eight times (R85, R191). -/
def crcByte (r : BitVec 16) (b : Byte) : BitVec 16 := crcAdvances 8 (r ^^^ (b.setWidth 16 <<< 8))

/-- The CRC of bytes from an initial register: 0 for the code check (R85), FFFFh for a frame (R191). -/
def crc16 (init : BitVec 16) (bs : List Byte) : BitVec 16 := bs.foldl crcByte init

/-- The digits of a square root from bit k - 1 down: r is the root found so far. -/
def isqrtBits (m : Nat) : Nat → Nat → Nat
  | 0, r => r
  | k + 1, r => if (r + 2 ^ k) * (r + 2 ^ k) ≤ m then isqrtBits m k (r + 2 ^ k) else isqrtBits m k r

/-- The greatest integer whose square does not exceed m (R6). -/
def isqrt (m : Nat) : Nat := isqrtBits m (m.log2 / 2 + 1) 0

/-- Quotient rounded toward zero (R131). -/
def quotToZero (a b : Int) : Int := a.tdiv b

/-- A gain that stops at its upper limit (R49, R52, R153, R169, R194). -/
def saturate (limit v : Nat) : Nat := min limit v

end Sys2Proof.Machine
end

