-- ==== Sys2Proof/Machine/Shipped.lean ====
section
/-! DEFINITION. The values as shipped of every settings section and durable record, and the working state a block begins
a start with. -/

namespace Sys2Proof.Machine

/-! ### Sections (R21, R50, R121, R125, R136, R139, R152, R199) -/

def CalSettings.shipped : CalSettings := ⟨.all3 0, .all3 0, .all3 0, 0, 0⟩

def MeasureSettings.shipped : MeasureSettings :=
  { eSub := 0, vNom := 23000, residualBilling := false, presence := 5000, reverseMin := 868,
    residualThreshold := 2000, bypassThreshold := 500 }

def AccountSettings.shipped : AccountSettings :=
  { opening := 0, ceiling := 999999999, low := 10000, emergency := 0, friendlyCap := 0, daily := 0, rate := 0 }

def SwitchSettings.shipped : SwitchSettings :=
  { ack := true, pulse := 60, blanking := 15, window := 300, limit := 0, persistence := 80 }

/-- The shipped temperature table (R131). -/
def shippedTable : List (Nat × Int) :=
  [(60, -300), (140, -150), (230, 0), (340, 200), (460, 400), (580, 600), (700, 800), (820, 1050), (940, 1400)]

def ThermalSettings.shipped : ThermalSettings :=
  { averaging := 2, table := shippedTable, alarm := 800, trip := 1000, hysteresis := 50, backup := 2700 }

/-- The shipped policy (R152), classes 1 to 13. -/
def shippedPolicy : List ClassPolicy :=
  [⟨true, true, false, false, true⟩, ⟨true, true, false, false, true⟩, ⟨true, false, true, true, true⟩,
   ⟨true, false, false, true, true⟩, ⟨true, false, false, true, true⟩, ⟨true, false, false, true, true⟩,
   ⟨true, false, true, true, true⟩, ⟨true, false, false, false, true⟩, ⟨true, false, false, false, false⟩,
   ⟨true, false, false, true, true⟩, ⟨true, false, false, false, true⟩, ⟨true, false, false, false, true⟩,
   ⟨true, false, false, false, true⟩]

def ConfigRec.shipped : ConfigRec :=
  { cal := .shipped, measure := .shipped, account := .shipped, switch := .shipped, thermal := .shipped,
    tamper := shippedPolicy, silence := 600, written := [] }

/-! ### The other records -/

/-- R179: serial 0, no key installed; the key's own value is DESIGN CHOICE 0 (log entry 6). -/
def IdentityRec.shipped : IdentityRec := ⟨0, 0, false⟩

/-- R178 -/
def LifeRec.shipped : LifeRec := ⟨.commissioning, none⟩

/-- R49 -/
def AccountRec.shipped : AccountRec :=
  { balance := 0, residue := 0, debt := 0, emergency := false, total := 0, bands := [0, 0, 0, 0, 0, 0, 0, 0],
    reverse := .all3 0, substituted := 0, dayImport := 0, dayCharged := 0, dayCredited := 0, totalCharged := 0,
    totalCredited := 0 }

/-- R99 -/
def CodeRec.shipped : CodeRec := ⟨[], 0, 0, none⟩

/-- R41, R65; the adjustment day absent (R184 reinitialises it so; log entry 6) -/
def DaysRec.shipped : DaysRec := ⟨[], none, none⟩

/-- R44 -/
def Tariff.shipped : Tariff :=
  { prices := ⟨[0, 0, 0, 0, 0, 0, 0, 0], 0, 0⟩, scheduleWorkday := [(0, 0)], scheduleRestday := [(0, 0)],
    days := ⟨[false, false, false, false, false, false, false], []⟩, friendly := ⟨[], []⟩, identifier := 0 }

def PendingSections.none : PendingSections := ⟨Option.none, Option.none, Option.none, Option.none, Option.none⟩

def TariffRec.shipped : TariffRec := ⟨.shipped, .empty⟩

/-- R161 -/
def EvidenceRec.shipped : EvidenceRec := ⟨[], 1⟩
def freeSlots : List (Option Slot) := [none, none, none, none]

def HoldSet.empty : HoldSet := ⟨false, false, false, false, false, false⟩

/-- R104 -/
def SwitchRec.shipped : SwitchRec := ⟨.empty, none, 0, 0, 0, 0⟩

/-- R129, R177 -/
def SupplyRec.shipped : SupplyRec := ⟨[], none, 0, 0⟩

def Accumulators.zero : Accumulators := ⟨.all3 0, 0, .all3 0, 0⟩

/-- R25: as shipped the record is not valid; what its residues and accumulators then hold the manual does not say, and the
model takes zeros (DESIGN CHOICE, log entry 6). -/
def ResidueRec.shipped : ResidueRec := ⟨.zero, false⟩

def Records.shipped : Records :=
  { config := .shipped, identity := .shipped, life := .shipped, account := .shipped, code := .shipped, days := .shipped,
    tariff := .shipped, evidence := .shipped, snapshot := freeSlots, switch := .shipped, supply := .shipped,
    residue := .shipped }

/-! ### Working state at the beginning of a start -/

/-- R8, R19, R24: stuck counts 0, trace empty, no last summary; residues from 0 until R26 establishes them. -/
def Registration.begin : Registration := ⟨.zero, [0, 0, 0, 0, 0, 0, 0], [], none, false, false⟩

/-- R55, R73 -/
def Account.begin : Account := ⟨[], .all3 0, 0, none⟩

/-- R40, R43 -/
def Calendar.begin : Calendar := ⟨false, false⟩

/-- R98 -/
def CodeResult.absent : CodeResult := ⟨none, none, none, 0, 0, []⟩

/-- R75, R77, R98 -/
def CodeUnit.begin : CodeUnit := ⟨[], false, .absent⟩

/-- R125, R130, R132 to R135 -/
def Supervision.begin (supply : SupplyRec) : Supervision :=
  ⟨supply, 0, ⟨none, false⟩, ⟨none, false⟩, none, false, false, false, false⟩

def Persist.none : Persist := ⟨false, 0⟩

/-- R164: every condition absent and every persistence count 0. -/
def Tamper.begin (evidence : EvidenceRec) (slots : List (Option Slot)) : Tamper :=
  { evidence := evidence, slots := slots, coverOpen := false, termOpen := false, magnet := false,
    reverse := .all3 .none, residual := .none, voltageCut := .all3 .none, bypass := .none, codeAttack := false,
    linkSilence := false, relayFault := false, suspended := false, clearing := [], entryHold := false, heldBack := [] }

/-- R193, R194, R198: idle, nothing in hand, no BUSY owed, no notice pending, the counters 0. -/
def Link.begin : Link := ⟨.idle, 0, 0, 0, none, none, none, [], false, false⟩

def CoverSlot.unused : CoverSlot := ⟨0, none, false⟩

/-- The retained memory of a part that has never powered its backup domain (R170): its check fails. R30 gives the clock 0
and INVALID as shipped. -/
def Retained.never : Retained := ⟨false, 0, false, none, false, false, .unused, .unused⟩

end Sys2Proof.Machine
end

