-- ==== Sys2Proof/Machine/Flags.lean ====
section
/-! DEFINITION. Numbers of the enumerations and flags of the sets as R196 and R200 send them, and the hold set's members. -/

namespace Sys2Proof

/-- The status byte (R196). -/
def Status.byte : Status → Byte
  | .ok => 0x00 | .clamped => 0x01 | .busy => 0x02 | .unknownKind => 0x03 | .badLength => 0x04 | .badValue => 0x05
  | .state => 0x06 | .authority => 0x07 | .power => 0x08 | .condition => 0x09 | .incomplete => 0x0A
  | .notAllowed => 0x0B | .notArmed => 0x0C | .clockLimit => 0x0D | .full => 0x10 | .format => 0x11 | .locked => 0x12
  | .check => 0x13 | .auth => 0x14 | .kind => 0x15 | .used => 0x16 | .stale => 0x17 | .overflow => 0x18

def PowerState.byte : PowerState → Byte
  | .mains => 0 | .holdup => 1 | .battery => 2

def LifeState.byte : LifeState → Byte
  | .commissioning => 0 | .inService => 1 | .serviceWindow => 2 | .halted => 3

def SwitchState.number : SwitchState → Nat
  | .closed => 0 | .opening => 1 | .opened => 2 | .armed => 3 | .closing => 4 | .jammed => 5

def SwitchState.byte (s : SwitchState) : Byte := BitVec.ofNat 8 s.number

def CreditCondition.number : CreditCondition → Nat
  | .ok => 0 | .low => 1 | .emergency => 2 | .friendly => 3 | .exhausted => 4

def DayType.number : DayType → Nat
  | .workday => 0 | .restday => 1

def StartKind.byte : StartKind → Byte
  | .cold => 0 | .warm => 1 | .restart => 2 | .resetLine => 3

def EvState.byte : EvState → Byte
  | .opened => 0 | .cleared => 1 | .active => 2 | .ended => 3

/-- The position of a fault in the table of R189. -/
def FaultKind.number : FaultKind → Nat
  | .storeFault => 0 | .storeRepaired => 1 | .clockInvalid => 2 | .backupLow => 3 | .sensorFault => 4
  | .channelStuck => 5 | .relayJammed => 6

/-- The position of a record in the table of R184. -/
def Record.number : Record → Nat
  | .config => 0 | .identity => 1 | .life => 2 | .account => 3 | .code => 4 | .days => 5 | .tariff => 6 | .evidence => 7
  | .snapshot => 8 | .switch => 9 | .supply => 10 | .residue => 11

/-- The class's number, 1..13 (R138). -/
def EvClass.number : EvClass → Nat
  | .coverOpen => 1 | .terminalOpen => 2 | .magnet => 3 | .reverse => 4 | .residual => 5 | .voltageCut => 6
  | .relayBypass => 7 | .codeAttack => 8 | .linkSilence => 9 | .relayFault => 10 | .overheat => 11 | .clockStep => 12
  | .outage => 13

def allClasses : List EvClass :=
  [.coverOpen, .terminalOpen, .magnet, .reverse, .residual, .voltageCut, .relayBypass, .codeAttack, .linkSilence,
   .relayFault, .overheat, .clockStep, .outage]

/-- Classes 1 to 9 are latching (R138). -/
def EvClass.latching (c : EvClass) : Bool := c.number ≤ 9

/-- Classes 1 to 11 may take a snapshot slot (R162). -/
def EvClass.snapshotable (c : EvClass) : Bool := c.number ≤ 11

def EvClass.isCover (c : EvClass) : Bool := c == .coverOpen || c == .terminalOpen

def Cover.cls : Cover → EvClass
  | .main => .coverOpen
  | .terminal => .terminalOpen

/-- The notice's kind byte, 40h to 48h (R198). -/
def Notice.kindByte : Notice → Byte
  | .life => 0x40 | .power => 0x41 | .credit => 0x42 | .switch => 0x43 | .evidence => 0x44 | .fault => 0x45
  | .tariff => 0x46 | .day => 0x47 | .keypad => 0x48

def allNotices : List Notice := [.life, .power, .credit, .switch, .evidence, .fault, .tariff, .day, .keypad]

end Sys2Proof

namespace Sys2Proof.Machine

/-- A set as flags: each member gives the bit of its number (R200). -/
def flagsOf (numbers : List Nat) (top : Nat) : Nat :=
  ((List.range top).filter (fun n => numbers.contains n)).foldl (fun acc n => acc + 2 ^ n) 0

/-- A class set in 2 bytes, bit 0 for class 1 (R200). -/
def classSetBytes (l : List EvClass) : List Byte := beBytes 2 (flagsOf (l.map fun c => c.number - 1) 13)

/-- The fault memory in 1 byte (R200). -/
def faultSetByte (l : List FaultKind) : Byte := BitVec.ofNat 8 (flagsOf (l.map FaultKind.number) 7)

/-- The repaired set in 2 bytes (R200). -/
def recordSetBytes (l : List Record) : List Byte := beBytes 2 (flagsOf (l.map Record.number) 12)

/-! ### The hold set (R100) -/

def HoldSet.has (h : HoldSet) : Hold → Bool
  | .credit => h.credit
  | .load => h.load
  | .thermal => h.thermal
  | .tamper => h.tamper
  | .remote => h.remote
  | .fault => h.fault

def HoldSet.put (h : HoldSet) (r : Hold) (b : Bool) : HoldSet :=
  match r with
  | .credit => { h with credit := b }
  | .load => { h with load := b }
  | .thermal => { h with thermal := b }
  | .tamper => { h with tamper := b }
  | .remote => { h with remote := b }
  | .fault => { h with fault := b }

def HoldSet.isEmpty (h : HoldSet) : Bool := !(h.credit || h.load || h.thermal || h.tamper || h.remote || h.fault)

/-- The hold set in 1 byte, bit 0 for CREDIT (R200). -/
def HoldSet.byte (h : HoldSet) : Byte :=
  BitVec.ofNat 8 (h.credit.toNat + 2 * h.load.toNat + 4 * h.thermal.toNat + 8 * h.tamper.toNat + 16 * h.remote.toNat +
    32 * h.fault.toNat)

end Sys2Proof.Machine
end

