-- ==== Sys2Proof/Config.lean ====
section
/-! DEFINITION. The free values: what the manual gives a place but no value. -/

namespace Sys2Proof

/-- The n-th free value (log entry 4): a number the manual does not state. It has no body, so nothing can be proved of it
that does not hold whatever it is. Each use reduces it into the range of its field, and State.fresh moves on past it. -/
opaque Config.free : Nat → Nat

end Sys2Proof
end

