-- ==== Sys2Proof/Machine/Calendar.lean ====
section
/-! DEFINITION. Chapter 2's fixed arithmetic: dates, day types, bands and friendly windows as functions of a clock value
and a tariff. -/

namespace Sys2Proof.Machine

/-- The largest clock value (R29). -/
def maxClock : Nat := 3155759999

/-- R31 -/
def dayOf (t : Nat) : Nat := t / 86400
def minuteOf (t : Nat) : Nat := t % 86400 / 60
/-- 0 to 6 for Monday to Sunday (R31). -/
def weekdayOf (day : Nat) : Nat := (day + 5) % 7

/-- A date as the host sees it (R31). -/
structure Date where
  year : Nat
  month : Nat
  day : Nat
deriving DecidableEq, Repr

def leapYear (year : Nat) : Bool := year % 4 == 0

def monthLengths (leap : Bool) : List Nat := [31, if leap then 29 else 28, 31, 30, 31, 30, 31, 31, 30, 31, 30, 31]

/-- The month and day of a day of the year, counted from 0, given the lengths of the months from `month` on. -/
def monthScan : List Nat → Nat → Nat → Nat × Nat
  | [], month, d => (month, d + 1)
  | len :: rest, month, d => if d < len then (month, d + 1) else monthScan rest (month + 1) (d - len)

/-- The date of a day number: four years are 1,461 days, the first of them the leap year. -/
def dateOfDay (n : Nat) : Date :=
  let r := n % 1461
  let inCycle := if r < 366 then 0 else (r - 366) / 365 + 1
  let ofYear := if r < 366 then r else (r - 366) % 365
  let md := monthScan (monthLengths (r < 366)) 1 ofYear
  ⟨2000 + 4 * (n / 1461) + inCycle, md.1, md.2⟩

/-- A date is valid when the year is in 2000..2099, the month in 1..12 and the day in that month (R31). -/
def Date.valid (d : Date) : Bool :=
  2000 ≤ d.year && d.year ≤ 2099 && 1 ≤ d.month && d.month ≤ 12 && 1 ≤ d.day &&
    d.day ≤ (monthLengths (leapYear d.year)).getD (d.month - 1) 0

/-- The day number of a valid date. -/
def Date.number (d : Date) : Nat :=
  let y := d.year - 2000
  365 * y + (y + 3) / 4 + ((monthLengths (leapYear d.year)).take (d.month - 1)).sum + (d.day - 1)

/-- R37 -/
def Tariff.dayType (tf : Tariff) (day : Nat) : DayType :=
  if tf.days.restDays.getD (weekdayOf day) false || tf.days.holidays.contains day then .restday else .workday

def Tariff.schedule (tf : Tariff) : DayType → List (Nat × Nat)
  | .workday => tf.scheduleWorkday
  | .restday => tf.scheduleRestday

def Tariff.windows (tf : Tariff) : DayType → List (Nat × Nat)
  | .workday => tf.friendly.workday
  | .restday => tf.friendly.restday

/-- The band of the last point whose minute is at most m, or of the schedule's last point when there is none (R38). -/
def scheduleBand (points : List (Nat × Nat)) (m : Nat) : Nat :=
  match (points.filter (fun p => p.1 ≤ m)).getLast? with
  | some p => p.2
  | none => (points.getLast?.map (·.2)).getD 0

/-- The schedule band at a clock value (R38). -/
def Tariff.bandAt (tf : Tariff) (t : Nat) : Nat :=
  scheduleBand (tf.schedule (tf.dayType (dayOf t))) (minuteOf t)

/-- The band of a quantum (R39): penalty first, then the default band for no time, then the schedule band. -/
def Tariff.bandInForce (tf : Tariff) (penalty : Bool) (time : Option Nat) : Nat :=
  if penalty then tf.prices.penaltyBand
  else match time with
    | none => tf.prices.defaultBand
    | some t => tf.bandAt t

/-- A window covers its start up to but not including its end (R40). -/
def inWindow (m : Nat) (w : Nat × Nat) : Bool := w.1 ≤ m && m < w.2

/-- Whether a friendly period is in force at a clock value (R40). -/
def Tariff.friendlyAt (tf : Tariff) (t : Nat) : Bool :=
  (tf.windows (tf.dayType (dayOf t))).any (inWindow (minuteOf t))

/-- The period of a lockout of the level (R90). -/
def lockoutPeriod (level : Nat) : Nat := 600 * 2 ^ (level - 1)

/-- The crossed count of a boundary (R42): at most 62. -/
def crossedCount (c p : Nat) : Nat := min (c - p) 62

end Sys2Proof.Machine
end

