-- ==== Sys2Proof/Machine/State.lean ====
section
/-! DEFINITION. The state of the part, the reasons a step can stop, and the state as shipped. -/

namespace Sys2Proof.Machine

/-- The state: one field for each block of 00_scope.md section 3, the queue of commands waiting, and the model's own
counter of free values (log entry 4). -/
structure State where
  /-- the commands waiting, first in, first out -/
  pending : List Instr
  backup : Backup
  store : Store
  reg : Registration
  cal : Calendar
  acct : Account
  code : CodeUnit
  sw : Switch
  sup : Supervision
  tam : Tamper
  life : Life
  link : Link
  /-- the MODEL's own: how many free values have been used -/
  fresh : Nat
deriving DecidableEq, Repr

/-- Faults: the manual names no event that stops the part, so the type has no constructor and no command faults (safe). -/
inductive Fault where
deriving DecidableEq, Repr

/-- Refusals. -/
inductive Refusal where
  /-- Raised by exec's arm of a command that has no meaning yet, with its mnemonic (safe: the run stops there). -/
  | notModelled (mnemonic : String)
deriving DecidableEq, Repr

/-- The part as shipped, before it has ever been powered (log entry 5): the power state BATTERY with the main domain off,
the durable records as shipped, and the retained memory failing its check, so that the first START is COLD (R170, R172).
The fields the manual gives no value before a start (the last start kind, the switch state, the LS inputs) hold the values
log entry 6 names. -/
def State.reset : State :=
  { pending := []
    backup := { power := .battery, limitExpired := false, domain := .off, lastStart := .cold, retained := .never }
    store := { recs := .shipped, bad := [], unsound := [], flight := [], waiting := [] }
    reg := .begin
    cal := .begin
    acct := .begin
    code := .begin
    sw := { record := .shipped, state := .opened, attempt := 0, progress := .idle, drive := .none,
            ls := .all3 false, sensing := none, timesDue := false }
    sup := .begin .shipped
    tam := .begin .shipped freeSlots
    life := ⟨.commissioning, none, none, [], [], []⟩
    link := .begin
    fresh := 0 }

end Sys2Proof.Machine
end

