-- ==== Sys2Proof/Machine/Update.lean ====
section
/-! DEFINITION. One update for each part of the state: every operation changes the state through these. -/

namespace Sys2Proof.Machine

def State.onBackup (f : Backup → Backup) (s : State) : State := { s with backup := f s.backup }
def State.onStore (f : Store → Store) (s : State) : State := { s with store := f s.store }
def State.onReg (f : Registration → Registration) (s : State) : State := { s with reg := f s.reg }
def State.onCal (f : Calendar → Calendar) (s : State) : State := { s with cal := f s.cal }
def State.onAcct (f : Account → Account) (s : State) : State := { s with acct := f s.acct }
def State.onCode (f : CodeUnit → CodeUnit) (s : State) : State := { s with code := f s.code }
def State.onSw (f : Switch → Switch) (s : State) : State := { s with sw := f s.sw }
def State.onSup (f : Supervision → Supervision) (s : State) : State := { s with sup := f s.sup }
def State.onTam (f : Tamper → Tamper) (s : State) : State := { s with tam := f s.tam }
def State.onLife (f : Life → Life) (s : State) : State := { s with life := f s.life }
def State.onLink (f : Link → Link) (s : State) : State := { s with link := f s.link }
def State.useFree (n : Nat) (s : State) : State := { s with fresh := s.fresh + n }

end Sys2Proof.Machine
end

