-- ==== Sys2Proof/Machine/Store.lean ====
section
/-! DEFINITION. Reading the state, and the durable store: what each write covers and carries, when it starts, what its
completion stores, and what a cut leaves (R161, R168, R184). -/

namespace Sys2Proof.Machine

/-! ### Reading the state -/

/-- A block of the main domain works: a start is being made or has ended. -/
def State.alive (s : State) : Bool :=
  match s.backup.domain with
  | .starting _ _ => true
  | .running => true
  | _ => false

/-- The last start has ended and the part runs. -/
def State.running (s : State) : Bool := s.backup.domain == .running

def State.mains (s : State) : Bool := s.backup.power == .mains
def State.holdup (s : State) : Bool := s.backup.power == .holdup

/-- The blocks of the main domain have work, in MAINS or HOLDUP: a start is being made, has been abandoned, or has ended. -/
def State.works (s : State) : Bool :=
  (match s.backup.domain with
    | .starting _ _ | .abandoned _ | .running => true
    | _ => false) && (s.mains || s.holdup)

/-- The meter clock's value (R29). -/
def State.clock (s : State) : Nat := s.backup.retained.clock
def State.clockValid (s : State) : Bool := s.backup.retained.valid

/-- The clock as a time: absent while the clock is INVALID (R30). -/
def State.time (s : State) : Option Nat := if s.clockValid then some s.clock else none

/-- A record found sound at the last start (R184). -/
def State.sound (s : State) (r : Record) : Bool := !s.store.unsound.contains r

/-- The settings in force: the shipped values while the configuration record has failed (R185). -/
def State.config (s : State) : ConfigRec := if s.sound .config then s.store.recs.config else .shipped

/-- The active tariff (R44). -/
def State.tariff (s : State) : Tariff := s.store.recs.tariff.active

/-- The policy of a class (R152). -/
def State.policy (s : State) (c : EvClass) : ClassPolicy :=
  s.config.tamper.getD (c.number - 1) ⟨false, false, false, false, false⟩

/-- IN-SERVICE or SERVICE-WINDOW. -/
def State.inService (s : State) : Bool := s.life.state == .inService || s.life.state == .serviceWindow

/-! ### What a code's acceptance does to the code record (R93) -/

/-- The sequence inserted in its ascending place. -/
def insertAscending (n : Nat) : List Nat → List Nat
  | [] => [n]
  | m :: rest => if n < m then n :: m :: rest else if n = m then m :: rest else m :: insertAscending n rest

/-- The accepted-code list after an acceptance: 33 entries lose the smallest (R93). -/
def acceptSequence (n : Nat) (l : List Nat) : List Nat :=
  let l' := insertAscending n l
  if l'.length > 32 then l'.tail else l'

def CodeRec.accept (c : CodeRec) (sequence : Nat) : CodeRec :=
  { c with accepted := acceptSequence sequence c.accepted, failures := 0, level := 0 }

/-- A counted failure (R89), and the lockout it starts when the count comes to 5 (R90). -/
def CodeRec.countFailure (c : CodeRec) (clock : Nat) : CodeRec :=
  if c.failures + 1 < 5 then { c with failures := c.failures + 1 }
  else
    let level := min 5 (c.level + 1)
    { c with failures := 5, level := level, lockEnd := some (clock + lockoutPeriod level) }

/-- The end of a lockout (R91). -/
def CodeRec.endLockout (c : CodeRec) : CodeRec := { c with lockEnd := none, failures := 0 }

/-! ### What the log holds after a clearing or an entry -/

/-- An OPEN record of a class being cleared becomes CLEARED (R156). -/
def EvRecord.clearedBy (classes : List EvClass) (sequence : Nat) (time : Option Nat) (r : EvRecord) : EvRecord :=
  if r.state = .opened ∧ classes.contains r.cls then
    { r with state := .cleared, clearSeq := some sequence, clearTime := time }
  else r

def EvidenceRec.clearing (e : EvidenceRec) (classes : List EvClass) (sequence : Nat) (time : Option Nat) : EvidenceRec :=
  { e with log := e.log.map (EvRecord.clearedBy classes sequence time) }

/-- A slot that collects no more (R163). -/
def Slot.completed (sl : Slot) : Slot := { sl with collecting := false }

/-- Records appended again from number n, with the onset time given; each record of a class that seeks a slot takes the next
one, from slot k on, with a copy of the trace as its pre-blocks (R162). -/
def appendAgain (time : Option Nat) (seeks : EvClass → Bool) (trace : List Summary) :
    Nat → Nat → List EvRecord → List EvRecord × List Slot
  | _, _, [] => ([], [])
  | n, k, r :: rest =>
    if seeks r.cls && decide (k < 4) then
      let x := appendAgain time seeks trace (n + 1) (k + 1) rest
      ({ r with number := n, onset := time, slot := some k } :: x.1, ⟨n, trace, [], true⟩ :: x.2)
    else
      let x := appendAgain time seeks trace (n + 1) k rest
      ({ r with number := n, onset := time, slot := none } :: x.1, x.2)

/-- The log and the slots at entry into service (R165): empty but for the ACTIVE records of the following classes present,
appended again from number 1, in the order they had in the old log (DESIGN CHOICE, log entry 64), with the onset time of the entry
and each with the slot it finds (R162). -/
def EvidenceRec.atEntry (e : EvidenceRec) (time : Option Nat) (seeks : EvClass → Bool) (trace : List Summary) :
    EvidenceRec × List (Option Slot) :=
  let kept := e.log.filter (fun r => r.state = .active)
  let x := appendAgain time seeks trace 1 0 kept
  (⟨x.1, kept.length + 1⟩, (x.2.map some ++ freeSlots).take 4)

/-- The log and the slots as entry into service makes them now. -/
def State.entryLog (s : State) : EvidenceRec × List (Option Slot) :=
  s.tam.evidence.atEntry s.time (fun c => (s.policy c).snapshot && c.snapshotable) s.reg.trace

/-! ### What a configuration or tariff write stores -/

/-- The record with one section replaced and its written flag set (R186); a SWITCH write without the limit field keeps the
stored limit. -/
def ConfigRec.put (c : ConfigRec) (v : SectionValue) : ConfigRec :=
  let mark (sec : ConfigSection) : List ConfigSection := if c.written.contains sec then c.written else c.written ++ [sec]
  match v with
  | .cal x => { c with cal := x, written := mark .cal }
  | .measure x => { c with measure := x, written := mark .measure }
  | .account x => { c with account := x, written := mark .account }
  | .switch x true => { c with switch := x, written := mark .switch }
  | .switch x false => { c with switch := { x with limit := c.switch.limit }, written := mark .switch }
  | .thermal x => { c with thermal := x, written := mark .thermal }
  | .tamper x => { c with tamper := x, written := mark .tamper }
  | .link x => { c with silence := x, written := mark .link }

/-- The active tariff a READY pending tariff becomes (R48). -/
def PendingSections.toTariff (p : PendingSections) (identifier : Nat) : Tariff :=
  { prices := p.prices.getD Tariff.shipped.prices
    scheduleWorkday := p.scheduleWorkday.getD Tariff.shipped.scheduleWorkday
    scheduleRestday := p.scheduleRestday.getD Tariff.shipped.scheduleRestday
    days := p.days.getD Tariff.shipped.days
    friendly := p.friendly.getD Tariff.shipped.friendly
    identifier := identifier }

def TariffRec.activated (t : TariffRec) : TariffRec :=
  match t.pending with
  | .ready parts _ identifier => ⟨parts.toTariff identifier, .empty⟩
  | _ => t

/-- The account record at entry into service (R72). The reverse and substituted registers become 0 with the others: the pending
counts that R52 would add to them in the same write are dropped (DESIGN CHOICE, log entry 39). -/
def AccountRec.atEntry (settings : AccountSettings) : AccountRec :=
  { AccountRec.shipped with balance := settings.opening }

/-- The newest n of a list kept oldest first. -/
def lastN {α : Type} (n : Nat) (l : List α) : List α := l.drop (l.length - n)

/-! ### Writes -/

/-- The durable records a write covers. -/
def Purpose.covers : Purpose → List Record
  | .charge _ => [.account]
  | .emergencyTaken _ => [.account]
  | .dayBoundary _ _ _ => [.account, .days]
  | .dayAdoption _ => [.days]
  | .codeEffect _ _ _ => [.account, .code]
  | .entry => [.account, .days, .code, .evidence, .snapshot, .supply, .life]
  | .setTime _ _ _ _ none => [.days]
  | .setTime _ _ _ _ (some _) => [.days, .code]
  | .counted _ _ _ _ => [.code]
  | .clearTamper _ _ _ _ => [.evidence, .code]
  | .setLimit _ _ _ => [.switch, .code]
  | .openService _ _ _ => [.life, .code]
  | .lockoutEnd => [.code]
  | .lockoutRearm _ => [.code]
  | .switchRecord => [.switch]
  | .supplyRecord => [.supply]
  | .evidenceLog ev snap => (if ev then [.evidence] else []) ++ (if snap then [.snapshot] else [])
  | .lifeRecord => [.life]
  | .identity _ _ => [.identity]
  | .config (.switch _ true) _ => [.config, .switch]
  | .config _ _ => [.config]
  | .tariffRequest _ _ _ _ => [.tariff]
  | .tariffActivation => [.tariff]
  | .residue _ _ => [.residue]
  | .startWrite => [.evidence, .snapshot, .supply]
  | .reinitialised r => [r]

/-- The life record's contents: HALTED is never written (R178), and a window read at a start is IN-SERVICE (R184). -/
def State.lifeRecord (s : State) : LifeRec :=
  match s.life.state with
  | .halted => ⟨if s.store.recs.life.state = .serviceWindow then .inService else s.store.recs.life.state, none⟩
  | st => ⟨st, s.life.window⟩

/-- What a write stores, with the values as they stand when it starts. -/
def Purpose.puts (s : State) : Purpose → List RecordValue
  | .charge a => [.account a]
  | .emergencyTaken a => [.account a]
  | .dayBoundary a appended target =>
    [.account a, .days { s.store.recs.days with
      history := lastN 31 (s.store.recs.days.history ++ appended), lastDay := some target }]
  | .dayAdoption day => [.days { s.store.recs.days with lastDay := some day }]
  | .codeEffect a sequence _ => [.account a, .code (s.store.recs.code.accept sequence)]
  | .entry =>
    [.account (.atEntry s.config.account),
     .days { s.store.recs.days with history := [], lastDay := some (dayOf s.clock) },
     .code .shipped,
     .evidence s.entryLog.1, .snapshot s.entryLog.2,
     .supply { s.sup.supply with trips := [], backoff := none },
     .life ⟨.inService, none⟩]
  | .setTime _ _ _ adjustDay none => [.days { s.store.recs.days with adjustDay := adjustDay }]
  | .setTime value _ _ adjustDay (some left) =>
    [.days { s.store.recs.days with adjustDay := adjustDay },
     .code { s.store.recs.code with lockEnd := s.store.recs.code.lockEnd.map (fun _ => value + left) }]
  | .counted _ _ _ clock => [.code (s.store.recs.code.countFailure clock)]
  | .clearTamper classes sequence time _ =>
    [.evidence (s.tam.evidence.clearing classes sequence time), .code (s.store.recs.code.accept sequence)]
  | .setLimit limit sequence _ =>
    [.switch { s.sw.record with codeLimit := limit }, .code (s.store.recs.code.accept sequence)]
  | .openService _ sequence _ =>
    [.life ⟨.serviceWindow, some sequence⟩, .code (s.store.recs.code.accept sequence)]
  | .lockoutEnd => [.code s.store.recs.code.endLockout]
  | .lockoutRearm until_ => [.code { s.store.recs.code with lockEnd := some until_ }]
  | .switchRecord => [.switch s.sw.record]
  | .supplyRecord => [.supply s.sup.supply]
  | .evidenceLog ev snap =>
    (if ev then [.evidence s.tam.evidence] else []) ++ (if snap then [.snapshot s.tam.slots] else [])
  | .lifeRecord => [.life s.lifeRecord]
  | .identity serial key => [.identity ⟨serial, key, true⟩]
  | .config (.switch w true) _ =>
    [.config (s.store.recs.config.put (.switch w true)), .switch { s.sw.record with codeLimit := none }]
  | .config v _ => [.config (s.store.recs.config.put v)]
  | .tariffRequest _ _ pending _ => [.tariff { s.store.recs.tariff with pending := pending }]
  | .tariffActivation => [.tariff s.store.recs.tariff.activated]
  | .residue valid _ => [.residue ⟨s.reg.acc, valid⟩]
  | .startWrite => [.evidence s.tam.evidence, .snapshot s.tam.slots, .supply s.sup.supply]
  | .reinitialised .days => [.days s.store.recs.days]
  | .reinitialised .tariff => [.tariff s.store.recs.tariff]
  | .reinitialised _ => []

def Records.put (r : Records) : RecordValue → Records
  | .config v => { r with config := v }
  | .identity v => { r with identity := v }
  | .life v => { r with life := v }
  | .account v => { r with account := v }
  | .code v => { r with code := v }
  | .days v => { r with days := v }
  | .tariff v => { r with tariff := v }
  | .evidence v => { r with evidence := v }
  | .snapshot v => { r with snapshot := v }
  | .switch v => { r with switch := v }
  | .supply v => { r with supply := v }
  | .residue v => { r with residue := v }

/-- A completed write stores what it carries and leaves its records passing their checksums (R184). -/
def Store.commit (st : Store) (w : Write) : Store :=
  { st with
    recs := w.puts.foldl Records.put st.recs
    bad := st.bad.filter (fun r => !w.purpose.covers.contains r) }

/-- The writes the durable store may start in HOLDUP (R168). -/
def Purpose.permittedInHoldup : Purpose → Bool
  | .residue _ _ => true
  | .evidenceLog false true => true
  | _ => false

def Purpose.isResidue : Purpose → Bool
  | .residue _ _ => true
  | _ => false

/-- Which of the requested writes may start next: in MAINS the oldest; in HOLDUP only the permitted ones, the residue record
before the snapshot record (R168). -/
def State.startsNext (s : State) (p : Purpose) : Bool :=
  s.mains || (s.holdup && p.permittedInHoldup && (p.isResidue || !s.store.waiting.any Purpose.isResidue))

/-- With nothing in flight the next requested write starts, with the values as they stand: the durable store makes one write at
a time (R161, R168; log entry 11). -/
def State.pump (s : State) : State :=
  match s.store.flight, s.store.waiting.find? s.startsNext with
  | [], some p => s.onStore fun st => { st with flight := [⟨p, p.puts s⟩], waiting := st.waiting.eraseP s.startsNext }
  | _, _ => s

/-- Adds a request to those waiting; requests for the switch, supply and evidence records that are waiting are served by one
write (R101, R129, R161). -/
def addRequest (p : Purpose) : List Purpose → List Purpose
  | [] => [p]
  | q :: rest =>
    match p, q with
    | .switchRecord, .switchRecord => q :: rest
    | .supplyRecord, .supplyRecord => q :: rest
    | .evidenceLog ev snap, .evidenceLog ev' snap' => .evidenceLog (ev || ev') (snap || snap') :: rest
    | _, _ => q :: addRequest p rest

/-- A write is requested. In HOLDUP only the permitted ones are; its owner defers or drops any other (R168). -/
def State.request (p : Purpose) (s : State) : State :=
  if s.holdup && !p.permittedInHoldup then s
  else (s.onStore fun st => { st with waiting := addRequest p st.waiting }).pump

/-- The first write in flight of the kind asked for, and the others. -/
def takeFlight (sel : Purpose → Bool) : List Write → Option (Write × List Write)
  | [] => none
  | w :: rest =>
    if sel w.purpose then some (w, rest)
    else (takeFlight sel rest).map fun r => (r.1, w :: r.2)

/-- Some write of the kind asked for is in flight or waiting. -/
def State.writing (s : State) (sel : Purpose → Bool) : Bool :=
  s.store.flight.any (fun w => sel w.purpose) || s.store.waiting.any sel

/-- The writes the account unit makes (R51, R54). -/
def Purpose.isAccountUnits : Purpose → Bool
  | .charge _ | .emergencyTaken _ | .dayBoundary _ _ _ | .dayAdoption _ | .codeEffect _ _ _ | .entry => true
  | _ => false

def State.accountBusy (s : State) : Bool := s.writing Purpose.isAccountUnits

/-- A write of the tariff record is in hand (R48). -/
def State.tariffBusy (s : State) : Bool := s.writing fun p => p.covers.contains .tariff

/-- A write of the code record is in hand. -/
def State.codeBusy (s : State) : Bool := s.writing fun p => p.covers.contains .code

/-- None of the writes that HOLDUP permits is in flight or waiting (R167, R168): what was in flight at the change counts among
them, and a write that waits without being permitted is not made there and holds nothing up. -/
def State.drained (s : State) : Bool := s.store.flight.isEmpty && !s.store.waiting.any Purpose.permittedInHoldup

/-- Writes in flight that are let complete with no block there to act on them (R176). -/
def Store.completeAll (st : Store) : Store :=
  { st.flight.foldl Store.commit st with flight := [], waiting := [] }

/-- Writes in flight when the supply collapses are cut: a single record then fails its checksum, records written together
keep their earlier copies (R168). -/
def cutWrites (bad : List Record) : List Write → List Record
  | [] => bad
  | w :: rest =>
    match w.purpose.covers with
    | [r] => cutWrites (if bad.contains r then bad else bad ++ [r]) rest
    | _ => cutWrites bad rest

end Sys2Proof.Machine
end

