-- ==== Sys2Proof/Machine/Ops.lean ====
section
/-! DEFINITION. The operations every family shares: notices, faults, replies, the completion of a write, the loss of the
working state, and the hold set with the judgement of a rest state. -/

namespace Sys2Proof.Machine

/-- A block makes a notice pending; the set holds each kind at most once (R198). -/
def State.pend (n : Notice) (s : State) : State :=
  s.onLink fun l => { l with notices := if l.notices.contains n then l.notices else l.notices ++ [n] }

/-! ### Faults (R189, R190) -/

/-- A raising of a fault: ignored when it is present; otherwise it joins the newest end and the memory. -/
def State.raiseFault (f : FaultKind) (s : State) : State :=
  if s.life.faults.contains f then s
  else (s.onLife fun v => { v with
    faults := v.faults ++ [f]
    memory := if v.memory.contains f then v.memory else v.memory ++ [f] }).pend .fault

/-- An end of a fault: ignored when it is absent. -/
def State.endFault (f : FaultKind) (s : State) : State :=
  if s.life.faults.contains f then (s.onLife fun v => { v with faults := v.faults.filter (· ≠ f) }).pend .fault else s

/-! ### Replies (R195) -/

/-- How many free values one formed reply or notice may use. -/
def freePerFrame : Nat := 256

/-- The reply to the request in hand is formed: its status and its body. -/
def State.answer (st : Status) (body : List Byte) (s : State) : State :=
  (s.onLink fun l => { l with inHand := l.inHand.map fun h => { h with stage := .replied (st.byte :: body) } }).useFree
    freePerFrame

/-- The request in hand waits for its write. -/
def State.await (s : State) : State :=
  s.onLink fun l => { l with inHand := l.inHand.map fun h => { h with stage := .waiting } }

/-- The request in hand is of the kind and waits for a write. -/
def State.awaits (s : State) (kind : Byte) : Bool :=
  match s.link.inHand with
  | some h => h.kind == kind && h.stage == .waiting
  | none => false

/-! ### The main domain stops -/

/-- Everything the main domain holds in working state is lost (R167, R176); pins outside keep their levels. A coil line that is
being driven is released, at a start with the supply good too (DESIGN CHOICE, log entry 41). -/
def State.loseWorking (s : State) : State :=
  { s with
    store := { s.store with unsound := [], flight := [], waiting := [] }
    reg := .begin
    acct := .begin
    cal := .begin
    code := .begin
    sw := { record := s.store.recs.switch, state := .opened, attempt := 0, progress := .idle, drive := .none,
            ls := s.sw.ls, sensing := none, timesDue := false }
    sup := .begin s.store.recs.supply
    tam := .begin .shipped freeSlots
    life := ⟨s.store.recs.life.state, s.store.recs.life.window, none, [], [], []⟩
    link := .begin }

/-- The debounced cover states as the tamper unit holds them; free while no tamper unit works (log entry 4). -/
def State.coverLevels (s : State) : Bool × Bool :=
  match s.backup.domain with
  | .starting _ _ | .abandoned _ | .running => (s.tam.coverOpen, s.tam.termOpen)
  | _ => (Config.free s.fresh % 2 == 1, Config.free (s.fresh + 1) % 2 == 1)

/-- The change to BATTERY (R167): the main-domain-off mark is set, the slots keep their inputs' debounced states (R171), and
the working state is lost. A main domain held by the reset line stays held (R176). -/
def State.toBattery (s : State) : State :=
  let lv := s.coverLevels
  ((s.onBackup fun b =>
    { b with
      power := .battery
      limitExpired := false
      domain := if b.domain = .held then .held else .off
      retained := { b.retained with
        offMark := true
        cover := { b.retained.cover with isOpen := lv.1 }
        term := { b.retained.term with isOpen := lv.2 } } }).useFree 2).loseWorking

/-- The switch-off that waits for the permitted writes to drain (R167). -/
def State.settle (s : State) : State :=
  if s.holdup && s.backup.limitExpired && s.drained then s.toBattery else s

/-- The first write in flight of the kind asked for completes: it is stored, its effect comes about, the writes that waited
for it may start; with none of that kind in flight nothing happens. -/
def State.complete (sel : Purpose → Bool) (effect : Write → State → State) (s : State) : State :=
  match takeFlight sel s.store.flight with
  | none => s
  | some (w, rest) => (effect w (s.onStore fun st => { st with flight := rest }.commit w)).pump.settle

/-! ### The hold set and the rest states (R101, R102, R106) -/

/-- The acknowledgement requirement in force (R113). -/
def State.ackRequired (s : State) : Bool := s.config.switch.ack

/-- An operation begins (R108): the attempt count is 1, the tamper unit is handed its start (R145). -/
def State.beginOperation (target : SwitchState) (s : State) : State :=
  ((s.onSw fun w => { w with state := target, attempt := 1, progress := .waiting }).onTam fun t =>
    { t with suspended := true }).pend .switch

/-- A rest state is entered. -/
def State.toRest (target : SwitchState) (s : State) : State :=
  (s.onSw fun w => { w with state := target, attempt := 0, progress := .idle }).pend .switch

/-- The judgement of a rest state against the hold set (R106; R115 for ARMED when the requirement has been withdrawn). While
the position is being sensed at a start there is no state to judge yet (R119). -/
def State.judgeRest (s : State) : State :=
  if s.sw.sensing = some .atStart then s
  else match s.sw.state with
    | .closed => if !s.sw.record.holds.isEmpty && s.mains then s.beginOperation .opening else s
    | .opened =>
      if s.sw.record.holds.isEmpty then
        if s.ackRequired then s.toRest .armed else if s.mains then s.beginOperation .closing else s
      else s
    | .armed =>
      if s.sw.record.holds.isEmpty then
        if !s.ackRequired && s.mains then s.beginOperation .closing else s
      else s.toRest .opened
    | _ => s

/-- Additions of these reasons are ignored in COMMISSIONING (R102). -/
def Hold.notInCommissioning : Hold → Bool
  | .credit | .load | .tamper => true
  | _ => false

/-- An owner hands over an addition (present) or a removal of its reason (R101). -/
def State.handHold (r : Hold) (present : Bool) (s : State) : State :=
  if present && s.life.state == .commissioning && Hold.notInCommissioning r then s
  else if s.sw.record.holds.has r = present then s
  else (((s.onSw fun w => { w with record := { w.record with holds := w.record.holds.put r present } }).judgeRest).request
    .switchRecord).pend .switch

end Sys2Proof.Machine
end

