-- ==== Sys2Proof/Machine/Evidence.lean ====
section
/-! DEFINITION. The tamper unit: the log and its snapshots, onsets and ends of the classes, the TAMPER hold and the penalty
state, and the conditions judged from block summaries (chapter 7). -/

namespace Sys2Proof.Machine

/-- A final record is CLEARED or ENDED (R158). -/
def EvRecord.final (r : EvRecord) : Bool := r.state == .cleared || r.state == .ended

/-- A latching class is latched exactly when the log holds an OPEN record of it (R153). -/
def isLatched (log : List EvRecord) (c : EvClass) : Bool := log.any fun r => r.cls == c && r.state == .opened

def State.latched (s : State) : List EvClass := allClasses.filter (isLatched s.tam.evidence.log)

/-- The first open (R160): the OPEN record nearest the oldest end. -/
def State.firstOpen (s : State) : Option EvRecord := s.tam.evidence.log.find? fun r => r.state == .opened

/-- The penalty state (R155). -/
def State.penalty (s : State) : Bool := s.inService && s.latched.any fun c => (s.policy c).penalty

/-- The TAMPER hold is due (R155). A latched class counts by its disconnect choice alone, as in the penalty state, whether or
not its detect choice has been turned off since (DESIGN CHOICE, log entry 47). -/
def State.tamperDue (s : State) : Bool := s.latched.any fun c => (s.policy c).disconnect

/-- The judgement of the TAMPER hold (R155): nothing is handed over in COMMISSIONING or HALTED, nor before a start's end, where a
latch set in the course of the start is judged with the others (DESIGN CHOICE, log entry 63). -/
def State.judgeTamper (s : State) : State :=
  if s.running && s.inService then s.handHold .tamper s.tamperDue else s

/-! ### The log and the slots (R159, R162) -/

/-- The oldest final record and the log without it. -/
def removeOldestFinal : List EvRecord → Option (EvRecord × List EvRecord)
  | [] => none
  | r :: rest =>
    if r.final then some (r, rest) else (removeOldestFinal rest).map fun p => (p.1, r :: p.2)

/-- A full log loses its oldest final record, and a slot that record names is freed with it (R159). -/
def makeRoom (log : List EvRecord) (slots : List (Option Slot)) : List EvRecord × List (Option Slot) :=
  if log.length < 48 then (log, slots)
  else match removeOldestFinal log with
    | none => (log, slots)
    | some (r, rest) =>
      (rest, match r.slot with
        | some k => slots.set k none
        | none => slots)

/-- The oldest final record that names a slot: the slot, and the log with that record's slot field absent (R162). -/
def takeFromFinal : List EvRecord → Option (Nat × List EvRecord)
  | [] => none
  | r :: rest =>
    match r.final, r.slot with
    | true, some k => some (k, { r with slot := none } :: rest)
    | _, _ => (takeFromFinal rest).map fun p => (p.1, r :: p.2)

/-- The lowest-numbered free slot. -/
def freeSlot (slots : List (Option Slot)) : Option Nat := slots.findIdx? Option.isNone

/-- The slot a new record gets, and the log after a slot has been taken from another record (R162). -/
def chooseSlot (log : List EvRecord) (slots : List (Option Slot)) : Option (Nat × List EvRecord) :=
  match freeSlot slots with
  | some k => some (k, log)
  | none => takeFromFinal log

/-- The evidence number after n (R159). -/
def nextNumber (n : Nat) : Nat := if n = 4294967295 then 1 else n + 1

/-- A record is appended under the next number, with a slot when one is sought and found: the new log, the new slots, and
whether a slot was allocated. -/
def logAppend (r : EvRecord) (seek : Bool) (trace : List Summary) (ev : EvidenceRec) (slots : List (Option Slot)) :
    EvidenceRec × List (Option Slot) × Bool :=
  let room := makeRoom ev.log slots
  match if seek then chooseSlot room.1 room.2 else none with
  | some (k, log) =>
    (⟨log ++ [{ r with number := ev.next, slot := some k }], nextNumber ev.next⟩,
     room.2.set k (some ⟨ev.next, trace, [], true⟩), true)
  | none => (⟨room.1 ++ [{ r with number := ev.next, slot := none }], nextNumber ev.next⟩, room.2, false)

/-- The EVIDENCE notice for a class with the notify policy (R160). -/
def State.notifyEvidence (c : EvClass) (s : State) : State := if (s.policy c).notify then s.pend .evidence else s

/-- A record is appended (R159); a slot is sought for a class with the snapshot policy, in MAINS, unless the record comes
from a cover slot of the backup domain (R140, R162). The snapshot record is written with the evidence record when a slot is
allocated; a slot freed by the removal of its record brings no write of it (DESIGN CHOICE, log entry 46). -/
def State.appendRecord (r : EvRecord) (s : State) : State :=
  let seek := (s.policy r.cls).snapshot && r.cls.snapshotable && s.mains && !r.onBattery
  let x := logAppend r seek s.reg.trace s.tam.evidence s.tam.slots
  ((s.onTam fun t => { t with evidence := x.1, slots := x.2.1 }).request (.evidenceLog true x.2.2)).notifyEvidence r.cls

/-- A record with no field beyond its class, state and onset time. -/
def blankRecord (c : EvClass) (st : EvState) (onset : Option Nat) : EvRecord :=
  { number := 0, cls := c, state := st, onset := onset, finish := none, phase := none, value := none, repeats := 0,
    onBattery := false, slot := none, clearSeq := none, clearTime := none }

/-- The records of the log are changed in place and the write is requested. -/
def State.editLog (f : EvRecord → EvRecord) (s : State) : State :=
  (s.onTam fun t => { t with evidence := { t.evidence with log := t.evidence.log.map f } }).request (.evidenceLog true false)

/-- A repeat on the OPEN record of a class (R153). -/
def EvRecord.repeated (c : EvClass) (times : Nat) (r : EvRecord) : EvRecord :=
  if r.cls = c ∧ r.state = .opened then { r with repeats := saturate 65535 (r.repeats + times), finish := none } else r

/-! ### Latching classes (R153, R157) -/

/-- An excused onset in a service window: a CLEARED record with the window's sequence (R157). -/
def State.recordExcused (a : Arrival) (s : State) : State :=
  s.appendRecord { blankRecord a.cls .cleared a.time with clearSeq := s.life.window, clearTime := a.time }

/-- An onset of a latching class is taken (R153): excused, or the latch is set, or a repeat is counted. The life state is judged
at the moment the onset is taken, so that a cover onset held back and released in a service window is excused (DESIGN CHOICE,
log entry 45). -/
def State.recordOnset (a : Arrival) (s : State) : State :=
  if !(s.policy a.cls).detect then s
  else if a.cls.isCover && s.life.state == .serviceWindow then s.recordExcused a
  else if isLatched s.tam.evidence.log a.cls then
    (s.editLog (EvRecord.repeated a.cls 1)).notifyEvidence a.cls
  else (s.appendRecord { blankRecord a.cls .opened a.time with phase := a.phase, value := a.value }).judgeTamper

/-- The end time is noted on the OPEN record (R153). -/
def EvRecord.noteEnd (c : EvClass) (time : Option Nat) (r : EvRecord) : EvRecord :=
  if r.cls = c ∧ r.state = .opened then { r with finish := time } else r

def State.recordEnd (a : Arrival) (s : State) : State :=
  if isLatched s.tam.evidence.log a.cls then s.editLog (EvRecord.noteEnd a.cls a.time) else s

def State.takeArrival (s : State) (a : Arrival) : State := if a.isOnset then s.recordOnset a else s.recordEnd a

/-- Whether an arrival is held back: during an entry, onsets of latching classes and what follows them (R181); during a
clearing, the arrivals of the classes to be cleared (R156). -/
def Tamper.holdsBack (t : Tamper) (a : Arrival) : Bool :=
  t.clearing.contains a.cls ||
    (t.entryHold && a.cls.latching && (a.isOnset || t.heldBack.any fun h => h.cls == a.cls))

def State.arrive (a : Arrival) (s : State) : State :=
  if s.tam.holdsBack a then s.onTam fun t => { t with heldBack := t.heldBack ++ [a] } else s.takeArrival a

/-- An opening counted in a cover slot (R171). -/
def CoverSlot.bump (c : CoverSlot) (time : Option Nat) : CoverSlot :=
  { c with count := saturate 255 (c.count + 1), first := if c.count = 0 then time else c.first }

/-- In HOLDUP the cover slots count each cover onset that the tamper unit takes (R171), at the time of its arrival. -/
def State.countTaken (a : Arrival) (s : State) : State :=
  if s.holdup && a.isOnset then
    s.onBackup fun b => { b with retained := match a.cls with
      | .coverOpen => { b.retained with cover := b.retained.cover.bump a.time }
      | .terminalOpen => { b.retained with term := b.retained.term.bump a.time }
      | _ => b.retained }
  else s

/-- The arrivals held back are taken in the order they arrived. -/
def State.releaseHeld (s : State) : State :=
  s.tam.heldBack.foldl (fun x a => (x.countTaken a).takeArrival a)
    (s.onTam fun t => { t with clearing := [], entryHold := false, heldBack := [] })

def State.latchOnset (c : EvClass) (phase : Option Nat) (value : Option Int) (s : State) : State :=
  s.arrive ⟨c, true, s.time, phase, value⟩

def State.latchEnd (c : EvClass) (s : State) : State := s.arrive ⟨c, false, s.time, none, none⟩

/-- The onset of a cover class, counted unless it is held back (R171). -/
def State.coverOnset (which : Cover) (s : State) : State :=
  let a : Arrival := ⟨which.cls, true, s.time, none, none⟩
  (if s.tam.holdsBack a then s else s.countTaken a).arrive a

/-! ### Following and instantaneous classes (R154, R150) -/

def State.followOnset (c : EvClass) (value : Option Int) (s : State) : State :=
  if (s.policy c).detect then s.appendRecord { blankRecord c .active s.time with value := value } else s

/-- An ACTIVE record becomes ENDED. -/
def EvRecord.endActive (c : EvClass) (time : Option Nat) (r : EvRecord) : EvRecord :=
  if r.cls = c ∧ r.state = .active then { r with state := .ended, finish := time } else r

def State.followEnd (c : EvClass) (s : State) : State :=
  if s.tam.evidence.log.any (fun r => r.cls == c && r.state == .active) then
    (s.editLog (EvRecord.endActive c s.time)).notifyEvidence c
  else s

/-- A CLOCK-STEP event (R150): outcome 0 TAKEN, 1 FROM-INVALID, 2 REFUSED. -/
def State.clockStep (prior : Option Nat) (requested : Nat) (outcome : Nat) (s : State) : State :=
  s.appendRecord { blankRecord .clockStep .ended prior with finish := some requested, value := some (outcome : Int) }

/-! ### Conditions of CLOSE-COMMISSION (R165) -/

/-- Some phase's flag is present. -/
def anyPresent (t : Tri Persist) : Bool := (t.map Persist.present).any

/-- The condition of some latching class is present. -/
def Tamper.latchingCondition (t : Tamper) : Bool :=
  t.coverOpen || t.termOpen || t.magnet || anyPresent t.reverse || t.residual.present || anyPresent t.voltageCut ||
    t.bypass.present || t.codeAttack || t.linkSilence

/-- The condition of a latching class (R156). -/
def Tamper.condition (t : Tamper) : EvClass → Bool
  | .coverOpen => t.coverOpen
  | .terminalOpen => t.termOpen
  | .magnet => t.magnet
  | .reverse => anyPresent t.reverse
  | .residual => t.residual.present
  | .voltageCut => anyPresent t.voltageCut
  | .relayBypass => t.bypass.present
  | .codeAttack => t.codeAttack
  | .linkSilence => t.linkSilence
  | _ => false

/-! ### Conditions judged from a block summary (R142 to R145) -/

/-- One block's judgement of a flag: a block toward the change adds to the count, any other sets it to 0; at the limit the
flag changes and the count becomes 0. -/
def Persist.judge (limit : Nat) (toward : Bool) (p : Persist) : Persist :=
  if toward then
    if p.count + 1 < limit then { p with count := p.count + 1 } else ⟨!p.present, 0⟩
  else { p with count := 0 }

/-- A flag with one test: toward presence a block shows it, toward absence it does not. -/
def Persist.judgeShows (limit : Nat) (p : Persist) (shows_ : Bool) : Persist := p.judge limit (shows_ != p.present)

/-- The lowest-numbered phase whose flag became present, 1..3. -/
def firstRaised (before after : Tri Persist) : Option Nat :=
  if !before.p1.present && after.p1.present then some 1
  else if !before.p2.present && after.p2.present then some 2
  else if !before.p3.present && after.p3.present then some 3
  else none

/-- The phase of a number 1..3. -/
def Tri.phase {α : Type} (t : Tri α) : Nat → α
  | 2 => t.p2
  | 3 => t.p3
  | _ => t.p1

/-- The onset or end a condition's change brings: its change and the phase and value of an onset. -/
def State.classChange (c : EvClass) (before after : Bool) (phase : Option Nat) (value : Int) (s : State) : State :=
  if !before && after then s.latchOnset c phase (some value)
  else if before && !after then s.latchEnd c
  else s

/-- A block shows reverse on a phase (R142). -/
def showsReverse (m : MeasureSettings) (p : PhaseSummary) : Bool := p.reverse && m.reverseMin ≤ p.energy

def State.judgeReverse (sum : Summary) (s : State) : State :=
  let before := s.tam.reverse
  let after := before.zip (Persist.judgeShows 32) (sum.phases.map (showsReverse s.config.measure))
  let ph := firstRaised before after
  (s.onTam fun t => { t with reverse := after }).classChange .reverse (anyPresent before) (anyPresent after) ph
    (Tri.phase sum.phases (ph.getD 1)).irms

/-- R143: begins above the threshold, ends below 80 % of it. -/
def State.judgeResidual (sum : Summary) (s : State) : State :=
  let thr := s.config.measure.residualThreshold
  let before := s.tam.residual
  let toward : Bool := if before.present then sum.residual * 5 < thr * 4 else thr < sum.residual
  let after := before.judge 16 toward
  (s.onTam fun t => { t with residual := after }).classChange .residual before.present after.present none sum.residual

/-- A block shows a cut on a phase (R144). -/
def showsCut (m : MeasureSettings) (p : PhaseSummary) : Bool := p.vrms < m.presence && 200 < p.irms

def State.judgeCut (sum : Summary) (s : State) : State :=
  let before := s.tam.voltageCut
  let after := before.zip (Persist.judgeShows 16) (sum.phases.map (showsCut s.config.measure))
  let ph := firstRaised before after
  (s.onTam fun t => { t with voltageCut := after }).classChange .voltageCut (anyPresent before) (anyPresent after) ph
    (Tri.phase sum.phases (ph.getD 1)).vrms

/-- The phase with the largest Irms, the lowest-numbered on a tie (R145). -/
def largestIrms (sum : Summary) : Nat :=
  let a := sum.phases.p1.irms
  let b := sum.phases.p2.irms
  let c := sum.phases.p3.irms
  if b ≤ a && c ≤ a then 1 else if c ≤ b then 2 else 3

/-- A block shows bypass (R145), counting not being suspended. -/
def showsBypass (m : MeasureSettings) (ls : Tri Bool) (sum : Summary) : Bool :=
  (sum.switch == .opened || sum.switch == .armed) &&
    (ls.any || (sum.phases.map fun p => decide (m.bypassThreshold < p.irms)).any)

def State.judgeBypass (sum : Summary) (s : State) : State :=
  if s.tam.suspended then s
  else
    let before := s.tam.bypass
    let after := before.judgeShows 8 (showsBypass s.config.measure s.sw.ls sum)
    let ph := largestIrms sum
    (s.onTam fun t => { t with bypass := after }).classChange .relayBypass before.present after.present (some ph)
      (Tri.phase sum.phases ph).irms

/-- A summary joins a COLLECTING slot, which is COMPLETE at eight post-blocks (R163). -/
def Slot.collect (sum : Summary) (sl : Slot) : Slot :=
  if sl.collecting then { sl with post := sl.post ++ [sum], collecting := decide (sl.post.length + 1 < 8) } else sl

/-- Some COLLECTING slot completes with this summary. -/
def completes (slots : List (Option Slot)) : Bool :=
  slots.any fun o => match o with
    | some sl => sl.collecting && decide (8 ≤ sl.post.length + 1)
    | none => false

def State.collectPost (sum : Summary) (s : State) : State :=
  let s' := s.onTam fun t => { t with slots := t.slots.map (Option.map (Slot.collect sum)) }
  if completes s.tam.slots then s'.request (.evidenceLog false true) else s'

/-- The tamper unit takes a summary (R20): post-blocks of the slots taken before it, then the block-based conditions. Onsets of
several classes at one block are recorded in the order REVERSE, RESIDUAL, VOLTAGE-CUT, RELAY-BYPASS (DESIGN CHOICE, log entry
38); an opening that one of them begins suspends the RELAY-BYPASS counting for this block already (DESIGN CHOICE, log entry 55). -/
def State.tamperTakes (sum : Summary) (s : State) : State :=
  ((((s.collectPost sum).judgeReverse sum).judgeResidual sum).judgeCut sum).judgeBypass sum

end Sys2Proof.Machine
end

