-- ==== Sys2Proof/Machine/Switching.lean ====
section
/-! DEFINITION. The switch controller's operations and position sensing: attempts, confirmation, failure, JAMMED
(sections 5.3, 5.6 and 5.7). -/

namespace Sys2Proof.Machine

/-- The phases whose last block Vrms was at or above the presence threshold (R109). -/
def State.presentPhases (s : State) : Tri Bool :=
  match s.reg.last with
  | some sum => sum.phases.map fun p => decide (s.config.measure.presence ≤ p.vrms)
  | none => .all3 false

/-- The confirming condition (R109): all LS absent for an opening; for a closing LS present on every needed phase, or on some
phase when none is needed. -/
def confirms (state : SwitchState) (need ls : Tri Bool) : Bool :=
  match state with
  | .opening => !ls.any
  | _ => if need.any then (need.zip (fun n l => !n || l) ls).every else ls.any

/-- The switch leaves JAMMED (R116): RELAY-JAMMED and RELAY-FAULT end. -/
def State.leaveJammed (s : State) : State :=
  ((s.endFault .relayJammed).onTam fun t => { t with relayFault := false }).followEnd .relayFault

/-- The third attempt has failed (R116). -/
def State.enterJammed (s : State) : State :=
  ((((s.onSw fun w => { w with state := .jammed, attempt := 0, progress := .idle }).raiseFault .relayJammed).onTam fun t =>
    { t with relayFault := true }).followOnset .relayFault none).pend .switch

/-- An attempt fails (R110): the next one awaits its pulse, or the operation ends in JAMMED. -/
def State.attemptFails (s : State) : State :=
  if s.sw.attempt < 3 then
    (s.onSw fun w => { w with attempt := w.attempt + 1, progress := .waiting }).pend .switch
  else s.enterJammed

/-- The operate time of a confirmed operation is kept as the last, and as the largest when it exceeds it (R111). -/
def SwitchRec.withTime (r : SwitchRec) (opening : Bool) (time : Nat) : SwitchRec :=
  if opening then { r with openLast := time, openMax := max r.openMax time }
  else { r with closeLast := time, closeMax := max r.closeMax time }

/-- The judgement of a confirmed operation against the hold set at completion (R107). In HOLDUP no operation begins: the rest
state of the confirmed position is taken. -/
def State.judgeCompletion (opening : Bool) (s : State) : State :=
  if opening then
    if !s.sw.record.holds.isEmpty then s.toRest .opened
    else if s.ackRequired then s.toRest .armed
    else if s.mains then s.beginOperation .closing else s.toRest .opened
  else
    if s.sw.record.holds.isEmpty then s.toRest .closed
    else if s.mains then s.beginOperation .opening else s.toRest .closed

/-- An operation completes (R111), at the later of confirmation and pulse end. In HOLDUP the write of its time is deferred. -/
def State.completeOperation (time : Nat) (s : State) : State :=
  let opening := s.sw.state == .opening
  ((s.onSw fun w => { w with
    record := w.record.withTime opening time, attempt := 0, progress := .idle
    timesDue := w.timesDue || s.holdup }).judgeCompletion opening).request .switchRecord

/-- The state that a sensed position gives with the hold set as it stands (R119), though a pulse of an abandoned operation is still
running (DESIGN CHOICE, log entry 61). -/
def State.setSensed (s : State) : State :=
  let s' := s.onSw fun w => { w with sensing := none }
  if s.sw.ls.any then
    if s.sw.record.holds.isEmpty then s'.toRest .closed else s'.beginOperation .opening
  else if s.sw.record.holds.isEmpty then
    if s.ackRequired then s'.toRest .armed else s'.beginOperation .closing
  else s'.toRest .opened

/-- The reply body of the switch requests (R122, R204). -/
def State.switchBody (s : State) : List Byte := [s.sw.state.byte, s.sw.record.holds.byte]

/-- The change to HOLDUP (R112, R117, R118): an unconfirmed operation is abandoned; sensing is abandoned, and a retry that was
sensing is refused POWER. -/
def State.switchHoldup (s : State) : State :=
  let s1 := match s.sw.progress with
    | .waiting | .blanking _ | .watching _ _ _ => s.onSw fun w => { w with progress := .abandoned }
    | _ => s
  match s.sw.sensing with
  | some .forRetry => (s1.onSw fun w => { w with sensing := none }).answer .power s1.switchBody
  | some .atDip => s1.onSw fun w => { w with sensing := none, progress := .abandoned }
  | _ => s1

/-- The return to MAINS at a dip (R120): position sensing after an abandoned operation, else the judgement of a rest state. -/
def State.switchDip (s : State) : State :=
  if s.sw.progress = .abandoned then s.onSw fun w => { w with sensing := some .atDip } else s.judgeRest

end Sys2Proof.Machine
end

