-- ==== Sys2Proof/Machine/Accounting.lean ====
section
/-! DEFINITION. The account unit and the calendar unit: the credit test and condition, charging, the daily charge, the code
effects, the friendly state, the day-boundary comparison and the back-off (chapters 2, 3 and 6). -/

namespace Sys2Proof.Machine

/-! ### The floor, the credit test and the credit condition (R59, R63, R64) -/

/-- The floor (R59). -/
def State.floor (s : State) : Int :=
  if s.store.recs.account.emergency then -(s.config.account.emergency : Int) else 0

/-- The credit test finds the CREDIT hold due (R59). -/
def State.creditDue (s : State) : Bool :=
  decide (s.store.recs.account.balance ≤ s.floor) &&
    !(s.cal.friendly && decide (s.floor - s.config.account.friendlyCap < s.store.recs.account.balance))

/-- The first condition of R63 that applies. -/
def State.conditionNow (s : State) : CreditCondition :=
  if s.creditDue then .exhausted
  else if s.store.recs.account.balance ≤ s.floor then .friendly
  else if s.store.recs.account.emergency then .emergency
  else if (s.config.account.low : Int) < s.store.recs.account.balance then .ok
  else .low

/-- The credit condition is judged (R64): the CREDIT notice on a change, or always at a start's end and at entry. -/
def State.judgeCondition (always : Bool) (s : State) : State :=
  let c := s.conditionNow
  if s.acct.condition = some c && !always then s
  else (s.onAcct fun a => { a with condition := some c }).pend .credit

/-- The credit test (R59) and the condition (R64): CREDIT is handed over in IN-SERVICE and SERVICE-WINDOW only; in HALTED the
test is made at a start's end only; with the account record failed it is not made (R73). -/
def State.creditTest (always : Bool) (s : State) : State :=
  if !s.sound .account || (s.life.state == .halted && !always) then s
  else (if s.inService then s.handHold .credit s.creditDue else s).judgeCondition always

/-! ### Charging (R49, R52, R56, R57) -/

/-- An energy register wraps at 10^9 Wh (R49). -/
def wrapAdd (a n : Nat) : Nat := (a + n) % 1000000000

/-- The pending counts go into the reverse and substituted registers (R52). -/
def AccountRec.withPending (r : AccountRec) (a : Account) : AccountRec :=
  { r with
    reverse := r.reverse.zip wrapAdd a.pendingReverse
    substituted := wrapAdd r.substituted a.pendingSubstituted }

/-- A quantum counted in the total and in its band's register (R56, R57). -/
def AccountRec.count (r : AccountRec) (band : Nat) : AccountRec :=
  { r with total := wrapAdd r.total 1, bands := r.bands.modify band (wrapAdd · 1) }

/-- A debit taken from the balance, what the balance cannot give going to the debt (R56). -/
def AccountRec.takeDebit (r : AccountRec) (d : Nat) : AccountRec :=
  if r.balance - d < -99999999 then
    { r with
      balance := -99999999
      debt := saturate 999999999 (r.debt + (-99999999 - (r.balance - d)).toNat) }
  else { r with balance := r.balance - d }

/-- A quantum charged at the price of its band (R56). -/
def AccountRec.charge (r : AccountRec) (band price : Nat) : AccountRec :=
  let c' := r.residue + price
  let d := c' / 1000
  let r1 := (r.count band).takeDebit d
  { r1 with
    residue := c' % 1000
    dayImport := saturate 999999999 (r.dayImport + 1)
    dayCharged := saturate 999999999 (r.dayCharged + d)
    totalCharged := saturate 999999999999 (r.totalCharged + d) }

/-! ### Day boundaries (R66) -/

/-- One day's daily charge against the floor. -/
def AccountRec.daily (r : AccountRec) (floor : Int) (charge : Nat) : AccountRec :=
  let r1 := { r with totalCharged := saturate 999999999999 (r.totalCharged + charge) }
  if floor ≤ r.balance - charge then { r1 with balance := r.balance - charge }
  else
    let taken := (max 0 (r.balance - floor)).toNat
    { r1 with balance := r.balance - taken, debt := saturate 999999999 (r.debt + (charge - taken)) }

/-- n days' daily charges. -/
def AccountRec.dailies (floor : Int) (charge : Nat) : Nat → AccountRec → AccountRec
  | 0, r => r
  | n + 1, r => AccountRec.dailies floor charge n (r.daily floor charge)

/-- The day records of a boundary: the first carries the open day's fields, the others the daily charge alone. -/
def dayRecords (r : AccountRec) (charge first : Nat) : Nat → List DayRecord
  | 0 => []
  | n + 1 =>
    ⟨first, r.dayImport, saturate 999999999 (r.dayCharged + charge), r.dayCredited⟩ ::
      (List.range n).map fun k => ⟨first + 1 + k, 0, charge, 0⟩

/-- The account record after a boundary of n days: the charges taken, the open-day fields 0. -/
def AccountRec.closeDays (r : AccountRec) (floor : Int) (charge n : Nat) : AccountRec :=
  { AccountRec.dailies floor charge n r with dayImport := 0, dayCharged := 0, dayCredited := 0 }

/-! ### Code effects (R69, R70) -/

/-- The recovery of a CREDIT code of amount A (R69). -/
def AccountRec.recovery (r : AccountRec) (rate amount : Nat) : Nat := min r.debt (amount * rate / 100)

/-- A CREDIT code's effect, none when it does not fit (R69). -/
def AccountRec.credit (r : AccountRec) (settings : AccountSettings) (amount : Nat) : Option AccountRec :=
  let rc := r.recovery settings.rate amount
  let b : Int := r.balance + amount - rc
  if (settings.ceiling : Int) < b then none
  else some { r with
    balance := b
    debt := r.debt - rc
    emergency := r.emergency && decide (b < 0)
    dayCredited := saturate 999999999 (r.dayCredited + amount)
    totalCredited := saturate 999999999999 (r.totalCredited + amount) }

/-- A SET-DEBT code's effect, none when it does not fit (R70). -/
def AccountRec.setDebt (r : AccountRec) (amount : Nat) : Option AccountRec :=
  if 999999999 < r.debt + amount then none else some { r with debt := r.debt + amount }

/-! ### The calendar unit (R40, R42, R53) -/

/-- The friendly state is evaluated (R40), and a change is handed to the account unit. -/
def State.evalFriendly (s : State) : State :=
  let now := s.clockValid && s.tariff.friendlyAt s.clock
  if now = s.cal.friendly then s else (s.onCal fun c => { c with friendly := now }).creditTest false

/-- A boundary's place: immediately ahead of the oldest QUANTA entry of a day later than the last processed day (R53). -/
def placeBoundary (e : Entry) (lastDay : Nat) : List Entry → List Entry
  | [] => [e]
  | .quanta (some t) n :: rest =>
    if lastDay < dayOf t then e :: .quanta (some t) n :: rest
    else .quanta (some t) n :: placeBoundary e lastDay rest
  | q :: rest => q :: placeBoundary e lastDay rest

/-- The day-boundary comparison (R42), in a start too. -/
def State.compareDay (s : State) : State :=
  if s.alive && s.mains && s.inService && s.clockValid && !s.cal.outstanding then
    let c := dayOf s.clock
    match s.store.recs.days.lastDay with
    | none =>
      (s.onAcct fun a => { a with queue := a.queue ++ [.dayAdoption c] }).onCal fun k => { k with outstanding := true }
    | some p =>
      if p < c then
        (s.onAcct fun a => { a with
          queue := placeBoundary (.dayBoundary p (crossedCount c p) c) p a.queue }).onCal fun k =>
            { k with outstanding := true }
      else s
  else s

/-! ### The back-off (R127, R128) -/

/-- A back-off end more than its period ahead of the clock is brought in (R128), in MAINS. -/
def State.bringInBackoff (s : State) : State :=
  match s.sup.supply.backoff with
  | some b =>
    if s.mains && decide (s.clock + b.period < b.until_) then
      (s.onSup fun u => { u with supply := { u.supply with backoff := some ⟨s.clock + b.period, b.period⟩ } }).request
        .supplyRecord
    else s
  | none => s

/-- A clock value kept as an end is reached (R91, R128). -/
def State.reached (s : State) (t : Nat) : Bool := decide (t ≤ s.clock) || s.clock == maxClock

/-- The back-off period of a trip from the list as the trip left it (R127). -/
def backoffPeriod (trips : List Nat) (clock : Nat) : Nat :=
  if 3 ≤ (trips.filter fun t => clock ≤ t + 3600).length then 1800 else 30

/-! ### The service window (R183) -/

/-- A service window ends (R183): IN-SERVICE, no sequence, the LIFE notice, the life record write, and the onset of each
cover class whose condition is present, the main cover's first (DESIGN CHOICE, log entry 54). -/
def State.endWindow (s : State) : State :=
  let s1 := ((s.onLife fun v => { v with state := .inService, window := none, timer := none }).pend .life).request .lifeRecord
  let s2 := if s.tam.coverOpen then s1.coverOnset .main else s1
  if s.tam.termOpen then s2.coverOnset .terminal else s2

end Sys2Proof.Machine
end

