-- ==== Sys2Proof/Machine/Operands.lean ====
section
/-! DEFINITION. The forms of the requests' payloads: their lengths (R195, R203, R204), the settings and tariff sections as
sent (R200), and their clamps, fixed values and relations (R45, R152, R186, R187). -/

namespace Sys2Proof.Machine

/-- The section a selector byte names (R186). -/
def sectionOf (sel : Byte) : Option ConfigSection :=
  match sel.toNat with
  | 0 => some .cal | 1 => some .measure | 2 => some .account | 3 => some .switch | 4 => some .thermal | 5 => some .tamper
  | 6 => some .link | _ => none

/-- The lengths a section's contents may have; SWITCH with or without the load limit field (R204). -/
def ConfigSection.lengths : ConfigSection → List Nat
  | .cal => [33] | .measure => [17] | .account => [22] | .switch => [10, 7] | .thermal => [44] | .tamper => [13]
  | .link => [2]

/-- The length of a tariff section's contents agrees with the counts it carries (R204). -/
def tariffLengthOk (sel : Byte) (c : List Byte) : Bool :=
  match sel.toNat with
  | 0 => c.length == 26
  | 1 | 2 => 1 ≤ c.length && c.length == 1 + 3 * field c 0 1
  | 3 => 2 ≤ c.length && c.length == 2 + 4 * field c 1 1
  | 4 =>
    let a := field c 0 1
    2 + 4 * a ≤ c.length && c.length == 2 + 4 * a + 4 * field c (1 + 4 * a) 1
  | _ => true

/-- Whether a payload has the length its request's row gives; none when the kind names no request (R195). -/
def lengthOk (kind : Byte) (p : List Byte) : Option Bool :=
  match kind.toNat with
  | 0x01 | 0x03 | 0x04 | 0x05 | 0x09 | 0x0C | 0x12 | 0x13 | 0x22 | 0x23 | 0x26 | 0x29 | 0x2A | 0x2B => some (p.length == 0)
  | 0x02 | 0x06 | 0x0B | 0x10 | 0x21 => some (p.length == 1)
  | 0x08 | 0x0A => some (p.length == 2)
  | 0x07 | 0x20 => some (p.length == 4)
  | 0x0D => some (p.length ≤ 248)
  | 0x11 => some (p.length == 20)
  | 0x25 => some (p.length == 6)
  | 0x28 => some (p.length == 19)
  | 0x24 =>
    match p with
    | [] => some false
    | sel :: c => some (tariffLengthOk sel c)
  | 0x27 =>
    match p with
    | [] => some false
    | sel :: c => some (match sectionOf sel with
      | some sec => (ConfigSection.lengths sec).contains c.length
      | none => true)
  | _ => none

/-! ### Configuration sections (R187) -/

/-- Nine code and temperature pairs from an offset on (R200). -/
def tableField (c : List Byte) (off : Nat) : List (Nat × Int) :=
  (List.range 9).map fun k => (field c (off + 4 * k) 2, signedField c (off + 4 * k + 2) 2)

/-- One class's choices: bits 0 to 4 of its byte (R200). -/
def policyByte (b : Byte) : ClassPolicy :=
  ⟨b.getLsbD 0, b.getLsbD 1, b.getLsbD 2, b.getLsbD 3, b.getLsbD 4⟩

/-- A section's contents as sent, before any clamp. -/
def readSection (sec : ConfigSection) (c : List Byte) : SectionValue :=
  match sec with
  | .cal => .cal
    { g := ⟨field c 0 3, field c 3 3, field c 6 3⟩, kV := ⟨field c 9 3, field c 12 3, field c 15 3⟩
      kI := ⟨field c 18 3, field c 21 3, field c 24 3⟩, kN := field c 27 3, kR := field c 30 3 }
  | .measure => .measure
    { eSub := field c 0 3, vNom := field c 3 2, residualBilling := flagField c 5, presence := field c 6 2
      reverseMin := field c 8 3, residualThreshold := field c 11 3, bypassThreshold := field c 14 3 }
  | .account => .account
    { opening := field c 0 4, ceiling := field c 4 4, low := field c 8 4, emergency := field c 12 3
      friendlyCap := field c 15 3, daily := field c 18 3, rate := field c 21 1 }
  | .switch =>
    if c.length = 10 then .switch
      { ack := flagField c 0, pulse := field c 1 1, blanking := field c 2 1, window := field c 3 2, limit := field c 5 3
        persistence := field c 8 2 } true
    else .switch
      { ack := flagField c 0, pulse := field c 1 1, blanking := field c 2 1, window := field c 3 2, limit := 0
        persistence := field c 5 2 } false
  | .thermal => .thermal
    { averaging := field c 0 1, table := tableField c 1, alarm := signedField c 37 2, trip := signedField c 39 2
      hysteresis := field c 41 1, backup := field c 42 2 }
  | .tamper => .tamper (c.map policyByte)
  | .link => .link (field c 0 2)

/-- The fixed values of TAMPER (R152): disconnect and penalty no for classes 10..13; detect yes and snapshot no for 12, 13. -/
def fixPolicy (number : Nat) (p : ClassPolicy) : ClassPolicy :=
  let p1 : ClassPolicy := if 10 ≤ number then { p with disconnect := false, penalty := false } else p
  if 12 ≤ number then { p1 with detect := true, snapshot := false } else p1

/-- The policies of a list of classes numbered from n on, with their fixed values. -/
def fixPolicies : Nat → List ClassPolicy → List ClassPolicy
  | _, [] => []
  | n, p :: rest => fixPolicy n p :: fixPolicies (n + 1) rest

/-- The silence limit: 1..9 become 10, above 3,600 become 3,600 (R186). -/
def clampSilence (v : Nat) : Nat := if 1 ≤ v ∧ v ≤ 9 then 10 else min 3600 v

/-- Every numeric field clamped to the nearer end of its range, and TAMPER's fixed values stored (R187). -/
def clampSection : SectionValue → SectionValue
  | .cal x => .cal x
  | .measure m => .measure
    { m with
      eSub := clampNat 0 200000 m.eSub, vNom := clampNat 10000 30000 m.vNom, presence := clampNat 0 30000 m.presence
      reverseMin := clampNat 0 200000 m.reverseMin, residualThreshold := clampNat 0 100000 m.residualThreshold
      bypassThreshold := clampNat 0 100000 m.bypassThreshold }
  | .account a => .account
    { opening := clampNat 0 999999999 a.opening, ceiling := clampNat 0 999999999 a.ceiling
      low := clampNat 0 999999999 a.low, emergency := clampNat 0 10000000 a.emergency
      friendlyCap := clampNat 0 10000000 a.friendlyCap, daily := clampNat 0 9999999 a.daily, rate := clampNat 0 100 a.rate }
  | .switch w hasLimit => .switch
    { w with
      pulse := clampNat 20 200 w.pulse, blanking := clampNat 0 100 w.blanking, window := clampNat 50 1000 w.window
      persistence := clampNat 16 1024 w.persistence } hasLimit
  | .thermal t => .thermal
    { averaging := clampNat 0 4 t.averaging
      table := t.table.map fun p => (clampNat 0 1023 p.1, clampInt (-400) 2000 p.2)
      alarm := clampInt (-400) 2000 t.alarm, trip := clampInt (-400) 2000 t.trip
      hysteresis := clampNat 0 200 t.hysteresis, backup := clampNat 2000 3300 t.backup }
  | .tamper p => .tamper (fixPolicies 1 p)
  | .link v => .link (clampSilence v)

/-- Each item is less than the next. -/
def strictlyAscending : List Nat → Bool
  | a :: b :: rest => decide (a < b) && strictlyAscending (b :: rest)
  | _ => true

/-- The relations of R187 on a section as clamped, with the stored balance. -/
def relationsHold (balance : Int) : SectionValue → Bool
  | .account a => a.opening ≤ a.ceiling && decide (balance ≤ a.ceiling)
  | .switch w _ => w.blanking < w.window && w.pulse ≤ w.window
  | .thermal t => decide (t.alarm < t.trip) && strictlyAscending (t.table.map Prod.fst)
  | _ => true

/-! ### Tariff sections (R45) -/

/-- n (minute, band) points from offset 1 on. -/
def pointsField (c : List Byte) (n : Nat) : List (Nat × Nat) :=
  (List.range n).map fun k => (field c (1 + 3 * k) 2, field c (3 + 3 * k) 1)

/-- n (start, end) windows from an offset on. -/
def windowsField (c : List Byte) (off n : Nat) : List (Nat × Nat) :=
  (List.range n).map fun k => (field c (off + 4 * k) 2, field c (off + 4 * k + 2) 2)

/-- n dates from offset 2 on (R200). -/
def datesField (c : List Byte) (n : Nat) : List Date :=
  (List.range n).map fun k => ⟨field c (2 + 4 * k) 2, field c (4 + 4 * k) 1, field c (5 + 4 * k) 1⟩

def clampPoint (p : Nat × Nat) : Nat × Nat := (min 1439 p.1, min 7 p.2)
def clampWindow (w : Nat × Nat) : Nat × Nat := (min 1439 w.1, clampNat 1 1440 w.2)

/-- 1 to 8 points, strictly ascending by minute. -/
def scheduleOk (l : List (Nat × Nat)) : Bool := 1 ≤ l.length && l.length ≤ 8 && strictlyAscending (l.map Prod.fst)

/-- Each window has start < end, and no start is below the end of the window before it. -/
def windowsOk : List (Nat × Nat) → Bool
  | [] => true
  | [w] => decide (w.1 < w.2)
  | w :: v :: rest => decide (w.1 < w.2) && decide (w.2 ≤ v.1) && windowsOk (v :: rest)

/-- A section's contents judged as clamped (R45): the section to be stored and whether a field was clamped; none when it is
refused BAD-VALUE or the selector names no section. -/
def readTariffSection (sel : Byte) (c : List Byte) : Option (TariffValue × Bool) :=
  match sel.toNat with
  | 0 =>
    let raw := (List.range 8).map fun k => field c (3 * k) 3
    let prices := raw.map (min 9999999)
    let pb := field c 24 1
    let db := field c 25 1
    some (.prices ⟨prices, min 7 pb, min 7 db⟩, prices != raw || decide (7 < pb) || decide (7 < db))
  | 1 =>
    let raw := pointsField c (field c 0 1)
    let l := raw.map clampPoint
    if scheduleOk l then some (.scheduleWorkday l, l != raw) else none
  | 2 =>
    let raw := pointsField c (field c 0 1)
    let l := raw.map clampPoint
    if scheduleOk l then some (.scheduleRestday l, l != raw) else none
  | 3 =>
    let dates := datesField c (field c 1 1)
    let days := dates.map Date.number
    if dates.length ≤ 16 && dates.all Date.valid && strictlyAscending days then
      some (.days ⟨(List.range 7).map fun k => (c.getD 0 0).getLsbD k, days⟩, false)
    else none
  | 4 =>
    let a := field c 0 1
    let rawW := windowsField c 1 a
    let rawR := windowsField c (2 + 4 * a) (field c (1 + 4 * a) 1)
    let w := rawW.map clampWindow
    let r := rawR.map clampWindow
    if w.length ≤ 4 && r.length ≤ 4 && windowsOk w && windowsOk r then
      some (.friendly ⟨w, r⟩, w != rawW || r != rawR)
    else none
  | _ => none

/-- A section stored in a pending tariff. -/
def PendingSections.put (p : PendingSections) : TariffValue → PendingSections
  | .prices v => { p with prices := some v }
  | .scheduleWorkday v => { p with scheduleWorkday := some v }
  | .scheduleRestday v => { p with scheduleRestday := some v }
  | .days v => { p with days := some v }
  | .friendly v => { p with friendly := some v }

/-- All five sections are stored (R47). -/
def PendingSections.complete (p : PendingSections) : Bool :=
  p.prices.isSome && p.scheduleWorkday.isSome && p.scheduleRestday.isSome && p.days.isSome && p.friendly.isSome

/-- The sections a pending tariff holds (R46). -/
def Pending.parts : Pending → PendingSections
  | .empty => .none
  | .building parts => parts
  | .ready parts _ _ => parts

/-- A section by its selector, when it is stored. -/
def PendingSections.get (p : PendingSections) (sel : Nat) : Option TariffValue :=
  match sel with
  | 0 => p.prices.map .prices
  | 1 => p.scheduleWorkday.map .scheduleWorkday
  | 2 => p.scheduleRestday.map .scheduleRestday
  | 3 => p.days.map .days
  | 4 => p.friendly.map .friendly
  | _ => Option.none

/-- The five sections of a tariff. -/
def Tariff.parts (t : Tariff) : PendingSections :=
  ⟨some t.prices, some t.scheduleWorkday, some t.scheduleRestday, some t.days, some t.friendly⟩

end Sys2Proof.Machine
end

