-- ==== Sys2Proof/Machine/Encode.lean ====
section
/-! DEFINITION. What replies and notices carry: the layouts of R200 to R204. Where a record that failed its checksum would
have to be read for a body that has no availability byte, and where the manual fixes no value, the bytes are free values
(log entry 4): State.answer and the transmitter move State.fresh past them. -/

namespace Sys2Proof.Machine

/-! ### Free bytes of a frame -/

/-- The free bytes k to k + n - 1 of the frame being formed. -/
def State.freeBytes (s : State) (k n : Nat) : List Byte :=
  (List.range n).map fun j => BitVec.ofNat 8 (Config.free (s.fresh + k + j))

/-- A free yes-or-no byte. -/
def State.freeBool (s : State) (k : Nat) : Byte := boolByte (Config.free (s.fresh + k) % 2 == 1)

/-! ### Summaries, evidence records, dates (R200 to R202) -/

/-- The last byte of a summary: directions, MAG and the switch state (R201). -/
def Summary.flagByte (m : Summary) : Byte :=
  BitVec.ofNat 8 (m.phases.p1.reverse.toNat + 2 * m.phases.p2.reverse.toNat + 4 * m.phases.p3.reverse.toNat +
    8 * m.mag.toNat + 16 * m.switch.number)

def PhaseSummary.bytes (p : PhaseSummary) : List Byte :=
  beBytes 2 (saturate 65535 p.vrms) ++ beBytes 3 p.irms ++ beBytes 3 (saturate 16777215 p.energy)

/-- The 30-byte form of a block summary (R201). -/
def Summary.bytes (m : Summary) : List Byte :=
  m.phases.p1.bytes ++ m.phases.p2.bytes ++ m.phases.p3.bytes ++ beBytes 3 m.neutral ++
    beBytes 2 (saturate 65535 m.residual) ++ [m.flagByte]

/-- The presence bits of an evidence record (R202). -/
def EvRecord.presence (r : EvRecord) : Byte :=
  BitVec.ofNat 8 (r.onset.isSome.toNat + 2 * r.finish.isSome.toNat + 4 * r.phase.isSome.toNat +
    8 * r.value.isSome.toNat + 16 * r.slot.isSome.toNat + 32 * r.clearSeq.isSome.toNat + 64 * r.clearTime.isSome.toNat)

/-- The 30-byte form of an evidence record (R202): absent fields are sent as 0. -/
def EvRecord.bytes (r : EvRecord) : List Byte :=
  beBytes 4 r.number ++ beBytes 1 r.cls.number ++ [r.state.byte, r.presence] ++ beBytes 4 (r.onset.getD 0) ++
    beBytes 4 (r.finish.getD 0) ++ beBytes 1 (r.phase.getD 0) ++ beSigned 4 (r.value.getD 0) ++ beBytes 2 r.repeats ++
    [boolByte r.onBattery] ++ beBytes 1 (r.slot.getD 0) ++ beBytes 2 (r.clearSeq.getD 0) ++ beBytes 4 (r.clearTime.getD 0)

/-- A day number as a date (R200). -/
def dateBytes (day : Nat) : List Byte :=
  let d := dateOfDay day
  beBytes 2 d.year ++ beBytes 1 d.month ++ beBytes 1 d.day

def DayRecord.bytes (r : DayRecord) : List Byte :=
  dateBytes r.day ++ beBytes 4 r.energy ++ beBytes 4 r.charged ++ beBytes 4 r.credited

/-- A list: its count and its items (R200). -/
def listBytes {α : Type} (item : α → List Byte) (l : List α) : List Byte := beBytes 1 l.length ++ l.flatMap item

/-! ### Settings and tariff sections (R200) -/

def policyBits (p : ClassPolicy) : Byte :=
  BitVec.ofNat 8 (p.detect.toNat + 2 * p.disconnect.toNat + 4 * p.penalty.toNat + 8 * p.snapshot.toNat +
    16 * p.notify.toNat)

/-- A configuration section's fields, in the order R200 gives. -/
def ConfigRec.sectionBytes (c : ConfigRec) : ConfigSection → List Byte
  | .cal => (c.cal.g.toList ++ c.cal.kV.toList ++ c.cal.kI.toList ++ [c.cal.kN, c.cal.kR]).flatMap (beBytes 3)
  | .measure =>
    beBytes 3 c.measure.eSub ++ beBytes 2 c.measure.vNom ++ [boolByte c.measure.residualBilling] ++
      beBytes 2 c.measure.presence ++ beBytes 3 c.measure.reverseMin ++ beBytes 3 c.measure.residualThreshold ++
      beBytes 3 c.measure.bypassThreshold
  | .account =>
    beBytes 4 c.account.opening ++ beBytes 4 c.account.ceiling ++ beBytes 4 c.account.low ++
      beBytes 3 c.account.emergency ++ beBytes 3 c.account.friendlyCap ++ beBytes 3 c.account.daily ++
      beBytes 1 c.account.rate
  | .switch =>
    [boolByte c.switch.ack] ++ beBytes 1 c.switch.pulse ++ beBytes 1 c.switch.blanking ++ beBytes 2 c.switch.window ++
      beBytes 3 c.switch.limit ++ beBytes 2 c.switch.persistence
  | .thermal =>
    beBytes 1 c.thermal.averaging ++ c.thermal.table.flatMap (fun p => beBytes 2 p.1 ++ beSigned 2 p.2) ++
      beSigned 2 c.thermal.alarm ++ beSigned 2 c.thermal.trip ++ beBytes 1 c.thermal.hysteresis ++
      beBytes 2 c.thermal.backup
  | .tamper => c.tamper.map policyBits
  | .link => beBytes 2 c.silence

/-- How many bytes READ-CONFIG sends of a section, with the additions of R122 and R137. -/
def ConfigSection.readLength : ConfigSection → Nat
  | .cal => 33 | .measure => 17 | .account => 22 | .switch => 22 | .thermal => 44 | .tamper => 13 | .link => 2

/-- What READ-CONFIG adds to the SWITCH section: the code limit and the four operate times (R122). -/
def SwitchRec.readBytes (r : SwitchRec) : List Byte :=
  optBytes 4 r.codeLimit ++ beBytes 2 r.openLast ++ beBytes 2 r.openMax ++ beBytes 2 r.closeLast ++ beBytes 2 r.closeMax

def pointBytes (p : Nat × Nat) : List Byte := beBytes 2 p.1 ++ beBytes 1 p.2
def windowBytes (w : Nat × Nat) : List Byte := beBytes 2 w.1 ++ beBytes 2 w.2

/-- A tariff section's fields (R200). -/
def TariffValue.bytes : TariffValue → List Byte
  | .prices p => p.prices.flatMap (beBytes 3) ++ beBytes 1 p.penaltyBand ++ beBytes 1 p.defaultBand
  | .scheduleWorkday l => listBytes pointBytes l
  | .scheduleRestday l => listBytes pointBytes l
  | .days d =>
    [BitVec.ofNat 8 (flagsOf ((List.range 7).filter fun k => d.restDays.getD k false) 7)] ++ listBytes dateBytes d.holidays
  | .friendly f => listBytes windowBytes f.workday ++ listBytes windowBytes f.restday

/-- An item behind a presence byte (R200). -/
def presenceBytes : Option (List Byte) → List Byte
  | none => [0]
  | some b => 1 :: b

/-- The pending tariff's state: EMPTY, BUILDING, READY (R203). -/
def Pending.byte : Pending → Byte
  | .empty => 0
  | .building _ => 1
  | .ready _ _ _ => 2

/-- The activation time of a READY tariff. -/
def Pending.time : Pending → Option Nat
  | .ready _ t _ => some t
  | _ => none

/-- The identifier of a READY tariff. -/
def Pending.identifier : Pending → Option Nat
  | .ready _ _ i => some i
  | _ => none

/-! ### Parts of several bodies -/

/-- The window's remaining time in s, absent outside SERVICE-WINDOW: a free value within the duration (log entry 4). -/
def State.remainingBytes (s : State) : List Byte :=
  match s.life.state, s.life.timer with
  | .serviceWindow, some minutes => beBytes 2 (Config.free s.fresh % (60 * minutes + 1))
  | _, _ => absentBytes 2

def State.windowBytes (s : State) : List Byte := optBytes 3 s.life.window

/-- The key-installed flag as sent: free while the identity record cannot be read. -/
def State.keyByte (s : State) : Byte :=
  if s.sound .identity then boolByte s.store.recs.identity.installed else s.freeBool 5

/-- Life state, window sequence, remaining time, key installed (R178). -/
def State.lifeValues (s : State) : List Byte := [s.life.state.byte] ++ s.windowBytes ++ s.remainingBytes ++ [s.keyByte]

/-- The balance as sent outside READ-ACCOUNT: free while the account record cannot be read. -/
def State.balanceBytes (s : State) : List Byte :=
  if s.sound .account then beSigned 4 s.store.recs.account.balance else s.freeBytes 6 4

/-- The floor as sent: free while the account record cannot be read. -/
def State.floorBytes (s : State) : List Byte :=
  if s.sound .account then beSigned 4 s.floor else s.freeBytes 64 4

/-- The credit condition as sent, absent when none is reported (R64). -/
def State.conditionBytes (s : State) : List Byte := optBytes 1 (s.acct.condition.map CreditCondition.number)

/-- The first open (R160): class and number, both absent when there is none. -/
def State.firstOpenBytes (s : State) : List Byte :=
  optBytes 1 (s.firstOpen.map fun r => r.cls.number) ++ optBytes 5 (s.firstOpen.map EvRecord.number)

/-- The last code result, in the order of the table of R98. -/
def CodeResult.bytes (r : CodeResult) : List Byte :=
  (match r.outcome with
    | some st => [st.byte]
    | none => absentBytes 1) ++
    optBytes 1 r.kind ++ optBytes 3 r.sequence ++ beBytes 4 r.amount ++ beBytes 4 r.recovered ++ classSetBytes r.held

def State.codeBody (s : State) : List Byte := s.code.last.bytes

def Sensor.bytes (x : Sensor) : List Byte := optSigned 2 x.temperature ++ [boolByte x.faulty]

/-- The effective load limit (R123). -/
def State.effectiveLimit (s : State) : Nat := s.sw.record.codeLimit.getD s.config.switch.limit

/-- The supervision values (R137). -/
def State.supervisionBytes (s : State) : List Byte :=
  s.sup.sensor1.bytes ++ s.sup.sensor2.bytes ++ optBytes 2 s.sup.cell ++ beBytes 3 s.effectiveLimit ++
    beBytes 2 s.sup.overCount ++ listBytes (beBytes 4) s.sup.supply.trips ++
    optBytes 4 (s.sup.supply.backoff.map Backoff.until_)

def State.faultListBytes (s : State) : List Byte :=
  listBytes (fun f => beBytes 1 (FaultKind.number f)) s.life.faults ++ optBytes 1 (s.life.faults.head?.map FaultKind.number)

/-- Power state, dip count, outage count, last start kind. -/
def State.powerBytes (s : State) : List Byte :=
  [s.backup.power.byte] ++ beBytes 2 s.sup.supply.dips ++ beBytes 2 s.sup.supply.outages ++ [s.backup.lastStart.byte]

/-- The day type in force: none while the clock is INVALID (R37). -/
def State.dayTypeNow (s : State) : Option DayType := s.time.map fun t => s.tariff.dayType (dayOf t)

/-- The band in force now (R39). -/
def State.bandNow (s : State) : Nat := s.tariff.bandInForce s.penalty s.time

/-! ### Reply bodies of the reading requests (R203) -/

def State.identifyBody (s : State) : List Byte :=
  (if s.sound .identity then beBytes 4 s.store.recs.identity.serial.toNat else s.freeBytes 1 4) ++ [s.keyByte]

/-- STATUS: the list of R203; with the life state's values goes the key-installed flag that R178 has the reply carry too, in the
place it has in the LIFE notice (DEDUCED, log entry 48). -/
def State.statusBody (s : State) : List Byte :=
  beBytes 4 s.clock ++ [boolByte s.clockValid] ++ optBytes 1 (s.dayTypeNow.map DayType.number) ++ beBytes 1 s.bandNow ++
    [boolByte s.cal.friendly] ++
    s.lifeValues ++
    s.powerBytes ++
    s.faultListBytes ++ [faultSetByte s.life.memory] ++ recordSetBytes s.life.repaired ++
    s.conditionBytes ++ s.balanceBytes ++
    s.switchBody ++
    classSetBytes s.latched ++ s.firstOpenBytes ++ [boolByte s.penalty] ++
    s.code.last.bytes ++
    s.supervisionBytes

def State.instantBody (s : State) : List Byte := presenceBytes (s.reg.last.map Summary.bytes)

/-- The energy registers (R74): total, eight bands, three reverse, substituted. -/
def AccountRec.energyBytes (a : AccountRec) : List Byte :=
  ([a.total] ++ a.bands ++ a.reverse.toList ++ [a.substituted]).flatMap (beBytes 4)

def State.energyBody (s : State) : List Byte :=
  if s.sound .account then 1 :: s.store.recs.account.energyBytes else 0 :: List.replicate 52 0

def State.accountBody (s : State) : List Byte :=
  let a := s.store.recs.account
  if s.sound .account then
    1 :: (beSigned 4 a.balance ++ beBytes 2 a.residue ++ beBytes 4 a.debt ++ [boolByte a.emergency] ++ beSigned 4 s.floor ++
      s.conditionBytes ++ beBytes 4 a.dayImport ++ beBytes 4 a.dayCharged ++ beBytes 4 a.dayCredited ++
      beBytes 5 a.totalCharged ++ beBytes 5 a.totalCredited)
  else 0 :: List.replicate 38 0

/-- The day record of an index, newest first (R65). -/
def State.dayAt (s : State) (index : Nat) : Option DayRecord := s.store.recs.days.history.reverse[index]?

def State.daysBody (s : State) (index : Nat) : List Byte := presenceBytes ((s.dayAt index).map DayRecord.bytes)

/-- The record of a number, or the first open for 0 (R203). -/
def State.evidenceAt (s : State) (number : Nat) : Option EvRecord :=
  if number = 0 then s.firstOpen else s.tam.evidence.log.find? fun r => r.number == number

def State.evidenceBody (s : State) (number : Nat) : List Byte := presenceBytes ((s.evidenceAt number).map EvRecord.bytes)

/-- The half of a slot: pre-blocks for 0, post-blocks for 1; a free slot or an empty half is absent (R163). -/
def State.snapshotBody (s : State) (slot half : Nat) : List Byte :=
  match s.tam.slots.getD slot none with
  | none => [0]
  | some sl =>
    let blocks := if half = 0 then sl.pre else sl.post
    if blocks.isEmpty then [0]
    else 1 :: (beBytes 1 slot ++ beBytes 4 sl.number ++ [if sl.collecting then 1 else 2] ++ listBytes Summary.bytes blocks)

def State.codeListBody (s : State) : List Byte :=
  let c := s.store.recs.code
  if s.sound .code then
    1 :: (listBytes (beBytes 2) c.accepted ++ beBytes 1 c.failures ++ beBytes 1 c.level ++ [boolByte c.lockEnd.isSome])
  else [0, 0, 0, 0, 0]

/-- READ-TARIFF: which 0 active or 1 pending; section 0..4, or 5 for identifier, pending state and activation time. -/
def State.tariffBody (s : State) (which sel : Nat) : List Byte :=
  let t := s.store.recs.tariff
  if sel = 5 then
    1 :: (optBytes 3 (if which = 0 then some t.active.identifier else t.pending.identifier) ++ [t.pending.byte] ++
      optBytes 4 t.pending.time)
  else presenceBytes (((if which = 0 then t.active.parts else t.pending.parts).get sel).map TariffValue.bytes)

/-- READ-CONFIG; a selector that names no section has no section to send, so its body is the availability byte alone. -/
def State.configBody (s : State) (sel : Byte) : List Byte :=
  match sectionOf sel with
  | none => [boolByte (s.sound .config)]
  | some sec =>
    if s.sound .config then
      let c := s.store.recs.config
      1 :: boolByte (c.written.contains sec) :: (c.sectionBytes sec ++
        if sec = .switch then s.sw.record.readBytes else [])
    else 0 :: 0 :: List.replicate (ConfigSection.readLength sec) 0

def State.linkStatusBody (s : State) : List Byte :=
  beBytes 2 s.link.gapErrors ++ beBytes 2 s.link.crcErrors ++ beBytes 2 s.link.formatErrors ++ beBytes 2 s.config.silence ++
    [boolByte s.tam.linkSilence]

/-! ### Reply bodies of the customer and operator requests (R204) -/

/-- The digit count of a CODE-KEY reply. -/
def State.digitBody (s : State) : List Byte := beBytes 1 s.code.digits.length

def State.emergencyBody (s : State) : List Byte := s.conditionBytes ++ s.balanceBytes ++ s.floorBytes

def State.setTimeBody (s : State) : List Byte := beBytes 4 s.clock ++ [boolByte s.clockValid]

def State.pendingBody (s : State) : List Byte := [s.store.recs.tariff.pending.byte]

def State.commitBody (s : State) : List Byte := s.pendingBody ++ optBytes 4 s.store.recs.tariff.pending.time

/-- TARIFF-SECTION: the section as stored, behind its presence. -/
def State.tariffSectionBody (s : State) (sel : Nat) : List Byte :=
  presenceBytes ((s.store.recs.tariff.pending.parts.get sel).map TariffValue.bytes)

/-- WRITE-CONFIG: the written flag and the section as stored; a selector that names no section leaves the flag, no, alone. -/
def State.writeConfigBody (s : State) (sel : Byte) : List Byte :=
  match sectionOf sel with
  | none => [0]
  | some sec =>
    let c := s.store.recs.config
    if s.sound .config then boolByte (c.written.contains sec) :: c.sectionBytes sec
    else s.freeBool 5 :: s.freeBytes 16 (c.sectionBytes sec).length

def State.keyBody (s : State) : List Byte := [s.keyByte]

/-- The configuration is complete (R180): every section but LINK has been written. -/
def ConfigRec.complete (c : ConfigRec) : Bool :=
  [ConfigSection.cal, .measure, .account, .switch, .thermal, .tamper].all fun x => c.written.contains x

/-- CLOSE-COMMISSION: key installed, clock valid, configuration complete. -/
def State.commissionBody (s : State) : List Byte :=
  [s.keyByte, boolByte s.clockValid,
   if s.sound .config then boolByte s.store.recs.config.complete else s.freeBool 14]

def State.lifeBody (s : State) : List Byte := [s.life.state.byte]

/-! ### Notices (R198) -/

/-- The newest evidence number; with an empty log the manual gives none, and it is free (log entry 4). -/
def State.newestBytes (s : State) : List Byte :=
  match s.tam.evidence.log.getLast? with
  | some r => beBytes 4 r.number
  | none => s.freeBytes 10 4

/-- The payload of a notice as it is formed. KEYPAD sends how many digits are held (DEDUCED, log entry 57). -/
def State.noticeBody (s : State) : Notice → List Byte
  | .life => s.lifeValues
  | .power => s.powerBytes
  | .credit =>
    s.conditionBytes ++ beSigned 4 s.store.recs.account.balance ++ beBytes 4 s.store.recs.account.debt ++
      beSigned 4 s.floor ++ [boolByte s.store.recs.account.emergency]
  | .switch => [s.sw.state.byte, s.sw.record.holds.byte] ++ beBytes 1 s.sw.attempt
  | .evidence => s.newestBytes ++ classSetBytes s.latched ++ s.firstOpenBytes
  | .fault => s.faultListBytes
  | .tariff => beBytes 2 s.store.recs.tariff.active.identifier ++ [s.store.recs.tariff.pending.byte]
  | .day =>
    (match s.store.recs.days.lastDay with
      | some d => dateBytes d
      | none => absentBytes 4) ++ presenceBytes (s.store.recs.days.history.getLast?.map DayRecord.bytes)
  | .keypad => s.digitBody

/-! ### Frames (R191) -/

def syncByte : Byte := 0xC3

/-- The CRC of a frame's length byte, kind byte and payload (R191). -/
def frameCrc (bytes : List Byte) : BitVec 16 := crc16 0xFFFF bytes

/-- The bytes of a frame (R191). -/
def frameBytes (kind : Byte) (payload : List Byte) : List Byte :=
  let covered := BitVec.ofNat 8 (payload.length + 1) :: kind :: payload
  syncByte :: (covered ++ beBytes 2 (frameCrc covered).toNat)

end Sys2Proof.Machine
end

