-- ==== Sys2Proof/Machine/HostLink.lean ====
section
/-! DEFINITION. The host link (chapter 10): the receiver, the taking of requests, the transmitter, the silence timer, and
RESTART. -/

namespace Sys2Proof.Machine

/-- The host link's receiver and request handling work: the last start has ended, in MAINS or HOLDUP (R193). -/
def State.linkUp (s : State) : Bool := s.running && (s.mains || s.holdup)

/-! ### Valid frames (R195, R199) -/

/-- The silence timer is restarted from zero: it runs in MAINS with a limit other than 0 (R199). -/
def State.restartSilence (s : State) : State :=
  s.onLink fun l => { l with silenceRunning := s.mains && s.config.silence != 0 }

/-- LINK-SILENCE ends at a valid frame (R199). -/
def State.endSilence (s : State) : State :=
  if s.tam.linkSilence then (s.onTam fun t => { t with linkSilence := false }).latchEnd .linkSilence else s

/-- A reply's kind: its request's plus 80h (R191). For a kind byte of 80h and above, which names no request, the most significant
bit stays set, as R195 says of a BUSY (DESIGN CHOICE, log entry 56). -/
def replyKind (kind : Byte) : Byte := kind ||| 0x80

/-- Where a request taken stands: answered at once with a status alone when its kind or its length is wrong (R195). -/
def firstStage (kind : Byte) (payload : List Byte) : Stage :=
  match lengthOk kind payload with
  | none => .replied [Status.unknownKind.byte]
  | some false => .replied [Status.badLength.byte]
  | some true => .owner

/-- A valid frame is taken, owes a BUSY, or is discarded (R195). -/
def Link.handle (l : Link) (kind : Byte) (payload : List Byte) : Link :=
  match l.inHand with
  | none => { l with inHand := some ⟨kind, payload, firstStage kind payload⟩ }
  | some _ =>
    match l.busyOwed with
    | none => { l with busyOwed := some ⟨replyKind kind, false⟩ }
    | some _ => l

/-- A valid frame arrives. -/
def State.validFrame (kind : Byte) (payload : List Byte) (s : State) : State :=
  s.restartSilence.endSilence.onLink fun l => l.handle kind payload

/-! ### The receiver (R192) -/

def Link.countFormat (l : Link) : Link :=
  { l with receiver := .hunting, formatErrors := saturate 65535 (l.formatErrors + 1) }

def Link.countCrc (l : Link) : Link := { l with receiver := .hunting, crcErrors := saturate 65535 (l.crcErrors + 1) }

def Link.countGap (l : Link) : Link := { l with receiver := .hunting, gapErrors := saturate 65535 (l.gapErrors + 1) }

/-- The last byte of a frame has been taken: the bytes since the sync byte, oldest first, end with the two CRC bytes. -/
def State.frameDone (bytes : List Byte) (s : State) : State :=
  let covered := bytes.take (bytes.length - 2)
  if frameCrc covered = BitVec.ofNat 16 (ofBytes (bytes.drop (bytes.length - 2))) then
    (s.onLink fun l => { l with receiver := .hunting }).validFrame (covered.getD 1 0) (covered.drop 2)
  else s.onLink Link.countCrc

/-- The receiver takes one byte. -/
def State.takeByte (s : State) (b : RxByte) : State :=
  match s.link.receiver with
  | .idle => s
  | .waitHigh => s
  | .hunting => if b.stopBit && b.value == syncByte then s.onLink fun l => { l with receiver := .synced } else s
  | .synced =>
    if !b.stopBit || b.value == 0 || decide (250 < b.value.toNat) then s.onLink Link.countFormat
    else s.onLink fun l => { l with receiver := .within (b.value.toNat + 2) [b.value] }
  | .within left taken =>
    if !b.stopBit then s.onLink Link.countFormat
    else if left ≤ 1 then s.frameDone (taken.reverse ++ [b.value])
    else s.onLink fun l => { l with receiver := .within (left - 1) (b.value :: taken) }

/-- A frame is in progress from its sync byte to its last CRC byte. -/
def Receiver.inFrame : Receiver → Bool
  | .synced => true
  | .within _ _ => true
  | _ => false

def State.takeFrame (bytes : List RxByte) (s : State) : State := if s.linkUp then bytes.foldl State.takeByte s else s

/-- FRAME (R192). -/
def execFrame (bytes : List RxByte) (s : State) : Host.Outcome State Fault Refusal := .next (s.takeFrame bytes)

def State.gapSeen (next : RxByte) (s : State) : State :=
  if s.linkUp && s.link.receiver.inFrame then (s.onLink Link.countGap).takeByte next else s

/-- GAP_ERROR (R192). -/
def execGapError (next : RxByte) (s : State) : Host.Outcome State Fault Refusal := .next (s.gapSeen next)

def State.breakSeen (s : State) : State :=
  if s.linkUp then s.onLink fun l => { l with receiver := .waitHigh } else s

/-- BREAK (R193). -/
def execLineBreak (s : State) : Host.Outcome State Fault Refusal := .next s.breakSeen

def State.lineHigh (s : State) : State :=
  if s.linkUp && s.link.receiver == .waitHigh then s.onLink fun l => { l with receiver := .hunting } else s

/-- LINE_HIGH_HUNT (R193). -/
def execLineHighHunt (s : State) : Host.Outcome State Fault Refusal := .next s.lineHigh

/-! ### Requests handed to their owners (R195) -/

/-- A request command (log entry 7): its owner examines it when it is the request in hand and has not been examined; with no
request in hand the command stands for the arrival of its frame too; with another one in hand it is that arrival alone. -/
def State.onRequest (kind : Byte) (payload : List Byte) (examine : State → State) (s : State) : State :=
  if !s.linkUp then s
  else match s.link.inHand with
    | some h =>
      if h = ⟨kind, payload, .owner⟩ then examine s
      else if s.link.receiver = .hunting then s.validFrame kind payload
      else s
    | none =>
      if s.link.receiver = .hunting then
        let s' := s.validFrame kind payload
        if lengthOk kind payload = some true then examine s' else s'
      else s

/-! ### The transmitter (R197, R198) -/

/-- The transmitter works while the main domain has work in MAINS or HOLDUP (R193). -/
def State.canSend (s : State) : Bool := s.works

/-- The pending notice of lowest kind. -/
def Link.lowestNotice (l : Link) : Option Notice := allNotices.find? l.notices.contains

/-- The reply to the request in hand, once it is formed. -/
def Link.readyReply (l : Link) : Option (Byte × List Byte) :=
  match l.inHand with
  | some ⟨kind, _, .replied payload⟩ => some (kind, payload)
  | _ => none

/-- The owed BUSY, once the reply it follows has been sent. -/
def Link.readyBusy (l : Link) : Option Byte :=
  match l.busyOwed with
  | some ⟨kind, true⟩ => some kind
  | _ => none

/-- The free transmitter sends the first that is ready. -/
def State.transmit (s : State) : State :=
  if !s.canSend || s.link.sending.isSome then s
  else match s.link.readyReply with
    | some (kind, payload) =>
      s.onLink fun l => { l with sending := some ⟨.reply, frameBytes (replyKind kind) payload⟩ }
    | none =>
      match s.link.readyBusy with
      | some kind =>
        s.onLink fun l => { l with busyOwed := none, sending := some ⟨.busy, frameBytes kind [Status.busy.byte]⟩ }
      | none =>
        match s.link.lowestNotice with
        | some n =>
          (s.onLink fun l => { l with
            notices := l.notices.filter (· ≠ n)
            sending := some ⟨.notice n, frameBytes n.kindByte (s.noticeBody n)⟩ }).useFree freePerFrame
        | none => s

/-- TRANSMIT_FRAME (R197). -/
def execTransmitFrame (s : State) : Host.Outcome State Fault Refusal := .next s.transmit

/-- The request in hand is a RESTART answered OK (R205). -/
def Link.restartReplied (l : Link) : Bool :=
  match l.inHand with
  | some ⟨kind, _, .replied payload⟩ => kind == 0x2B && payload == [Status.ok.byte]
  | _ => false

/-- The main domain awaits the start that a RESTART has brought about. -/
def State.awaitRestart (s : State) : State := s.onBackup fun b => { b with domain := .awaiting .restart }

/-- The last byte of the frame being sent has gone. The start that follows a RESTART answered OK is awaited in HOLDUP too, where
START begins it (DESIGN CHOICE, log entry 58). -/
def State.sent (s : State) : State :=
  if !s.canSend then s
  else match s.link.sending with
    | none => s
    | some ⟨.reply, _⟩ =>
      let restart := s.link.restartReplied
      let s1 := s.onLink fun l => { l with
        sending := none, inHand := none, busyOwed := l.busyOwed.map fun b => { b with ready := true }
        restartDue := l.restartDue || (restart && l.busyOwed.isSome) }
      if restart && s.link.busyOwed.isNone then s1.awaitRestart else s1
    | some ⟨.busy, _⟩ =>
      let s1 := s.onLink fun l => { l with sending := none }
      if s.link.restartDue then s1.awaitRestart else s1
    | some ⟨.notice _, _⟩ => s.onLink fun l => { l with sending := none }

/-- FRAME_SENT (R195, R205). -/
def execFrameSent (s : State) : Host.Outcome State Fault Refusal := .next s.sent

/-! ### Silence and RESTART (R199, R205) -/

/-- The silence timer has run for the silence limit: it stops, and LINK-SILENCE begins unless it is present already, as after a
dip in a silence that has lasted since before it (R138). -/
def State.silenceExpires (s : State) : State :=
  if s.linkUp && s.mains && s.link.silenceRunning then
    let s1 := s.onLink fun l => { l with silenceRunning := false }
    if s.tam.linkSilence then s1 else (s1.onTam fun t => { t with linkSilence := true }).latchOnset .linkSilence none none
  else s

/-- SILENCE_TIMER_EXPIRY (R199). -/
def execSilenceTimerExpiry (s : State) : Host.Outcome State Fault Refusal := .next s.silenceExpires

/-- A residue record write is requested; it replaces one that is still waiting (R22, R23). -/
def State.requestResidue (valid forRestart : Bool) (s : State) : State :=
  (s.onStore fun st => { st with waiting := st.waiting.filter fun p => !p.isResidue }).request (.residue valid forRestart)

/-- RESTART: refused POWER in HOLDUP; else the open block is discarded and the residue record written valid. -/
def State.examineRestart (s : State) : State :=
  if s.holdup then s.answer .power []
  else ((s.onReg fun r => { r with blockOpen := false }).await).requestResidue true true

/-- RESTART (R205). -/
def execRestart (s : State) : Host.Outcome State Fault Refusal :=
  .next (s.onRequest 0x2B [] State.examineRestart)

end Sys2Proof.Machine
end

