-- ==== Sys2Proof/Machine/AccountUnit.lean ====
section
/-! DEFINITION. The account unit's steps (chapter 3): it takes the entry at the head of its queue, each as one durable write,
and acts when the write completes. -/

namespace Sys2Proof.Machine

/-- The account unit may take its next entry: it works, its record is sound, no write of its own is under way, and a write may
start (R51, R168). It works in a start too (DESIGN CHOICE, log entry 40). -/
def State.mayTake (s : State) : Bool := s.alive && s.mains && s.sound .account && !s.accountBusy

/-- The account record as stored, with the pending counts added to its registers (R52). -/
def State.accountNow (s : State) : AccountRec := s.store.recs.account.withPending s.acct

/-- The pending counts have gone into a write. -/
def Account.clearPending (a : Account) : Account := { a with pendingReverse := .all3 0, pendingSubstituted := 0 }

/-- The head entry leaves the queue and its account write, carrying the pending counts, is requested. The values and the counts
are those at the taking, though the write may wait for another unit's (DESIGN CHOICE, log entry 50). -/
def State.takeInto (rest : List Entry) (p : Purpose) (s : State) : State :=
  (s.onAcct fun a => { a.clearPending with queue := rest }).request p

/-! ### Quanta (R56, R57) -/

/-- One quantum leaves the head entry, which leaves the queue when its count is exhausted. -/
def lessOne (time : Option Nat) (count : Nat) (rest : List Entry) : List Entry :=
  if count ≤ 1 then rest else .quanta time (count - 1) :: rest

/-- The account record after a quantum taken in COMMISSIONING (R57) or in service (R56). -/
def State.chargeOne (time : Option Nat) (s : State) : AccountRec :=
  let band := s.tariff.bandInForce s.penalty time
  if s.life.state = .commissioning then s.accountNow.count band
  else s.accountNow.charge band (s.tariff.prices.prices.getD band 0)

def State.chargeHead (s : State) : State :=
  if s.mayTake then
    match s.acct.queue with
    | .quanta time count :: rest =>
      if s.life.state = .halted then s.onAcct fun a => { a with queue := lessOne time count rest }
      else s.takeInto (lessOne time count rest) (.charge (s.chargeOne time))
    | _ => s
  else s

/-- CHARGE_QUANTUM (R56). -/
def execChargeQuantum (s : State) : Host.Outcome State Fault Refusal := .next s.chargeHead

/-- Some pending count is not 0. -/
def Account.hasPending (a : Account) : Bool := a.pendingReverse.sum + a.pendingSubstituted != 0

def State.writePending (s : State) : State :=
  if s.mayTake && s.acct.queue.isEmpty && s.acct.hasPending then s.takeInto [] (.charge s.accountNow) else s

/-- PENDING_COUNTS_WRITE (R52). -/
def execPendingCountsWrite (s : State) : Host.Outcome State Fault Refusal := .next s.writePending

/-- A write of a quantum, of the pending counts, or of emergency taken. -/
def Purpose.isPlainAccount : Purpose → Bool
  | .charge _ => true
  | .emergencyTaken _ => true
  | _ => false

/-- The credit test and condition afresh (R59, R64); the reply to an EMERGENCY that was taken (R61). -/
def accountWritten (w : Write) (s : State) : State :=
  let s1 := s.creditTest false
  match w.purpose with
  | .emergencyTaken _ => if s1.awaits 0x12 then s1.answer .ok s1.emergencyBody else s1
  | _ => s1

/-- ACCOUNT_WRITE_COMPLETE (R59). -/
def execAccountWriteComplete (s : State) : Host.Outcome State Fault Refusal :=
  .next (s.complete Purpose.isPlainAccount accountWritten)

/-! ### Day boundaries and adoptions (R66, R67) -/

def State.takeBoundary (s : State) : State :=
  if s.mayTake then
    match s.acct.queue with
    | .dayBoundary first count target :: rest =>
      s.takeInto rest (.dayBoundary (s.accountNow.closeDays s.floor s.config.account.daily count)
        (dayRecords s.accountNow s.config.account.daily first count) target)
    | _ => s
  else s

/-- TAKE_DAY_BOUNDARY (R66). -/
def execTakeDayBoundary (s : State) : Host.Outcome State Fault Refusal := .next s.takeBoundary

def Purpose.isDayBoundary : Purpose → Bool
  | .dayBoundary _ _ _ => true
  | _ => false

/-- The boundary is no longer outstanding; credit test, DAY notice, and the comparison at once (R43, R66). -/
def boundaryWritten (_ : Write) (s : State) : State :=
  (((s.onCal fun c => { c with outstanding := false }).creditTest false).pend .day).compareDay

/-- DAY_BOUNDARY_WRITE_COMPLETE (R43). -/
def execDayBoundaryWriteComplete (s : State) : Host.Outcome State Fault Refusal :=
  .next (s.complete Purpose.isDayBoundary boundaryWritten)

/-- The days record alone is written, so the pending counts stay (R67). -/
def State.takeAdoption (s : State) : State :=
  if s.mayTake then
    match s.acct.queue with
    | .dayAdoption day :: rest => (s.onAcct fun a => { a with queue := rest }).request (.dayAdoption day)
    | _ => s
  else s

/-- TAKE_DAY_ADOPTION (R67). -/
def execTakeDayAdoption (s : State) : Host.Outcome State Fault Refusal := .next s.takeAdoption

/-! ### Code effects (R68 to R70) -/

/-- The last code result is replaced (R98). -/
def State.setResult (r : CodeResult) (s : State) : State := s.onCode fun c => { c with last := r }

/-- The request in hand is a code submission waiting for its effect. -/
def State.awaitsCode (s : State) : Bool := s.awaits 0x10 || s.awaits 0x11

/-- A submission's handling ends: the result is kept and the reply formed with it. -/
def State.endCode (st : Status) (r : CodeResult) (s : State) : State :=
  let s1 := s.setResult r
  s1.answer st s1.codeBody

/-- A refusal's result: no amounts, nothing held. -/
def refusedResult (st : Status) (kind sequence : Option Nat) : CodeResult := ⟨some st, kind, sequence, 0, 0, []⟩

/-- The account record after the effect, and the amount applied and debt recovered; none when it does not fit. -/
def State.codeEffect (kind amount : Nat) (s : State) : Option (AccountRec × Nat × Nat) :=
  let a := s.accountNow
  if kind = 1 then
    let rc := a.recovery s.config.account.rate amount
    (a.credit s.config.account amount).map fun r => (r, amount - rc, rc)
  else (a.setDebt amount).map fun r => (r, 0, 0)

def State.takeCode (s : State) : State :=
  if s.mayTake then
    match s.acct.queue with
    | .code kind amount sequence :: rest =>
      match s.codeEffect kind amount with
      | some (r, applied, recovered) =>
        s.takeInto rest (.codeEffect r sequence ⟨some .ok, some kind, some sequence, applied, recovered, []⟩)
      | none =>
        let s1 := s.onAcct fun a => { a with queue := rest }
        if s1.awaitsCode then s1.endCode .overflow (refusedResult .overflow (some kind) (some sequence)) else s1
    | _ => s
  else s

/-- TAKE_CODE_ENTRY (R68). -/
def execTakeCodeEntry (s : State) : Host.Outcome State Fault Refusal := .next s.takeCode

/-! ### Emergency (R61) -/

/-- An EMERGENCY request joins the queue; in HALTED with the account record failed nothing is taken, and it is NOT-ALLOWED
(R73, R185). HOLDUP is judged first, in HALTED too (DEDUCED, log entry 13). -/
def State.examineEmergency (s : State) : State :=
  if s.holdup then s.answer .power s.emergencyBody
  else if !s.sound .account then s.answer .notAllowed s.emergencyBody
  else (s.onAcct fun a => { a with queue := a.queue ++ [.emergency] }).await

/-- EMERGENCY (R61). -/
def execEmergency (s : State) : Host.Outcome State Fault Refusal := .next (s.onRequest 0x12 [] State.examineEmergency)

/-- The four conditions of R61. -/
def State.emergencyAllowed (s : State) : Bool :=
  s.inService && s.config.account.emergency != 0 &&
    decide (s.store.recs.account.balance ≤ s.config.account.low) && !s.store.recs.account.emergency

def State.takeEmergency (s : State) : State :=
  if s.mayTake then
    match s.acct.queue with
    | .emergency :: rest =>
      if s.emergencyAllowed then s.takeInto rest (.emergencyTaken { s.accountNow with emergency := true })
      else
        let s1 := s.onAcct fun a => { a with queue := rest }
        if s1.awaits 0x12 then s1.answer .notAllowed s1.emergencyBody else s1
    | _ => s
  else s

/-- TAKE_EMERGENCY_ENTRY (R61). -/
def execTakeEmergencyEntry (s : State) : Host.Outcome State Fault Refusal := .next s.takeEmergency

/-! ### Entry into service (R72, R181) -/

def State.takeEntry (s : State) : State :=
  if s.mayTake then
    match s.acct.queue with
    | .entry :: rest => s.takeInto rest .entry
    | _ => s
  else s

/-- TAKE_ENTRY_ENTRY (R72). -/
def execTakeEntryEntry (s : State) : Host.Outcome State Fault Refusal := .next s.takeEntry

def Purpose.isEntry : Purpose → Bool
  | .entry => true
  | _ => false

/-- A record but for its onset time. -/
def EvRecord.untimed (r : EvRecord) : EvRecord := { r with onset := none }

/-- The tamper unit's log and slots at the completion (R165): the log that was stored, unless the ACTIVE records have changed
since the write started; slots in which the blocks up to now are the pre-blocks. What differs from the stored records is written
again, and each ACTIVE record appended makes its notice (R160). -/
def State.tamperEntry (s : State) : State :=
  let stored := s.store.recs.evidence
  let now := s.entryLog
  let ev := if now.1.log.map EvRecord.untimed = stored.log.map EvRecord.untimed && now.1.next == stored.next then stored
    else now.1
  let slots := if s.mains then now.2 else now.2.map (Option.map Slot.completed)
  let s1 := s.onTam fun t => { t with evidence := ev, slots := slots }
  let s2 := if ev != stored || slots != s.store.recs.snapshot then
    s1.request (.evidenceLog (ev != stored) (slots != s.store.recs.snapshot)) else s1
  ev.log.foldl (fun x r => x.notifyEvidence r.cls) s2

/-- The part is IN-SERVICE (R181). -/
def entryWritten (_ : Write) (s : State) : State :=
  let s1 := (((s.onSup fun u => { u with supply := { u.supply with trips := [], backoff := none } }).tamperEntry).onLife
    fun v => { v with state := .inService, window := none }).pend .life
  let s2 := (((s1.creditTest true).handHold .load false).judgeTamper).releaseHeld
  if s2.awaits 0x29 then s2.answer .ok s2.commissionBody else s2

/-- ENTRY_WRITE_COMPLETE (R181). -/
def execEntryWriteComplete (s : State) : Host.Outcome State Fault Refusal :=
  .next (s.complete Purpose.isEntry entryWritten)

end Sys2Proof.Machine
end

