-- ==== Sys2Proof/Machine/Clock.lean ====
section
/-! DEFINITION. The meter clock's steps (chapter 2) and the ends that come when the clock reaches a kept value: a tariff's
activation (R48), a lockout's end (R91), a back-off's end (R128). -/

namespace Sys2Proof.Machine

/-- The meter clock takes a value. -/
def State.setClock (t : Nat) (s : State) : State :=
  s.onBackup fun b => { b with retained := { b.retained with clock := t } }

/-- The backup domain's clock runs, and has not come to its largest value (R29). -/
def State.clockRuns (s : State) : Bool := s.backup.retained.intact && decide (s.clock < maxClock)

/-- The friendly state is evaluated at an event that begins a new minute (R40). -/
def State.newMinute (s : State) : State := if s.clock % 60 = 0 then s.evalFriendly else s

/-! ### Activation of a pending tariff (R48) -/

/-- The activation test finds a READY tariff due. -/
def State.activationDue (s : State) : Bool :=
  match s.store.recs.tariff.pending with
  | .ready _ t _ => s.alive && s.mains && s.clockValid && decide (t ≤ s.clock) && !s.tariffBusy
  | _ => false

def State.activate (s : State) : State := if s.activationDue then s.request .tariffActivation else s

/-- TARIFF_ACTIVATION (R48). -/
def execTariffActivation (s : State) : Host.Outcome State Fault Refusal := .next s.activate

def Purpose.isActivation : Purpose → Bool
  | .tariffActivation => true
  | _ => false

def activationWritten (_ : Write) (s : State) : State := s.evalFriendly.pend .tariff

/-- TARIFF_ACTIVATION_COMPLETE (R48). -/
def execTariffActivationComplete (s : State) : Host.Outcome State Fault Refusal :=
  .next (s.complete Purpose.isActivation activationWritten)

/-! ### The end of a lockout (R91) -/

/-- The end time a re-arming under way gives (R92). -/
def Purpose.rearmedTo : Purpose → Option Nat
  | .lockoutRearm t => some t
  | _ => none

/-- The end time of the lockout in force, if one is: the stored one, or the one a re-arming under way is to store (R92). -/
def State.lockoutUntil (s : State) : Option Nat :=
  s.store.recs.code.lockEnd.map fun t =>
    ((s.store.flight.map Write.purpose ++ s.store.waiting).findSome? Purpose.rearmedTo).getD t

def Purpose.isLockoutEnd : Purpose → Bool
  | .lockoutEnd => true
  | _ => false

/-- The code unit finds the clock at or beyond the lockout end time, in MAINS, and its ending write is not yet asked for. -/
def State.lockoutDue (s : State) : Bool :=
  match s.lockoutUntil with
  | some t => s.alive && s.mains && s.sound .code && s.reached t && !s.writing Purpose.isLockoutEnd
  | none => false

def State.lockoutReached (s : State) : State := if s.lockoutDue then s.request .lockoutEnd else s

/-- LOCKOUT_END (R91). -/
def execLockoutEnd (s : State) : Host.Outcome State Fault Refusal := .next s.lockoutReached

/-- CODE-ATTACK ends; its latch stays. -/
def lockoutWritten (_ : Write) (s : State) : State :=
  if s.tam.codeAttack then (s.onTam fun t => { t with codeAttack := false }).latchEnd .codeAttack else s

/-- LOCKOUT_END_WRITE_COMPLETE (R91). -/
def execLockoutEndWriteComplete (s : State) : Host.Outcome State Fault Refusal :=
  .next (s.complete Purpose.isLockoutEnd lockoutWritten)

/-! ### The end of a back-off (R128) -/

/-- The test itself, the end having been brought in. -/
def State.backoffTest (s : State) : State :=
  match s.sup.supply.backoff with
  | some b =>
    if s.reached b.until_ then
      (((s.onSup fun u => { u with supply := { u.supply with backoff := none } }).handHold .load false).request .supplyRecord)
    else s
  | none => s

def State.backoffReached (s : State) : State :=
  if s.alive && s.mains then s.bringInBackoff.backoffTest else s

/-- BACKOFF_END (R128). -/
def execBackoffEnd (s : State) : Host.Outcome State Fault Refusal := .next s.backoffReached

/-! ### The tests on the clock, and its second -/

/-- What is tested at each clock-second event, when a SET-TIME takes effect, at a return to MAINS and at the end of every start:
the day boundary (R42), a READY tariff (R48), a lockout (R91) and a back-off (R128), in this order (DESIGN CHOICE, log entry 10). -/
def State.clockTests (s : State) : State := s.compareDay.activate.lockoutReached.backoffReached

/-- The clock gains a second; while the main domain works, in MAINS or HOLDUP, the event reaches the calendar unit (R29) and the
blocks that keep an end as a clock value, in a start too (DEDUCED, log entry 24). The friendly state, and CREDIT with it, comes
before the tests, and LOAD with them (DESIGN CHOICE, log entry 43). -/
def State.secondPasses (s : State) : State :=
  if s.clockRuns then
    let s1 := s.setClock (s.clock + 1)
    if s.works then s1.newMinute.clockTests else s1
  else s

/-- CLOCK_SECOND (R29). -/
def execClockSecond (s : State) : Host.Outcome State Fault Refusal := .next s.secondPasses

/-! ### SET-TIME (R32 to R36) -/

/-- The remaining time of a lockout in force at the examination (R92). -/
def State.lockoutLeft (s : State) : Option Nat := s.lockoutUntil.map (· - s.clock)

/-- A SET-TIME in IN-SERVICE with the clock VALID is within the allowance (R35). -/
def State.withinAllowance (value : Nat) (s : State) : Bool :=
  decide (value ≤ s.clock + 300) && decide (s.clock ≤ value + 300) &&
    (match s.store.recs.days.adjustDay with
      | none => true
      | some d => decide (d < dayOf s.clock))

/-- A SET-TIME is taken: its days-record write is requested. -/
def State.takeSetTime (value : Nat) (adjustDay : Option Nat) (s : State) : State :=
  s.await.request (.setTime value s.time (if s.clockValid then 0 else 1) adjustDay s.lockoutLeft)

/-- A SET-TIME is refused CLOCK-LIMIT, which is a CLOCK-STEP event (R35). -/
def State.refuseSetTime (value : Nat) (s : State) : State :=
  let s1 := s.clockStep s.time value 2
  s1.answer .clockLimit s1.setTimeBody

/-- The examination of R32. -/
def State.examineSetTime (value : Nat) (s : State) : State :=
  if s.life.state = .halted then s.answer .state s.setTimeBody
  else if maxClock < value then s.answer .badValue s.setTimeBody
  else if s.holdup then s.answer .power s.setTimeBody
  else if s.life.state ≠ .inService then s.takeSetTime value none
  else if !s.clockValid then s.takeSetTime value (some (dayOf value))
  else if s.withinAllowance value then s.takeSetTime value (some (dayOf value))
  else s.refuseSetTime value

/-- SET_TIME (R32). -/
def execSetTime (value : BitVec 32) (s : State) : Host.Outcome State Fault Refusal :=
  .next (s.onRequest 0x20 (beBytes 4 value.toNat) (State.examineSetTime value.toNat))

def Purpose.isSetTime : Purpose → Bool
  | .setTime _ _ _ _ _ => true
  | _ => false

/-- The clock becomes VALID at a value, and CLOCK-INVALID ends (R30). -/
def State.clockSet (value : Nat) (s : State) : State :=
  (s.onBackup fun b => { b with retained := { b.retained with clock := value, valid := true } }).endFault .clockInvalid

/-- The new value takes effect (R36): the friendly state, and CREDIT with it, before the tests on the clock (DESIGN CHOICE, log
entry 43). -/
def setTimeWritten (w : Write) (s : State) : State :=
  match w.purpose with
  | .setTime value prior outcome _ _ =>
    let s1 := (((s.clockSet value).clockStep prior value outcome).evalFriendly).clockTests
    if s1.awaits 0x20 then s1.answer .ok s1.setTimeBody else s1
  | _ => s

/-- SET_TIME_WRITE_COMPLETE (R36). -/
def execSetTimeWriteComplete (s : State) : Host.Outcome State Fault Refusal :=
  .next (s.complete Purpose.isSetTime setTimeWritten)

end Sys2Proof.Machine
end

