-- ==== Sys2Proof/Machine/Codes.lean ====
section
/-! DEFINITION. Top-up codes (chapter 4): the digit buffer, the submission and its eight steps, counted failures and
acceptance. -/

namespace Sys2Proof.Machine

/-! ### The arithmetic of a code (R83 to R86) -/

/-- A 30-bit half. -/
def halfSize : Nat := 1073741824

/-- The number that decimal digits spell, most significant first. -/
def ofDigits (l : List Byte) : Nat := l.foldl (fun acc d => acc * 10 + d.toNat) 0

/-- The check digits agree with the first 18 (R83). -/
def checkOk (digits : List Byte) : Bool := ofDigits (digits.drop 18) == ofDigits (digits.take 18) % 97

/-- The round function F (R84). -/
def roundF (x k : Nat) : Nat :=
  let y := (x + k) % halfSize * 40503 % halfSize
  y * 128 % halfSize + y / 8388608

/-- The round key r of a code key, 1 to 4 (R84). -/
def roundKey (key : BitVec 120) (r : Nat) : Nat := key.toNat / halfSize ^ (4 - r) % halfSize

/-- One round forward, as the vending system scrambles (R84). -/
def scrambleRound (k : Nat) (h : Nat × Nat) : Nat × Nat := (h.2, h.1 ^^^ roundF h.2 k)

/-- One round undone (R84). -/
def unscrambleRound (k : Nat) (h : Nat × Nat) : Nat × Nat := (h.2 ^^^ roundF h.1 k, h.1)

def halves (n : Nat) : Nat × Nat := (n / halfSize, n % halfSize)
def joinHalves (h : Nat × Nat) : Nat := h.1 * halfSize + h.2

/-- What the vending system prints of a code word. -/
def scramble (key : BitVec 120) (u : Nat) : Nat :=
  joinHalves (scrambleRound (roundKey key 4) (scrambleRound (roundKey key 3) (scrambleRound (roundKey key 2)
    (scrambleRound (roundKey key 1) (halves u)))))

/-- Step 3: the code word of a scrambled number (R84). -/
def unscramble (key : BitVec 120) (n : Nat) : Nat :=
  joinHalves (unscrambleRound (roundKey key 1) (unscrambleRound (roundKey key 2) (unscrambleRound (roundKey key 3)
    (unscrambleRound (roundKey key 4) (halves n)))))

/-- The fields of a code word (R85). -/
def codeKind (u : Nat) : Nat := u / 2 ^ 56 % 16
def codeSequence (u : Nat) : Nat := u / 2 ^ 40 % 65536
def codeAmount (u : Nat) : Nat := u / 2 ^ 16 % 16777216
def codeCheck (u : Nat) : Nat := u % 65536

/-- The ten bytes authenticated: the serial, then kind, sequence and amount followed by four zero bits (R85). -/
def codeMessage (serial : BitVec 32) (u : Nat) : List Byte := beBytes 4 serial.toNat ++ beBytes 6 (u / 65536 * 16)

/-- Step 4 (R85). -/
def authentic (serial : BitVec 32) (u : Nat) : Bool := (crc16 0 (codeMessage serial u)).toNat == codeCheck u

/-- Step 5 (R86). -/
def kindOk (u : Nat) : Bool := decide (1 ≤ codeKind u) && decide (codeKind u ≤ 5) && decide (1 ≤ codeSequence u)

/-- Step 6 (R87): the refusal, if any. -/
def listRefusal (accepted : List Nat) (sequence : Nat) : Option Status :=
  if accepted.contains sequence then some .used
  else if accepted.length = 32 ∧ sequence < accepted.headD 0 then some .stale
  else none

/-! ### Effects handed over (R93 to R96) -/

/-- A submission is refused at once: the result and the reply. -/
def State.refuseCode (st : Status) (kind sequence : Option Nat) (s : State) : State :=
  s.endCode st (refusedResult st kind sequence)

/-- A counted failure: its write is requested, and the reply waits for it (R89). -/
def State.countCode (st : Status) (kind sequence : Option Nat) (s : State) : State :=
  s.await.request (.counted st kind sequence s.clock)

/-- The result of an accepted code. -/
def acceptedResult (kind sequence amount : Nat) (held : List EvClass) : CodeResult :=
  ⟨some .ok, some kind, some sequence, amount, 0, held⟩

/-- The classes a mask names (R94). -/
def namedClasses (mask : Nat) : List EvClass := allClasses.filter fun c => mask.testBit (c.number - 1)

/-- The named latched classes whose condition is absent, and those that are held (R156). -/
def State.classesToClear (mask : Nat) (s : State) : List EvClass :=
  (namedClasses mask).filter fun c => isLatched s.tam.evidence.log c && !s.tam.condition c

def State.classesHeld (mask : Nat) (s : State) : List EvClass :=
  (namedClasses mask).filter fun c => isLatched s.tam.evidence.log c && s.tam.condition c

def State.takeClearTamper (mask sequence : Nat) (s : State) : State :=
  let classes := s.classesToClear mask
  ((s.onTam fun t => { t with clearing := classes }).await).request
    (.clearTamper classes sequence s.time (acceptedResult 2 sequence 0 (s.classesHeld mask)))

/-- The duration an OPEN-SERVICE code gives (R96). -/
def serviceMinutes (amount : Nat) : Nat := clampNat 1 240 amount

/-- Step 8: the effect goes to its owner. -/
def State.handEffect (kind sequence amount : Nat) (s : State) : State :=
  match kind with
  | 2 => s.takeClearTamper amount sequence
  | 3 =>
    s.await.request (.setLimit (if amount = 0 then none else some amount) sequence (acceptedResult 3 sequence amount []))
  | 4 =>
    s.await.request (.openService (serviceMinutes amount) sequence (acceptedResult 4 sequence (serviceMinutes amount) []))
  | _ => (s.onAcct fun a => { a with queue := a.queue ++ [.code kind (amount * 10) sequence] }).await

/-! ### The examination (R80 to R88) -/

/-- Steps 4 to 8, on the code word. -/
def State.examineWord (u : Nat) (s : State) : State :=
  let kind := codeKind u
  let sequence := codeSequence u
  if !authentic s.store.recs.identity.serial u then s.countCode .auth none none
  else if !kindOk u then s.countCode .kind (some kind) (some sequence)
  else match listRefusal s.store.recs.code.accepted sequence with
    | some st => s.refuseCode st (some kind) (some sequence)
    | none =>
      if s.life.state = .commissioning then s.refuseCode .state (some kind) (some sequence)
      else s.handEffect kind sequence (codeAmount u)

/-- A submission of 20 digits (R80, R81). -/
def State.submit (digits : List Byte) (s : State) : State :=
  if s.life.state = .halted then s.refuseCode .state none none
  else if !s.store.recs.identity.installed then s.refuseCode .state none none
  else if s.holdup then s.refuseCode .power none none
  else if s.store.recs.code.lockEnd.isSome then s.refuseCode .locked none none
  else if !checkOk digits then s.refuseCode .check none none
  else s.examineWord (unscramble s.store.recs.identity.key (ofDigits (digits.take 18)))

/-! ### Keystrokes (R75 to R78) -/

/-- The buffer's contents; the pause timer runs while it holds a digit (R77). -/
def State.setDigits (l : List Byte) (s : State) : State :=
  s.onCode fun c => { c with digits := l, pauseRunning := !l.isEmpty }

/-- A keystroke's reply with the digit count. -/
def State.answerDigits (st : Status) (s : State) : State := s.answer st s.digitBody

/-- A digit key (R75): a full buffer stays as it is, and the pause timer restarts. -/
def State.keyDigit (key : Byte) (s : State) : State :=
  if s.code.digits.length < 20 then (s.setDigits (s.code.digits ++ [key])).answerDigits .ok
  else (s.setDigits s.code.digits).answerDigits .full

def State.keyClear (s : State) : State := (s.setDigits []).answerDigits .ok
def State.keyBack (s : State) : State := (s.setDigits s.code.digits.dropLast).answerDigits .ok

/-- ENTER submits the buffer and empties it (R78). -/
def State.keyEnter (s : State) : State :=
  let s1 := s.setDigits []
  if s.code.digits.length < 20 then s1.refuseCode .format none none else s1.submit s.code.digits

/-- A CODE-KEY request: STATE in HALTED, with the body of its key; BAD-VALUE for a value that names no key. -/
def State.examineKey (key : Byte) (s : State) : State :=
  if s.life.state = .halted then s.answer .state (if key = 0x0C then s.codeBody else s.digitBody)
  else if key.toNat ≤ 9 then s.keyDigit key
  else if key = 0x0A then s.keyClear
  else if key = 0x0B then s.keyBack
  else if key = 0x0C then s.keyEnter
  else s.answerDigits .badValue

/-- CODE_KEY_DIGIT (R75). -/
def execCodeKeyDigit (key : Byte) (s : State) : Host.Outcome State Fault Refusal :=
  .next (s.onRequest 0x10 [key] (State.examineKey key))

/-- CODE_KEY_CLEAR (R76). -/
def execCodeKeyClear (s : State) : Host.Outcome State Fault Refusal :=
  .next (s.onRequest 0x10 [0x0A] (State.examineKey 0x0A))

/-- CODE_KEY_BACK (R76). -/
def execCodeKeyBack (s : State) : Host.Outcome State Fault Refusal :=
  .next (s.onRequest 0x10 [0x0B] (State.examineKey 0x0B))

/-- CODE_KEY_ENTER (R78). -/
def execCodeKeyEnter (s : State) : Host.Outcome State Fault Refusal :=
  .next (s.onRequest 0x10 [0x0C] (State.examineKey 0x0C))

/-- The pause timer has run 30 s (R77). -/
def State.pauseExpires (s : State) : State :=
  if s.linkUp && s.code.pauseRunning then (s.setDigits []).pend .keypad else s

/-- PAUSE_TIMER_EXPIRY (R77). -/
def execPauseTimerExpiry (s : State) : Host.Outcome State Fault Refusal := .next s.pauseExpires

/-- CODE-ENTER breaks any keyed entry; a digit value above 9 is FORMAT (R79). -/
def State.examineEnter (digits : List Byte) (s : State) : State :=
  let s1 := s.setDigits []
  if digits.any fun d => decide (9 < d.toNat) then s1.refuseCode .format none none else s1.submit digits

/-- CODE_ENTER (R79). -/
def execCodeEnter (digits : List Byte) (s : State) : Host.Outcome State Fault Refusal :=
  .next (s.onRequest 0x11 digits (State.examineEnter digits))

/-! ### Completions (R89, R90, R93) -/

def Purpose.isCounted : Purpose → Bool
  | .counted _ _ _ _ => true
  | _ => false

/-- The write that starts a lockout hands over the onset of CODE-ATTACK with the level (R90, R146). -/
def State.attackBegins (s : State) : State :=
  if s.store.recs.code.lockEnd.isSome then
    (s.onTam fun t => { t with codeAttack := true }).latchOnset .codeAttack none (some (s.store.recs.code.level : Int))
  else s

def countedWritten (w : Write) (s : State) : State :=
  match w.purpose with
  | .counted st kind sequence _ =>
    let s1 := s.attackBegins
    if s1.awaitsCode then s1.refuseCode st kind sequence else s1.setResult (refusedResult st kind sequence)
  | _ => s

/-- COUNTED_FAILURE_WRITE_COMPLETE (R90). -/
def execCountedFailureWriteComplete (s : State) : Host.Outcome State Fault Refusal :=
  .next (s.complete Purpose.isCounted countedWritten)

def Purpose.isAcceptance : Purpose → Bool
  | .codeEffect _ _ _ | .clearTamper _ _ _ _ | .setLimit _ _ _ | .openService _ _ _ => true
  | _ => false

/-- The clearing comes about in working state (R156): EVIDENCE notices, the hold and penalty judged, held arrivals taken. -/
def State.clearLatches (classes : List EvClass) (sequence : Nat) (time : Option Nat) (s : State) : State :=
  let s1 := s.onTam fun t => { t with evidence := t.evidence.clearing classes sequence time }
  ((classes.foldl (fun x c => x.notifyEvidence c) s1).judgeTamper).releaseHeld

/-- A window opens or is renewed (R182). -/
def State.openWindow (minutes sequence : Nat) (s : State) : State :=
  let s1 := s.onLife fun v => { v with state := .serviceWindow, window := some sequence, timer := some minutes }
  if s.life.state = .serviceWindow then s1 else s1.pend .life

/-- The effect of an accepted code, and its result. -/
def acceptEffect (w : Write) (s : State) : State × CodeResult :=
  match w.purpose with
  | .codeEffect _ _ r => (s.creditTest false, r)
  | .clearTamper classes sequence time r => (s.clearLatches classes sequence time, r)
  | .setLimit limit _ r => (s.onSw fun x => { x with record := { x.record with codeLimit := limit } }, r)
  | .openService minutes sequence r => (s.openWindow minutes sequence, r)
  | _ => (s, s.code.last)

def acceptWritten (w : Write) (s : State) : State :=
  let r := acceptEffect w s
  if r.1.awaitsCode then r.1.endCode .ok r.2 else r.1.setResult r.2

/-- CODE_ACCEPT_WRITE_COMPLETE (R93). -/
def execCodeAcceptWriteComplete (s : State) : Host.Outcome State Fault Refusal :=
  .next (s.complete Purpose.isAcceptance acceptWritten)

end Sys2Proof.Machine
end

