-- ==== Sys2Proof/Machine/Starts.lean ====
section
/-! DEFINITION. Starts (sections 8.4, 9.5 and the chapters' start rules): the classification, the check of the durable
records, each block's start work, the start write, and the end of a start. -/

namespace Sys2Proof.Machine

/-! ### Classification (R172, R173) -/

/-- The retained memory as a cold start initialises it (R173). -/
def Retained.initialised (r : Retained) : Retained :=
  { intact := true, clock := 0, valid := false, outageStart := none, offMark := true, coldMark := true
    cover := ⟨0, none, r.cover.isOpen⟩, term := ⟨0, none, r.term.isOpen⟩ }

/-- The cause of a start that has no outage to record. -/
def StartCause.kind (c : StartCause) (choice : Nat) : StartKind :=
  match c with
  | .resetLine => .resetLine
  | .restart => .restart
  | .supply => if choice % 2 = 0 then .restart else .resetLine

/-- The kind of a start (R172). The manual names no kind for a supply return with the marks clear: it is free (log entry 4). -/
def Retained.kind (r : Retained) (cause : StartCause) (choice : Nat) : StartKind :=
  if !r.intact then .cold
  else if r.offMark then (if r.coldMark then .cold else .warm)
  else cause.kind choice

/-- A start of the kind records an outage (R172). -/
def recordsOutage : StartKind → Bool
  | .cold => true
  | .warm => true
  | _ => false

/-- What the completed start write of a start of the kind clears in the retained memory (R174): the slots and the marks, and at a
WARM or COLD start the outage start time. A RESTART or RESET-LINE start has made that absent at its beginning, and one that a
HOLDUP has written since stays (R170). -/
def Retained.cleared (r : Retained) (kind : StartKind) : Retained :=
  { r with
    outageStart := if recordsOutage kind then none else r.outageStart, offMark := false, coldMark := false
    cover := { r.cover with count := 0, first := none }, term := { r.term with count := 0, first := none } }

/-- A start write in flight. -/
def Purpose.isStartWrite : Purpose → Bool
  | .startWrite => true
  | _ => false

/-- The durable store lets what is in flight complete while no block works (R175, R176); a start write clears the retained
memory as it completes. -/
def State.absorb (s : State) : State :=
  let s1 := if s.store.flight.any fun w => w.purpose.isStartWrite
    then s.onBackup fun b => { b with retained := b.retained.cleared b.lastStart } else s
  s1.onStore Store.completeAll

/-- The writes permitted in HOLDUP that wait when an abandoned start is begun afresh: they follow the one in flight, with the
values as they stand (R22, R168), so that the start finds the residue record valid again with the values restored before (R26;
DEDUCED, log entry 31). -/
def State.waitingPermitted (s : State) : List Write :=
  match s.backup.domain with
  | .abandoned _ => (s.store.waiting.filter Purpose.permittedInHoldup).map fun p => ⟨p, p.puts s⟩
  | _ => []

/-- What the durable store has stored when a start begins (R175): what was in flight, and the permitted writes that waited. -/
def State.absorbAtStart (s : State) : State := s.absorb.onStore fun st => s.waitingPermitted.foldl Store.commit st

/-- The retained memory with which a start of the kind works. -/
def Retained.atStart (r : Retained) (kind : StartKind) : Retained :=
  let r1 := if r.intact then r else r.initialised
  if recordsOutage kind then r1 else { r1 with outageStart := none }

/-! ### The check of the durable records (R184) -/

def haltingRecords : List Record := [.config, .identity, .life, .account, .code]
def reinitRecords : List Record := [.days, .tariff, .evidence, .snapshot, .switch, .supply]

/-- The record's values when it is reinitialised. -/
def Records.reinit (r : Records) : Record → Records
  | .days => { r with days := .shipped }
  | .tariff => { r with tariff := .shipped }
  | .evidence => { r with evidence := .shipped }
  | .snapshot => { r with snapshot := freeSlots }
  | .switch => { r with switch := .shipped }
  | .supply => { r with supply := .shipped }
  | _ => r

/-- A record fails at this start: a cut write left it so, or the store finds it so now. -/
def State.fails (s : State) (found : StartReadings) (r : Record) : Bool := s.store.bad.contains r || found.failed.contains r

/-- Life control checks every record (R184): the failed halting records are kept as unsound and left as they are; the others
are reinitialised. A record that is to be written stays marked until it has been. STORE-FAULT is raised before STORE-REPAIRED
(DESIGN CHOICE, log entry 44). -/
def State.checkRecords (found : StartReadings) (s : State) : State :=
  let halting := haltingRecords.filter (s.fails found)
  let repaired := reinitRecords.filter (s.fails found)
  let marked := (reinitRecords ++ [Record.residue]).filter fun r => found.failed.contains r && !s.store.bad.contains r
  let s1 := s.onStore fun st => { st with
    recs := repaired.foldl Records.reinit st.recs, bad := st.bad ++ marked, unsound := halting }
  let stored := s.store.recs.life.state
  let state : LifeState :=
    if !halting.isEmpty then .halted else if stored = .serviceWindow then .inService else stored
  let s2 := s1.onLife fun v => { v with state := state, window := none, repaired := repaired }
  let s3 := if halting.isEmpty then s2 else s2.raiseFault .storeFault
  if repaired.isEmpty then s3 else s3.raiseFault .storeRepaired

/-! ### Metrology, supervision and switch at a start -/

/-- The residue record is restored when it is valid (R26); the first block opens (R2, R24). -/
def State.startMetrology (found : StartReadings) (s : State) : State :=
  if s.fails found .residue || !s.store.recs.residue.valid then
    s.onReg fun r => { r with established := true, blockOpen := true }
  else s.onReg fun r => { r with acc := s.store.recs.residue.acc, established := false, blockOpen := true }

/-- The supply record at a start (R129, R174). -/
def SupplyRec.atStart (r : SupplyRec) (kind : StartKind) (clock : Nat) : SupplyRec :=
  let r1 : SupplyRec := if kind = .cold then
    { r with trips := [], backoff := r.backoff.map fun b => ⟨clock + b.period, b.period⟩ } else r
  if recordsOutage kind then { r1 with outages := saturate 65535 (r1.outages + 1) } else r1

def State.startSupervision (kind : StartKind) (s : State) : State :=
  s.onSup fun _ => .begin (s.store.recs.supply.atStart kind s.clock)

/-- The switch record is read, FAULT placed or withdrawn (R185), and the position sensed (R119). FAULT stands as the start leaves it
before the sensed position is judged (DESIGN CHOICE, log entry 42). -/
def State.startSwitch (s : State) : State :=
  s.onSw fun w => { w with
    record := { s.store.recs.switch with holds := s.store.recs.switch.holds.put .fault (s.life.state == .halted) }
    sensing := some .atStart }

/-! ### The tamper unit at a start (R164) -/

/-- The slot a record names holds that record's number. -/
def EvRecord.ownsSlot (slots : List (Option Slot)) (r : EvRecord) : Bool :=
  match r.slot with
  | none => true
  | some k => match slots.getD k none with
    | some sl => sl.number == r.number
    | none => false

/-- Step 3, slots: a slot whose number names no record is freed; so is one whose record names another slot or none, since a slot
in use is named by its record (R162; DEDUCED, log entry 49). -/
def freeOrphans (log : List EvRecord) (slots : List (Option Slot)) : List (Option Slot) :=
  slots.zipIdx.map fun x => match x with
    | (some sl, k) => if log.any fun r => r.number == sl.number && r.slot == some k then some sl else none
    | (none, _) => none

/-- Steps 3 and 5 on a record. -/
def EvRecord.atStart (slots : List (Option Slot)) (r : EvRecord) : EvRecord :=
  let r1 := if r.ownsSlot slots then r else { r with slot := none }
  if r1.state = .active then { r1 with state := .ended, finish := none } else r1

/-- Steps 1 to 5 of R164; an ACTIVE record that becomes ENDED makes its notice (R160). -/
def State.repairLog (s : State) : State :=
  let log := s.store.recs.evidence.log
  let slots := freeOrphans log s.store.recs.snapshot
  let s1 := s.onTam fun _ => .begin { s.store.recs.evidence with log := log.map (EvRecord.atStart slots) }
    (slots.map (Option.map Slot.completed))
  (log.filter fun r => r.state = .active).foldl (fun x r => x.notifyEvidence r.cls) s1

/-- The OUTAGE event (R151, R174). -/
def State.recordOutage (kind : StartKind) (s : State) : State :=
  if recordsOutage kind then
    let cold : Bool := kind == StartKind.cold
    s.appendRecord { blankRecord .outage .ended (if cold then none else s.backup.retained.outageStart) with
      finish := if cold then none else s.time
      value := some (if cold then 1 else 0) }
  else s

/-- A cover slot's conversion (R140). -/
def State.convertSlot (which : Cover) (slot : CoverSlot) (s : State) : State :=
  let c := which.cls
  if slot.count = 0 || !(s.policy c).detect then s
  else if isLatched s.tam.evidence.log c then
    (s.editLog fun r =>
      if r.cls = c ∧ r.state = .opened then { r with repeats := saturate 65535 (r.repeats + slot.count) } else r).notifyEvidence c
  else s.appendRecord { blankRecord c .opened slot.first with repeats := slot.count - 1, onBattery := true }

/-- A first reading of a cover or of MAG: an onset unless the class is already latched (R140, R141). -/
def State.firstReading (c : EvClass) (present : Bool) (value : Option Int) (s : State) : State :=
  if present && !isLatched s.tam.evidence.log c then s.latchOnset c none value else s

/-- A lockout in force at the start (R146); none where the code record has failed (DESIGN CHOICE, log entry 52). -/
def State.lockedOut (s : State) : Bool := s.sound .code && s.store.recs.code.lockEnd.isSome

/-- Step 6 of R164, the first readings, and CODE-ATTACK, in the order COVER, TERM, MAG, CODE-ATTACK (DESIGN CHOICE, log entry
53). -/
def State.startTamper (kind : StartKind) (found : StartReadings) (s : State) : State :=
  let s1 := ((s.repairLog.recordOutage kind).convertSlot .main s.backup.retained.cover).convertSlot .terminal
    s.backup.retained.term
  let s2 := s1.onTam fun t => { t with
    coverOpen := found.coverOpen, termOpen := found.termOpen, magnet := found.magAsserted, codeAttack := s.lockedOut }
  (((s2.firstReading .coverOpen found.coverOpen none).firstReading .terminalOpen found.termOpen none).firstReading .magnet
    found.magAsserted none).firstReading .codeAttack s.lockedOut (some (s.store.recs.code.level : Int))

/-! ### The writes of a start -/

/-- A start write is due: at a WARM or COLD start, and where a cover slot is used (R174). -/
def Retained.startWriteDue (r : Retained) (kind : StartKind) : Bool := recordsOutage kind || r.cover.count != 0 || r.term.count != 0

/-- One request when it is called for. -/
def whenDue (due : Bool) (p : Purpose) : List Purpose := if due then [p] else []

/-- The writes the blocks request at a start, in the order requested. -/
def State.startRequests (kind : StartKind) (due : Bool) (s : State) : List Purpose :=
  let r := s.store.recs
  let bad := s.store.bad
  whenDue (s.sound .life && r.life.state == .serviceWindow) .lifeRecord ++
  whenDue (bad.contains .days) (.reinitialised .days) ++
  whenDue (bad.contains .tariff) (.reinitialised .tariff) ++
  whenDue (!s.reg.established) (.residue false false) ++
  whenDue (bad.contains .switch || s.sw.record != r.switch) .switchRecord ++
  whenDue (kind == .cold && s.lockedOut) (.lockoutRearm (s.clock + lockoutPeriod r.code.level)) ++
  (if due then [.startWrite]
   else
    (match bad.contains .evidence || s.tam.evidence != r.evidence, bad.contains .snapshot || s.tam.slots != r.snapshot with
      | false, false => []
      | ev, snap => [.evidenceLog ev snap]) ++
    whenDue (bad.contains .supply || s.sup.supply != r.supply) .supplyRecord)

/-! ### A start begins (R172) -/

/-- The domain from which a start may begin, and its cause. -/
def Domain.cause : Domain → Option StartCause
  | .off => some .supply
  | .awaiting c => some c
  | .abandoned c => some c
  | _ => none

/-- CLOCK-INVALID is present while the clock is INVALID (R30). -/
def State.startClock (s : State) : State := if s.clockValid then s else s.raiseFault .clockInvalid

/-- A start begins: nothing is in flight, the power state is MAINS, the retained memory is examined, and every block does its
start work; the writes that calls for are then requested together. -/
def State.beginStart (cause : StartCause) (found : StartReadings) (s : State) : State :=
  let s0 := s.absorbAtStart
  let kind := s0.backup.retained.kind cause (Config.free s.fresh)
  let ret := s0.backup.retained.atStart kind
  let due := ret.startWriteDue kind
  let s1 := ((s0.onBackup fun _ =>
    { power := .mains, limitExpired := false, domain := .starting cause due, lastStart := kind
      retained := ret }).useFree 1).loseWorking
  let s2 := (((((s1.checkRecords found).startMetrology found).startSupervision kind).startSwitch).startTamper kind
    found).startClock
  (s2.onStore fun st => { st with flight := [], waiting := s2.startRequests kind due }).pump

/-- Once the hold-up limit has expired the main domain is switched off first, though the supply is good (R167). -/
def State.startWith (found : StartReadings) (s : State) : State :=
  match s.backup.limitExpired, s.backup.domain.cause with
  | false, some cause => s.beginStart cause found
  | _, _ => s

/-- START (R172). -/
def execStart (found : StartReadings) (s : State) : Host.Outcome State Fault Refusal := .next (s.startWith found)

/-! ### The end of a start (R172, R73, R119, R129, R164, R193) -/

/-- The friendly state is handed over whether or not it changed (R40), and the credit test made (R73). -/
def State.endCalendar (s : State) : State :=
  (s.onCal fun c => { c with friendly := s.clockValid && s.tariff.friendlyAt s.clock }).creditTest true

/-- The end-of-start tests, handovers and notices. CREDIT is handed over first, then LOAD as the back-off test leaves it, then
TAMPER (DESIGN CHOICE, log entry 43). -/
def State.finishStart (s : State) : State :=
  let s1 := (s.onBackup fun b => { b with domain := .running }).onLink fun l => { l with receiver := .waitHigh }
  let s2 := s1.endCalendar.clockTests
  let s3 := (s2.handHold .load s2.sup.supply.backoff.isSome).judgeTamper
  (((s3.pend .life).pend .power).pend .switch).restartSilence

/-- The start ends when the position has been sensed and the start write, where one is due, has completed. -/
def State.tryEndStart (s : State) : State :=
  match s.backup.domain with
  | .starting _ false => if s.sw.sensing = some .atStart then s else s.finishStart
  | _ => s

/-- The start write completes (R174). -/
def startWritten (_ : Write) (s : State) : State :=
  (s.onBackup fun b => { b with
    retained := b.retained.cleared b.lastStart
    domain := match b.domain with
      | .starting c _ => .starting c false
      | d => d }).tryEndStart

/-- START_WRITE_COMPLETE (R174). -/
def execStartWriteComplete (s : State) : Host.Outcome State Fault Refusal :=
  .next (s.complete Purpose.isStartWrite startWritten)

end Sys2Proof.Machine
end

