-- ==== Sys2Proof/Machine/Contactor.lean ====
section
/-! DEFINITION. The supply switch's steps (chapter 5): pulses, verification, acknowledgement, REMOTE-HOLD, RELAY-RETRY and
position sensing. -/

namespace Sys2Proof.Machine

/-! ### Pulses and verification (R108 to R111) -/

/-- The phases whose LS a closing needs, fixed at the pulse start (R109). -/
def State.neededPhases (s : State) : Tri Bool := if s.sw.state = .closing then s.presentPhases else .all3 false

/-- An attempt's pulse starts with the timings then in force (R108). -/
def State.startPulse (s : State) : State :=
  if s.alive && s.mains && s.sw.progress == .waiting && s.sw.drive == .none && s.reg.last.isSome then
    s.onSw fun w => { w with
      drive := if w.state = .closing then .closeLine else .openLine
      progress := .blanking ⟨s.config.switch.blanking, s.config.switch.window, s.neededPhases, 0⟩ }
  else s

/-- COIL_PULSE_START (R108). -/
def execCoilPulseStart (s : State) : Host.Outcome State Fault Refusal := .next s.startPulse

/-- The blanking time ends: a condition that holds begins an interval then (R109). -/
def State.endBlanking (s : State) : State :=
  match s.sw.progress with
  | .blanking a =>
    s.onSw fun w => { w with
      progress := .watching { a with now := max a.now a.blanking }
        (if confirms w.state a.need w.ls then some a.blanking else none) false }
  | _ => s

/-- BLANKING_END (R109). -/
def execBlankingEnd (s : State) : Host.Outcome State Fault Refusal := .next s.endBlanking

/-- The confirming interval after the LS inputs have changed: begun inside the window, kept, or broken (R109). -/
def intervalAfter (holds past : Bool) (now window : Nat) (since : Option Nat) : Option Nat :=
  if holds then
    match since with
    | some t => some t
    | none => if !past && decide (now < window) then some now else none
  else none

/-- The LS inputs change; in verification an interval begins or breaks, and a break after the window fails the attempt. -/
def State.lsChanges (ls : Tri Bool) (ms : Nat) (s : State) : State :=
  let s1 := s.onSw fun w => { w with ls := ls }
  match s.sw.progress with
  | .watching a since past =>
    let now := max ms a.now
    let next := intervalAfter (confirms s.sw.state a.need ls) past now a.window since
    let s2 := s1.onSw fun w => { w with progress := .watching { a with now := now } next past }
    if past && since.isSome && next.isNone then s2.attemptFails else s2
  | _ => s1

/-- LS_INPUT_CHANGE (R109). -/
def execLsInputChange (ls : Tri Bool) (ms : Nat) (s : State) : Host.Outcome State Fault Refusal :=
  .next (s.lsChanges ls ms)

/-- The interval has lasted 20 ms: the operation completes now, or when its pulse ends (R111). -/
def State.confirm (s : State) : State :=
  match s.sw.progress with
  | .watching _ (some t) _ =>
    if s.sw.drive = .none then s.completeOperation t else s.onSw fun w => { w with progress := .confirmed t }
  | _ => s

/-- ATTEMPT_CONFIRMED (R109). -/
def execAttemptConfirmed (s : State) : Host.Outcome State Fault Refusal := .next s.confirm

/-- A pulse runs its full width, whatever has become of its attempt (R108). -/
def State.endPulse (s : State) : State :=
  if s.sw.drive = .none then s
  else
    let s1 := s.onSw fun w => { w with drive := .none }
    match s.sw.progress with
    | .confirmed t => s1.completeOperation t
    | _ => s1

/-- COIL_PULSE_END (R108). -/
def execCoilPulseEnd (s : State) : Host.Outcome State Fault Refusal := .next s.endPulse

/-- The window ends: with no interval running the attempt fails; an interval that runs goes on (R110). A pulse is never wider
than the window (R121), so its end is taken first. -/
def State.endWatch (s : State) : State :=
  match s.sw.progress with
  | .watching a since false =>
    if s.sw.drive ≠ .none then s
    else match since with
      | none => s.attemptFails
      | some t => s.onSw fun w => { w with progress := .watching { a with now := max a.now a.window } (some t) true }
  | _ => s

/-- VERIFICATION_WINDOW_END (R110). -/
def execVerificationWindowEnd (s : State) : Host.Outcome State Fault Refusal := .next s.endWatch

/-- One second after an operation's end, RELAY-BYPASS counting resumes (R145). -/
def State.endSuspension (s : State) : State :=
  if s.tam.suspended && (s.sw.progress == .idle || s.sw.progress == .abandoned) then
    s.onTam fun t => { t with suspended := false }
  else s

/-- BYPASS_SUSPENSION_END (R145). -/
def execBypassSuspensionEnd (s : State) : Host.Outcome State Fault Refusal := .next s.endSuspension

/-! ### Acknowledgement (R113, R114) -/

/-- A press is an acknowledgement in ARMED with MAINS, and ignored otherwise. -/
def State.press (s : State) : State :=
  if s.alive && s.mains && s.sw.state == .armed then s.beginOperation .closing else s

/-- BUTTON_PRESS (R113). -/
def execButtonPress (s : State) : Host.Outcome State Fault Refusal := .next s.press

def State.examineReconnect (s : State) : State :=
  if s.sw.state ≠ .armed then s.answer .notArmed s.switchBody
  else if s.holdup then s.answer .power s.switchBody
  else
    let s1 := s.beginOperation .closing
    s1.answer .ok s1.switchBody

/-- RECONNECT (R114). -/
def execReconnect (s : State) : Host.Outcome State Fault Refusal :=
  .next (s.onRequest 0x13 [] State.examineReconnect)

/-! ### REMOTE-HOLD (R103) -/

/-- The examination of a REMOTE-HOLD: a choice that changes nothing is answered at once. -/
def State.examineRemote (choice : Byte) (s : State) : State :=
  if s.life.state = .halted then s.answer .state s.switchBody
  else if s.holdup then s.answer .power s.switchBody
  else if 1 < choice.toNat then s.answer .badValue s.switchBody
  else if s.sw.record.holds.remote = (choice == 1) then s.answer .ok s.switchBody
  else s.await.handHold .remote (choice == 1)

/-- REMOTE_HOLD_SET (R103). -/
def execRemoteHoldSet (choice : Byte) (s : State) : Host.Outcome State Fault Refusal :=
  .next (s.onRequest 0x21 [choice] (State.examineRemote choice))

/-- REMOTE_HOLD_CLEAR (R103). -/
def execRemoteHoldClear (s : State) : Host.Outcome State Fault Refusal :=
  .next (s.onRequest 0x21 [0] (State.examineRemote 0))

def Purpose.isSwitchRecord : Purpose → Bool
  | .switchRecord => true
  | _ => false

/-- The choice a REMOTE-HOLD in hand carries is the one now stored. -/
def State.remoteStored (s : State) : Bool :=
  match s.link.inHand with
  | some h => s.store.recs.switch.holds.remote == (h.payload.headD 0 == 1)
  | none => false

/-- The write that carries a REMOTE-HOLD's change answers it. -/
def switchWritten (_ : Write) (s : State) : State :=
  if s.awaits 0x21 && s.remoteStored then s.answer .ok s.switchBody else s

/-- SWITCH_RECORD_WRITE_COMPLETE (R103). -/
def execSwitchRecordWriteComplete (s : State) : Host.Outcome State Fault Refusal :=
  .next (s.complete Purpose.isSwitchRecord switchWritten)

/-! ### RELAY-RETRY and sensing (R117 to R120) -/

/-- The state leaves JAMMED for an operation. -/
def State.retryInto (target : SwitchState) (s : State) : State :=
  let s1 := s.leaveJammed.beginOperation target
  s1.answer .ok s1.switchBody

def State.examineRetry (s : State) : State :=
  if s.sw.state ≠ .jammed then s.answer .state s.switchBody
  else if s.holdup then s.answer .power s.switchBody
  else if !s.sw.record.holds.isEmpty then s.retryInto .opening
  else if !s.ackRequired then s.retryInto .closing
  else (s.onSw fun w => { w with sensing := some .forRetry }).await

/-- RELAY_RETRY (R117). -/
def execRelayRetry (s : State) : Host.Outcome State Fault Refusal :=
  .next (s.onRequest 0x22 [] State.examineRetry)

/-- The position has been sensed over 20 ms (R118), for the rule that called for it. -/
def State.sensed (s : State) : State :=
  if s.alive && s.mains then
    match s.sw.sensing with
    | none => s
    | some .atStart => s.setSensed.tryEndStart
    | some .atDip => s.setSensed
    | some .forRetry =>
      let s1 := s.leaveJammed.setSensed
      s1.answer .ok s1.switchBody
  else s

/-- POSITION_SENSING_END (R118). -/
def execPositionSensingEnd (s : State) : Host.Outcome State Fault Refusal := .next s.sensed

end Sys2Proof.Machine
end

