-- ==== Sys2Proof/Machine/Metrology.lean ====
section
/-! DEFINITION. Metrology (chapter 1) and the load-limit judgement of a block (sections 6.1 to 6.3): the block result, the
five stages of registration, and what the neighbours do with the summary. -/

namespace Sys2Proof.Machine

/-! ### The block result (R3) -/

structure BlockResult where
  power : Tri Int
  v2 : Tri Nat
  i2 : Tri Nat
  n2 : Nat
  r2 : Nat
  same : List Bool
deriving DecidableEq, Repr

def square (z : Int) : Nat := z.natAbs * z.natAbs

/-- The sum over a block's sample sets of a signed quantity. -/
def sumInt (f : SampleSet → Int) (l : List SampleSet) : Int := l.foldl (fun acc x => acc + f x) 0

/-- The sum over a block's sample sets of a squared quantity. -/
def sumSquare (f : SampleSet → Int) (l : List SampleSet) : Nat := l.foldl (fun acc x => acc + square (f x)) 0

/-- All samples of a channel have the same code. -/
def identical (f : SampleSet → BitVec 16) : List SampleSet → Bool
  | [] => true
  | x :: rest => rest.all fun y => f y == f x

def blockResult (l : List SampleSet) : BlockResult :=
  { power := ⟨sumInt (fun x => x.v.p1.toInt * x.i.p1.toInt) l, sumInt (fun x => x.v.p2.toInt * x.i.p2.toInt) l,
      sumInt (fun x => x.v.p3.toInt * x.i.p3.toInt) l⟩
    v2 := ⟨sumSquare (fun x => x.v.p1.toInt) l, sumSquare (fun x => x.v.p2.toInt) l, sumSquare (fun x => x.v.p3.toInt) l⟩
    i2 := ⟨sumSquare (fun x => x.i.p1.toInt) l, sumSquare (fun x => x.i.p2.toInt) l, sumSquare (fun x => x.i.p3.toInt) l⟩
    n2 := sumSquare (fun x => x.n.toInt) l
    r2 := sumSquare (fun x => x.i.p1.toInt + x.i.p2.toInt + x.i.p3.toInt + x.n.toInt) l
    same := [identical (fun x => x.v.p1) l, identical (fun x => x.v.p2) l, identical (fun x => x.v.p3) l,
      identical (fun x => x.i.p1) l, identical (fun x => x.i.p2) l, identical (fun x => x.i.p3) l,
      identical (fun x => x.n) l] }

/-! ### Stages 1 to 4 -/

/-- T of R4: the scaled power sum and the residue. -/
def energyTotal (power : Int) (gain residue : Nat) : Nat := power.natAbs * gain + residue

/-- The measured energy (R4). -/
def measured (power : Int) (gain residue : Nat) : Nat := energyTotal power gain residue / 4294967296

/-- The new residue (R4). -/
def newResidue (power : Int) (gain residue : Nat) : Nat := energyTotal power gain residue % 4294967296

/-- An RMS value (R6). -/
def rmsValue (sum k : Nat) : Nat := min 8388607 (isqrt (sum / 256) * k / 65536)

/-- A channel's stuck count after a block (R8). -/
def stuckAfter (count : Nat) (same : Bool) : Nat := if same then min 16 (count + 1) else 0

/-- Some channel is stuck. -/
def anyStuck (counts : List Nat) : Bool := counts.any (· == 16)

/-- The estimated energy of a current (R11, R12). -/
def estimate (vNom current : Nat) : Nat := vNom * current / 5760

/-- The registered energy of a phase (R11): the greatest of the terms that apply. -/
def registeredEnergy (m : MeasureSettings) (energy irms : Nat) (fixed cut : Bool) : Nat :=
  max energy (max (if fixed then m.eSub else 0) (if cut then estimate m.vNom irms else 0))

/-- An accumulator in µWh gives out whole watt-hours (R5, R13, R14): what is left, and how many. -/
def giveOut (acc gain : Nat) : Nat × Nat := ((acc + gain) % 1000000, (acc + gain) / 1000000)

/-- What one block registers. -/
structure Registered where
  acc : Accumulators
  stuck : List Nat
  summary : Summary
  total : Nat
  quanta : Nat
  reverse : Tri Nat
  substituted : Nat
deriving DecidableEq, Repr

/-- What the registration unit reads of its neighbours for a block (R10, R18). -/
structure BlockInputs where
  magnet : Bool
  cut : Tri Bool
  residual : Bool
  mag : Bool
  switch : SwitchState
deriving DecidableEq, Repr

/-- Registration of one block (R4 to R14, R18). -/
def registerBlock (cal : CalSettings) (m : MeasureSettings) (inp : BlockInputs) (acc : Accumulators) (counts : List Nat)
    (b : BlockResult) : Registered :=
  let energy : Tri Nat :=
    ⟨measured b.power.p1 cal.g.p1 acc.residue.p1, measured b.power.p2 cal.g.p2 acc.residue.p2,
     measured b.power.p3 cal.g.p3 acc.residue.p3⟩
  let residue : Tri Nat :=
    ⟨newResidue b.power.p1 cal.g.p1 acc.residue.p1, newResidue b.power.p2 cal.g.p2 acc.residue.p2,
     newResidue b.power.p3 cal.g.p3 acc.residue.p3⟩
  let reversed := b.power.map fun p => decide (p < 0)
  let vrms := b.v2.zip rmsValue cal.kV
  let irms := b.i2.zip rmsValue cal.kI
  let residual := rmsValue b.r2 cal.kR
  let stuck := List.zipWith stuckAfter counts b.same
  let stuckI : Tri Bool := ⟨stuck.getD 3 0 == 16, stuck.getD 4 0 == 16, stuck.getD 5 0 == 16⟩
  let registered : Tri Nat :=
    ⟨registeredEnergy m energy.p1 irms.p1 (inp.magnet || stuckI.p1) inp.cut.p1,
     registeredEnergy m energy.p2 irms.p2 (inp.magnet || stuckI.p2) inp.cut.p2,
     registeredEnergy m energy.p3 irms.p3 (inp.magnet || stuckI.p3) inp.cut.p3⟩
  let eRes := if inp.residual && m.residualBilling then estimate m.vNom residual else 0
  let total := registered.sum + eRes
  let rev := (acc.reverse.zip giveOut (reversed.zip (fun r e => if r then e else 0) energy))
  let sub := giveOut acc.substituted ((registered.zip (· - ·) energy).sum + eRes)
  let q := giveOut acc.q total
  { acc := ⟨residue, q.1, rev.map Prod.fst, sub.1⟩
    stuck := stuck
    summary :=
      { phases :=
          ⟨⟨vrms.p1, irms.p1, registered.p1, reversed.p1⟩, ⟨vrms.p2, irms.p2, registered.p2, reversed.p2⟩,
           ⟨vrms.p3, irms.p3, registered.p3, reversed.p3⟩⟩
        neutral := rmsValue b.n2 cal.kN, residual := residual, mag := inp.mag, switch := inp.switch }
    total := total, quanta := q.2, reverse := rev.map Prod.snd, substituted := sub.2 }

/-! ### Quanta and increments reach the account unit (R51, R52, R17) -/

def Entry.isQuanta : Entry → Bool
  | .quanta _ _ => true
  | _ => false

/-- n quanta are added to the newest QUANTA entry. -/
def mergeNewest (n : Nat) : List Entry → List Entry
  | [] => []
  | .quanta t k :: rest =>
    if rest.any Entry.isQuanta then .quanta t k :: mergeNewest n rest else .quanta t (k + n) :: rest
  | e :: rest => e :: mergeNewest n rest

/-- The quanta of a block join the queue as one entry, or the newest one when 14 are queued (R51). -/
def joinQuanta (time : Option Nat) (n : Nat) (queue : List Entry) : List Entry :=
  if n = 0 then queue
  else if 14 ≤ (queue.filter Entry.isQuanta).length then mergeNewest n queue
  else queue ++ [.quanta time n]

/-- Increments join the pending counts, which saturate (R52). -/
def addPending (a n : Nat) : Nat := saturate 65535 (a + n)

/-- The account unit takes what a block issued; with its record failed it takes nothing (R73), and in HALTED increments set
the pending counts to 0 (R57). -/
def State.acctTakes (r : Registered) (s : State) : State :=
  if !s.sound .account then s
  else
    let s1 := s.onAcct fun a => { a with queue := joinQuanta s.time r.quanta a.queue }
    if s.life.state = .halted then s1.onAcct fun a => { a with pendingReverse := .all3 0, pendingSubstituted := 0 }
    else s1.onAcct fun a => { a with
      pendingReverse := a.pendingReverse.zip addPending r.reverse
      pendingSubstituted := addPending a.pendingSubstituted r.substituted }

/-! ### Load supervision of a block (R123 to R127) -/

/-- A block is over limit (R124): exact, in integers. -/
def overLimit (limit total : Nat) : Bool := limit != 0 && decide (limit * 1000000 < total * 57600)

/-- A trip (R126). -/
def State.trip (s : State) : State :=
  let trips := lastN 3 (s.sup.supply.trips ++ [s.clock])
  let period := backoffPeriod trips s.clock
  ((s.onSup fun u => { u with
    overCount := 0
    supply := { u.supply with trips := trips, backoff := some ⟨s.clock + period, period⟩ } }).handHold .load true).request
      .supplyRecord

/-- The supervision unit takes a block (R125). -/
def State.superviseBlock (switch : SwitchState) (total : Nat) (s : State) : State :=
  if s.inService && switch == .closed && overLimit s.effectiveLimit total then
    if s.config.switch.persistence ≤ s.sup.overCount + 1 then s.trip
    else s.onSup fun u => { u with overCount := saturate 1024 (u.overCount + 1) }
  else s.onSup fun u => { u with overCount := 0 }

/-! ### A block completes -/

/-- CHANNEL-STUCK is raised when the first channel becomes stuck and ends when the last recovers (R9). -/
def State.judgeStuck (before after : List Nat) (s : State) : State :=
  if !anyStuck before && anyStuck after then s.raiseFault .channelStuck
  else if anyStuck before && !anyStuck after then s.endFault .channelStuck
  else s

/-- The registration unit takes a block result, and the neighbours the summary (R10, R20). -/
def State.register (b : BlockResult) (mag : Bool) (s : State) : State :=
  let inp : BlockInputs :=
    { magnet := s.tam.magnet, cut := s.tam.voltageCut.map Persist.present, residual := s.tam.residual.present, mag := mag
      switch := s.sw.state }
  let r := registerBlock s.config.cal s.config.measure inp s.reg.acc s.reg.stuck b
  let s1 := (s.onReg fun g => { g with
    acc := r.acc, stuck := r.stuck, trace := lastN 8 (g.trace ++ [r.summary]), last := some r.summary }).judgeStuck
      s.reg.stuck r.stuck
  ((s1.acctTakes r).tamperTakes r.summary).superviseBlock s.sw.state r.total

/-- A block of 256 sample sets completes in MAINS while a block is open (R2); before the residue record has been established
it is discarded (R24). -/
def State.blockDone (samples : List SampleSet) (mag : Bool) (s : State) : State :=
  if s.alive && s.mains && s.reg.blockOpen && s.reg.established && samples.length == 256 then
    s.register (blockResult samples) mag
  else s

/-- BLOCK_COMPLETE (R2). -/
def execBlockComplete (samples : List SampleSet) (mag : Bool) (s : State) : Host.Outcome State Fault Refusal :=
  .next (s.blockDone samples mag)

/-! ### The residue record (R23, R26, R205) -/

/-- An invalidating write establishes the residues; a valid write made for a RESTART answers it. -/
def residueWritten (w : Write) (s : State) : State :=
  match w.purpose with
  | .residue false _ => s.onReg fun r => { r with established := true }
  | .residue true true => if s.awaits 0x2B then s.answer .ok [] else s
  | _ => s

/-- RESIDUE_WRITE_COMPLETE (R26). -/
def execResidueWriteComplete (s : State) : Host.Outcome State Fault Refusal :=
  .next (s.complete Purpose.isResidue residueWritten)

end Sys2Proof.Machine
end

