-- ==== Sys2Proof/Machine/Power.lean ====
section
/-! DEFINITION. Supply loss, dips, the backup domain and the reset line (chapter 8), with every block's response to the change
to HOLDUP and to the return. -/

namespace Sys2Proof.Machine

/-! ### The change to HOLDUP (R166) -/

/-- The power state becomes HOLDUP, and the outage start time is written unless an unrecorded outage is pending (R170). -/
def State.enterHoldup (s : State) : State :=
  s.onBackup fun b => { b with
    power := .holdup, limitExpired := false
    retained := if b.retained.offMark then b.retained
      else { b.retained with outageStart := if b.retained.valid then some b.retained.clock else none } }

/-- What becomes of a request whose write is dropped: refused POWER, with its body and, for a code, its result. -/
inductive Dropped where
  | code (kind sequence : Option Nat)
  | other
deriving DecidableEq, Repr

/-- A purpose whose write was waiting, as the request of the kind in hand that it answers. -/
def Purpose.droppedFor (kind : Nat) : Purpose → Option Dropped
  | .counted _ _ _ _ => if kind = 0x10 ∨ kind = 0x11 then some (.code none none) else none
  | .codeEffect _ _ r => if kind = 0x10 ∨ kind = 0x11 then some (.code r.kind r.sequence) else none
  | .clearTamper _ _ _ r => if kind = 0x10 ∨ kind = 0x11 then some (.code r.kind r.sequence) else none
  | .setLimit _ _ r => if kind = 0x10 ∨ kind = 0x11 then some (.code r.kind r.sequence) else none
  | .openService _ _ r => if kind = 0x10 ∨ kind = 0x11 then some (.code r.kind r.sequence) else none
  | .emergencyTaken _ => if kind = 0x12 then some .other else none
  | .setTime _ _ _ _ _ => if kind = 0x20 then some .other else none
  | .tariffRequest _ _ _ _ => if 0x23 ≤ kind ∧ kind ≤ 0x26 then some .other else none
  | .config _ _ => if kind = 0x27 then some .other else none
  | .identity _ _ => if kind = 0x28 then some .other else none
  | .entry => if kind = 0x29 then some .other else none
  | .residue _ true => if kind = 0x2B then some .other else none
  | _ => none

/-- A queue entry of the account unit, likewise (R55). -/
def Entry.droppedFor (kind : Nat) : Entry → Option Dropped
  | .code k _ sequence => if kind = 0x10 ∨ kind = 0x11 then some (.code (some k) (some sequence)) else none
  | .emergency => if kind = 0x12 then some .other else none
  | .entry => if kind = 0x29 then some .other else none
  | _ => none

/-- The request in hand loses the work it waits for. -/
def State.droppedRequest (s : State) : Option (InHand × Dropped) :=
  match s.link.inHand with
  | some h =>
    if h.stage = .waiting then
      match s.store.waiting.findSome? (Purpose.droppedFor h.kind.toNat) with
      | some d => some (h, d)
      | none => (s.acct.queue.findSome? (Entry.droppedFor h.kind.toNat)).map fun d => (h, d)
    else none
  | none => none

/-- The body of an operator or customer request's reply, by its kind and payload (R204). -/
def State.bodyFor (s : State) (h : InHand) : List Byte :=
  match h.kind.toNat with
  | 0x10 | 0x11 => s.codeBody
  | 0x12 => s.emergencyBody
  | 0x20 => s.setTimeBody
  | 0x23 | 0x26 => s.pendingBody
  | 0x24 => s.tariffSectionBody (h.payload.headD 0).toNat
  | 0x25 => s.commitBody
  | 0x27 => s.writeConfigBody (h.payload.headD 0)
  | 0x28 => s.keyBody
  | 0x29 => s.commissionBody
  | _ => []

/-- The refusal POWER of the request that lost its work. -/
def State.refuseDropped (d : Option (InHand × Dropped)) (s : State) : State :=
  match d with
  | none => s
  | some (_, .code kind sequence) => s.refuseCode .power kind sequence
  | some (h, .other) => s.answer .power (s.bodyFor h)

/-- Writes that have not started are not made in HOLDUP, but for the permitted ones (R168). -/
def Store.dropWaiting (st : Store) : Store := { st with waiting := st.waiting.filter Purpose.permittedInHoldup }

def Purpose.isDay : Purpose → Bool
  | .dayBoundary _ _ _ => true
  | .dayAdoption _ => true
  | _ => false

/-- The account unit drops its queue and pending counts (R55); a boundary that is in flight stays outstanding (R43). -/
def State.dropQueue (s : State) : State :=
  (s.onAcct fun a => { a.clearPending with queue := [] }).onCal fun c =>
    { c with outstanding := c.outstanding && s.store.flight.any fun w => w.purpose.isDay }

/-- Every COLLECTING slot completes, and the snapshot record is written (R163). -/
def State.completeSlots (s : State) : State :=
  if s.tam.slots.any fun o => match o with
      | some sl => sl.collecting
      | none => false
  then (s.onTam fun t => { t with slots := t.slots.map (Option.map Slot.completed) }).request (.evidenceLog false true)
  else s

/-- A clearing or an entry whose write was dropped lets its held-back arrivals be taken (R156, R181). -/
def State.releaseDropped (s : State) : State :=
  let clearing := s.store.flight.any fun w => match w.purpose with
    | .clearTamper _ _ _ _ => true
    | _ => false
  let entering := s.store.flight.any fun w => w.purpose.isEntry
  if (!s.tam.clearing.isEmpty && !clearing) || (s.tam.entryHold && !entering) then s.releaseHeld else s

/-- A service window ends at the change to HOLDUP (R183). -/
def State.windowHoldup (s : State) : State := if s.life.state = .serviceWindow then s.endWindow else s

/-- Every block's response to the change to HOLDUP. -/
def State.respondHoldup (s : State) : State :=
  let dropped := s.droppedRequest
  let s1 := ((s.onStore Store.dropWaiting).dropQueue.onReg fun r => { r with blockOpen := false }).refuseDropped dropped
  let s2 := (s1.requestResidue true false).switchHoldup.releaseDropped.completeSlots.windowHoldup
  (s2.onLink fun l => { l with silenceRunning := false }).pend .power

/-- A start that has not ended is abandoned (R175). -/
def State.abandonStart (s : State) : State :=
  s.onBackup fun b => { b with domain := match b.domain with
    | .starting c _ => .abandoned c
    | d => d }

/-- A FAILING report taken in MAINS. Where no block works the backup monitor's part and the durable store's remain: a write that
was requested before and has not started is not made (R168). -/
def State.failing (s : State) : State :=
  if s.mains then
    if s.alive then s.enterHoldup.respondHoldup.abandonStart else s.enterHoldup.onStore Store.dropWaiting
  else s

/-- SUPPLY_FAILING (R166). -/
def execSupplyFailing (s : State) : Host.Outcome State Fault Refusal := .next s.failing

/-! ### The return to MAINS (R169) -/

/-- The retained memory at a dip. -/
def Retained.atDip (r : Retained) : Retained :=
  { r with
    outageStart := none
    cover := { r.cover with count := 0, first := none }, term := { r.term with count := 0, first := none } }

/-- A CLOSE-SERVICE waits for a life record write that was deferred (R183). -/
def State.closeWaits (s : State) : Bool := s.awaits 0x2A && !s.writing fun p => p.covers.contains .life

/-- The writes deferred in HOLDUP, of the life, days, tariff, evidence and snapshot records: where the working value differs
from the stored one, and where a reinitialised record has still to be written (R184). -/
def State.deferredRequests (s : State) : List Purpose :=
  whenDue (s.sound .life && (s.lifeRecord != s.store.recs.life || s.closeWaits)) .lifeRecord ++
  whenDue (s.store.bad.contains .days) (.reinitialised .days) ++
  whenDue (s.store.bad.contains .tariff) (.reinitialised .tariff) ++
  [.evidenceLog true (s.tam.slots != s.store.recs.snapshot || s.store.bad.contains .snapshot)]

/-- The deferred switch record write, made once the state has been judged (R101, R120): for a hold set or a code limit that
differs from the stored one, and for the operate time of a completion in HOLDUP whatever its value; a REMOTE-HOLD that waits for
it is answered when nothing is left to write. -/
def State.deferredSwitch (s : State) : State :=
  if s.sw.timesDue || s.sw.record != s.store.recs.switch || s.store.bad.contains .switch then
    (s.onSw fun w => { w with timesDue := false }).request .switchRecord
  else if s.awaits 0x21 && !s.writing fun p => p.covers.contains .switch then s.answer .ok s.switchBody
  else s

/-- A dip: no start takes place. The switch controller judges its state (R120) before the tests on the clock are made (R128)
(DESIGN CHOICE, log entry 51). Where the last start's invalidating write had not completed at the change to HOLDUP, blocks are
discarded until the one asked for here has (DESIGN CHOICE, log entry 59). -/
def State.dip (s : State) : State :=
  let s1 := ((s.onBackup fun b => { b with power := .mains, limitExpired := false, retained := b.retained.atDip }).onReg
    fun r => { r with blockOpen := true }).requestResidue false false
  let s2 := s1.onSup fun u => { u with supply := { u.supply with dips := saturate 65535 (u.supply.dips + 1) } }
  let s3 := (s2.deferredRequests.foldl (fun x p => x.request p) s2).request .supplyRecord
  ((s3.switchDip.deferredSwitch).clockTests.restartSilence).pend .power

/-- A GOOD report where no start follows at once: a dip in HOLDUP while the part runs; with the main domain held by the reset
line (in BATTERY too), or awaiting a start, the power state alone changes (R167, R176). Once the hold-up limit has expired the
report changes nothing (R167). With a RESTART in hand whose residue write has started, but whose reply has not been sent, the return
is a dip like any other (DESIGN CHOICE, log entry 60). -/
def State.supplyGood (s : State) : State :=
  if s.backup.limitExpired then s
  else if s.holdup then
    match s.backup.domain with
    | .running => s.dip
    | .held => s.onBackup fun b => { b with power := .mains }
    | .awaiting _ => s.onBackup fun b => { b with power := .mains }
    | _ => s
  else if s.backup.power = .battery ∧ s.backup.domain = .held then s.onBackup fun b => { b with power := .mains }
  else s

/-- SUPPLY_GOOD_DIP (R169). -/
def execSupplyGoodDip (s : State) : Host.Outcome State Fault Refusal := .next s.supplyGood

/-! ### The change to BATTERY (R167, R168) -/

def State.limitReached (s : State) : State :=
  if s.holdup then (s.onBackup fun b => { b with limitExpired := true }).settle else s

/-- HOLDUP_LIMIT_EXPIRY (R167). -/
def execHoldupLimitExpiry (s : State) : Host.Outcome State Fault Refusal := .next s.limitReached

/-- The supply collapses: writes in flight are cut. -/
def State.domainLost (s : State) : State :=
  if s.holdup then (s.onStore fun st => { st with bad := cutWrites st.bad st.flight }).toBattery else s

/-- MAIN_DOMAIN_LOSS (R167). -/
def execMainDomainLoss (s : State) : Host.Outcome State Fault Refusal := .next s.domainLost

def State.backupLost (s : State) : State :=
  if s.backup.power = .battery then s.onBackup fun b => { b with retained := { b.retained with intact := false } } else s

/-- BACKUP_DOMAIN_LOSS (R167). -/
def execBackupDomainLoss (s : State) : Host.Outcome State Fault Refusal := .next s.backupLost

/-- The level the slot's debounce has found: an opening counts when the input was last closed (R171). -/
def CoverSlot.seen (c : CoverSlot) (isOpen : Bool) (time : Option Nat) : CoverSlot :=
  if isOpen && !c.isOpen then { c.bump time with isOpen := true } else { c with isOpen := isOpen }

def State.batteryCover (which : Cover) (isOpen : Bool) (s : State) : State :=
  if s.backup.power = .battery && s.backup.retained.intact then
    s.onBackup fun b => { b with retained := match which with
      | .main => { b.retained with cover := b.retained.cover.seen isOpen s.time }
      | .terminal => { b.retained with term := b.retained.term.seen isOpen s.time } }
  else s

/-- BATTERY_COVER_OPENING (R171). -/
def execBatteryCoverOpening (which : Cover) (isOpen : Bool) (s : State) : Host.Outcome State Fault Refusal :=
  .next (s.batteryCover which isOpen)

/-! ### The reset line (R176) -/

/-- The line is asserted: a write in flight completes, and from then on no block works. A switch-off that waited for the writes
follows when the hold-up limit had expired. -/
def State.resetHeld (s : State) : State :=
  if s.backup.domain = .held then s
  else ((s.absorb.loseWorking).onBackup fun b => { b with domain := .held }).settle

/-- RESET_ASSERT (R176). -/
def execResetAssert (s : State) : Host.Outcome State Fault Refusal := .next s.resetHeld

/-- The line is released: a start is awaited, or the main domain is off while the power state is BATTERY. -/
def State.resetReleased (s : State) : State :=
  if s.backup.domain = .held then
    s.onBackup fun b => { b with domain := if b.power = .battery then .off else .awaiting .resetLine }
  else s

/-- RESET_RELEASE (R176). -/
def execResetRelease (s : State) : Host.Outcome State Fault Refusal := .next s.resetReleased

end Sys2Proof.Machine
end

