-- ==== Sys2Proof/Machine/Reads.lean ====
section
/-! DEFINITION. The reading requests and ECHO (R203): each is answered at once, from the values as they stand. -/

namespace Sys2Proof.Machine

/-- A selector in range is answered OK, any other BAD-VALUE (R203). -/
def selectStatus (inRange : Bool) : Status := if inRange then .ok else .badValue

/-- IDENTIFY (R203). -/
def execIdentify (s : State) : Host.Outcome State Fault Refusal :=
  .next (s.onRequest 0x01 [] fun x => x.answer .ok x.identifyBody)

/-- STATUS; with the clear-memory flag the reply carries the fault memory as it stood, which is then empty (R190). -/
def State.examineStatus (clearMemory : Byte) (s : State) : State :=
  let s1 := s.answer .ok s.statusBody
  if clearMemory = 0 then s1 else s1.onLife fun v => { v with memory := [] }

/-- STATUS (R203). -/
def execStatus (clearMemory : Byte) (s : State) : Host.Outcome State Fault Refusal :=
  .next (s.onRequest 0x02 [clearMemory] (State.examineStatus clearMemory))

/-- READ_INSTANT (R203). -/
def execReadInstant (s : State) : Host.Outcome State Fault Refusal :=
  .next (s.onRequest 0x03 [] fun x => x.answer .ok x.instantBody)

/-- READ_ENERGY (R74). -/
def execReadEnergy (s : State) : Host.Outcome State Fault Refusal :=
  .next (s.onRequest 0x04 [] fun x => x.answer .ok x.energyBody)

/-- READ_ACCOUNT (R74). -/
def execReadAccount (s : State) : Host.Outcome State Fault Refusal :=
  .next (s.onRequest 0x05 [] fun x => x.answer .ok x.accountBody)

def State.examineDays (index : Nat) (s : State) : State :=
  if index ≤ 30 then s.answer .ok (s.daysBody index) else s.answer .badValue [0]

/-- READ_DAYS (R203). -/
def execReadDays (index : Byte) (s : State) : Host.Outcome State Fault Refusal :=
  .next (s.onRequest 0x06 [index] (State.examineDays index.toNat))

/-- READ_EVIDENCE (R202). -/
def execReadEvidence (number : BitVec 32) (s : State) : Host.Outcome State Fault Refusal :=
  .next (s.onRequest 0x07 (beBytes 4 number.toNat) fun x => x.answer .ok (x.evidenceBody number.toNat))

def State.examineSnapshot (slot half : Nat) (s : State) : State :=
  if slot ≤ 3 ∧ half ≤ 1 then s.answer .ok (s.snapshotBody slot half) else s.answer .badValue [0]

/-- READ_SNAPSHOT (R203). -/
def execReadSnapshot (slot half : Byte) (s : State) : Host.Outcome State Fault Refusal :=
  .next (s.onRequest 0x08 [slot, half] (State.examineSnapshot slot.toNat half.toNat))

/-- READ_CODE_LIST (R203). -/
def execReadCodeList (s : State) : Host.Outcome State Fault Refusal :=
  .next (s.onRequest 0x09 [] fun x => x.answer .ok x.codeListBody)

def State.examineTariffRead (which sel : Nat) (s : State) : State :=
  if which ≤ 1 ∧ sel ≤ 5 then s.answer .ok (s.tariffBody which sel) else s.answer .badValue [0]

/-- READ_TARIFF (R203). -/
def execReadTariff (which sel : Byte) (s : State) : Host.Outcome State Fault Refusal :=
  .next (s.onRequest 0x0A [which, sel] (State.examineTariffRead which.toNat sel.toNat))

/-- READ_CONFIG (R203). -/
def execReadConfig (sel : Byte) (s : State) : Host.Outcome State Fault Refusal :=
  .next (s.onRequest 0x0B [sel] fun x => x.answer (selectStatus (sectionOf sel).isSome) (x.configBody sel))

/-- LINK-STATUS: the three counters become 0 as the reply is formed (R194). -/
def State.examineLinkStatus (s : State) : State :=
  (s.answer .ok s.linkStatusBody).onLink fun l => { l with gapErrors := 0, crcErrors := 0, formatErrors := 0 }

/-- LINK_STATUS (R194). -/
def execLinkStatus (s : State) : Host.Outcome State Fault Refusal :=
  .next (s.onRequest 0x0C [] State.examineLinkStatus)

/-- ECHO (R203). -/
def execEcho (payload : List Byte) (s : State) : Host.Outcome State Fault Refusal :=
  .next (s.onRequest 0x0D payload fun x => x.answer .ok payload)

end Sys2Proof.Machine
end

