-- ==== Sys2Proof/Machine/Service.lean ====
section
/-! DEFINITION. Life control (chapter 9): the service window, entry into service, the code key and the configuration. -/

namespace Sys2Proof.Machine

/-! ### The service window (R183) -/

def State.windowExpires (s : State) : State :=
  if s.running && s.life.state == .serviceWindow && s.life.timer.isSome then s.endWindow else s

/-- WINDOW_TIMER_EXPIRY (R183). -/
def execWindowTimerExpiry (s : State) : Host.Outcome State Fault Refusal := .next s.windowExpires

def State.examineCloseService (s : State) : State :=
  if s.life.state = .serviceWindow then s.await.endWindow else s.answer .state s.lifeBody

/-- CLOSE_SERVICE (R183). -/
def execCloseService (s : State) : Host.Outcome State Fault Refusal :=
  .next (s.onRequest 0x2A [] State.examineCloseService)

def Purpose.isLifeRecord : Purpose → Bool
  | .lifeRecord => true
  | _ => false

/-- The life record holds the life state as it stands, and no write of it is under way. -/
def State.lifeStored (s : State) : Bool :=
  s.store.recs.life == s.lifeRecord && !s.writing fun p => p.covers.contains .life

/-- The write that ends a window answers CLOSE-SERVICE (R183): not one that was asked for before the window's end. -/
def lifeWritten (_ : Write) (s : State) : State :=
  if s.awaits 0x2A && s.lifeStored then s.answer .ok s.lifeBody else s

/-- LIFE_RECORD_WRITE_COMPLETE (R183). -/
def execLifeRecordWriteComplete (s : State) : Host.Outcome State Fault Refusal :=
  .next (s.complete Purpose.isLifeRecord lifeWritten)

/-! ### Entry into service (R180, R181) -/

/-- What a taken CLOSE-COMMISSION does at once (R181). -/
def State.takeCommission (s : State) : State :=
  (((((s.onReg fun r => { r with acc := .zero }).onSup fun u => { u with overCount := 0 }).setDigits []).onAcct fun a =>
    { a with queue := a.queue ++ [.entry] }).onTam fun t => { t with entryHold := true }).await

/-- The six steps of R180. -/
def State.examineCommission (s : State) : State :=
  if s.life.state ≠ .commissioning then s.answer .state s.commissionBody
  else if s.holdup then s.answer .power s.commissionBody
  else if !s.store.recs.identity.installed then s.answer .notAllowed s.commissionBody
  else if !s.clockValid then s.answer .notAllowed s.commissionBody
  else if !s.store.recs.config.complete then s.answer .notAllowed s.commissionBody
  else if s.tam.latchingCondition then s.answer .condition s.commissionBody
  else s.takeCommission

/-- CLOSE_COMMISSION (R180). -/
def execCloseCommission (s : State) : Host.Outcome State Fault Refusal :=
  .next (s.onRequest 0x29 [] State.examineCommission)

/-! ### The code key (R179) -/

def State.examineInstall (serial : BitVec 32) (key : BitVec 120) (s : State) : State :=
  if s.life.state = .halted then s.answer .state s.keyBody
  else if s.life.state ≠ .commissioning then s.answer .authority s.keyBody
  else if s.store.recs.identity.installed then s.answer .notAllowed s.keyBody
  else if s.holdup then s.answer .power s.keyBody
  else s.await.request (.identity serial key)

/-- INSTALL_KEY (R179). -/
def execInstallKey (serial : BitVec 32) (key : BitVec 120) (s : State) : Host.Outcome State Fault Refusal :=
  .next (s.onRequest 0x28 (beBytes 4 serial.toNat ++ beBytes 15 key.toNat) (State.examineInstall serial key))

def Purpose.isIdentity : Purpose → Bool
  | .identity _ _ => true
  | _ => false

def identityWritten (_ : Write) (s : State) : State :=
  let s1 := s.pend .life
  if s1.awaits 0x28 then s1.answer .ok s1.keyBody else s1

/-- IDENTITY_WRITE_COMPLETE (R179). -/
def execIdentityWriteComplete (s : State) : Host.Outcome State Fault Refusal :=
  .next (s.complete Purpose.isIdentity identityWritten)

/-! ### WRITE-CONFIG (R187, R188) -/

/-- The section a value belongs to. -/
def SectionValue.sec : SectionValue → ConfigSection
  | .cal _ => .cal | .measure _ => .measure | .account _ => .account | .switch _ _ => .switch | .thermal _ => .thermal
  | .tamper _ => .tamper | .link _ => .link

/-- The selector byte of a section (R186). -/
def sectionByte : ConfigSection → Byte
  | .cal => 0 | .measure => 1 | .account => 2 | .switch => 3 | .thermal => 4 | .tamper => 5 | .link => 6

/-- The authority over a section by life state (R188). -/
def mayWrite (state : LifeState) (sec : ConfigSection) : Bool :=
  match state, sec with
  | .commissioning, _ => true
  | .serviceWindow, .cal => false
  | .serviceWindow, .tamper => false
  | .serviceWindow, _ => true
  | .inService, .link => true
  | _, _ => false

/-- A section that passes: its write is requested, with whether a field was clamped or a fixed value replaced. -/
def State.takeConfig (raw : SectionValue) (s : State) : State :=
  s.await.request (.config (clampSection raw) (clampSection raw != raw))

/-- The examination of R187. -/
def State.examineConfig (sel : Byte) (contents : List Byte) (s : State) : State :=
  match sectionOf sel with
  | none => s.answer .badValue (s.writeConfigBody sel)
  | some sec =>
    if s.life.state = .halted then s.answer .state (s.writeConfigBody sel)
    else if !mayWrite s.life.state sec then s.answer .authority (s.writeConfigBody sel)
    else if s.holdup then s.answer .power (s.writeConfigBody sel)
    else if !relationsHold s.store.recs.account.balance (clampSection (readSection sec contents)) then
      s.answer .badValue (s.writeConfigBody sel)
    else s.takeConfig (readSection sec contents)

/-- WRITE_CONFIG (R187). -/
def execWriteConfig (sel : Byte) (contents : List Byte) (s : State) : Host.Outcome State Fault Refusal :=
  .next (s.onRequest 0x27 (sel :: contents) (State.examineConfig sel contents))

def Purpose.isConfig : Purpose → Bool
  | .config _ _ => true
  | _ => false

/-- The new settings apply, each as its owning chapter gives (R50, R115, R123, R199). -/
def State.applyConfig (v : SectionValue) (s : State) : State :=
  match v with
  | .account _ => s.creditTest false
  | .switch _ hasLimit =>
    let s1 := if hasLimit then s.onSw fun w => { w with record := { w.record with codeLimit := none } } else s
    if s1.sw.state = .armed then s1.judgeRest else s1
  | .link _ => s.restartSilence
  | _ => s

def configWritten (w : Write) (s : State) : State :=
  match w.purpose with
  | .config v clamped =>
    let s1 := s.applyConfig v
    if s1.awaits 0x27 then s1.answer (if clamped then .clamped else .ok) (s1.writeConfigBody (sectionByte v.sec)) else s1
  | _ => s

/-- CONFIG_WRITE_COMPLETE (R187). -/
def execConfigWriteComplete (s : State) : Host.Outcome State Fault Refusal :=
  .next (s.complete Purpose.isConfig configWritten)

end Sys2Proof.Machine
end

