-- ==== Sys2Proof/Machine/TariffStore.lean ====
section
/-! DEFINITION. The tariff store's requests (R45 to R47), and the completion of the writes no other step completes. -/

namespace Sys2Proof.Machine

/-! ### Tariff requests -/

/-- A tariff request is examined (R46): it waits while a write of the tariff record is in hand (R48); then life state, power
state, and its own judgement. body forms the reply's body. -/
def State.tariffGuard (body : State → List Byte) (act : State → State) (s : State) : State :=
  if s.tariffBusy then s
  else match s.life.state with
    | .halted => s.answer .state (body s)
    | .inService => s.answer .authority (body s)
    | _ => if s.holdup then s.answer .power (body s) else act s

/-- A taken request that changes the pending tariff: one write. -/
def State.takeTariff (kind sel : Nat) (pending : Pending) (st : Status) (s : State) : State :=
  s.await.request (.tariffRequest kind sel pending st)

def State.examineBegin (s : State) : State :=
  s.tariffGuard State.pendingBody (State.takeTariff 0x23 0 (.building .none) .ok)

/-- TARIFF_BEGIN (R46). -/
def execTariffBegin (s : State) : Host.Outcome State Fault Refusal := .next (s.onRequest 0x23 [] State.examineBegin)

/-- TARIFF-SECTION in BUILDING: validated and, if it passes, stored (R45). -/
def State.storeSection (sel : Byte) (contents : List Byte) (s : State) : State :=
  match s.store.recs.tariff.pending with
  | .building parts =>
    match readTariffSection sel contents with
    | none => s.answer .badValue (s.tariffSectionBody sel.toNat)
    | some (v, clamped) =>
      s.takeTariff 0x24 sel.toNat (.building (parts.put v)) (if clamped then .clamped else .ok)
  | _ => s.answer .state (s.tariffSectionBody sel.toNat)

def State.examineSection (sel : Byte) (contents : List Byte) (s : State) : State :=
  s.tariffGuard (fun x => x.tariffSectionBody sel.toNat) (State.storeSection sel contents)

/-- TARIFF_SECTION (R45). -/
def execTariffSection (sel : Byte) (contents : List Byte) (s : State) : Host.Outcome State Fault Refusal :=
  .next (s.onRequest 0x24 (sel :: contents) (State.examineSection sel contents))

/-- TARIFF-COMMIT (R47). -/
def State.commitTariff (time ident : Nat) (s : State) : State :=
  match s.store.recs.tariff.pending with
  | .building parts =>
    if parts.complete then
      s.takeTariff 0x25 0 (.ready parts (min maxClock time) ident) (if maxClock < time then .clamped else .ok)
    else s.answer .incomplete s.commitBody
  | _ => s.answer .state s.commitBody

def State.examineCommit (time ident : Nat) (s : State) : State :=
  s.tariffGuard State.commitBody (State.commitTariff time ident)

/-- TARIFF_COMMIT (R47). -/
def execTariffCommit (time : BitVec 32) (ident : BitVec 16) (s : State) : Host.Outcome State Fault Refusal :=
  .next (s.onRequest 0x25 (beBytes 4 time.toNat ++ beBytes 2 ident.toNat) (State.examineCommit time.toNat ident.toNat))

/-- TARIFF-DISCARD; in EMPTY it changes nothing and is answered OK (R47). -/
def State.discardTariff (s : State) : State :=
  match s.store.recs.tariff.pending with
  | .empty => s.answer .ok s.pendingBody
  | _ => s.takeTariff 0x26 0 .empty .ok

def State.examineDiscard (s : State) : State := s.tariffGuard State.pendingBody State.discardTariff

/-- TARIFF_DISCARD (R47). -/
def execTariffDiscard (s : State) : Host.Outcome State Fault Refusal := .next (s.onRequest 0x26 [] State.examineDiscard)

def Purpose.isTariffRequest : Purpose → Bool
  | .tariffRequest _ _ _ _ => true
  | _ => false

/-- The body of a tariff request's reply, by its kind. -/
def State.tariffReply (s : State) (kind sel : Nat) : List Byte :=
  if kind = 0x24 then s.tariffSectionBody sel else if kind = 0x25 then s.commitBody else s.pendingBody

/-- The reply, and the activation test of a TARIFF-COMMIT taken (R48). -/
def tariffWritten (w : Write) (s : State) : State :=
  match w.purpose with
  | .tariffRequest kind sel _ st =>
    (if s.awaits (BitVec.ofNat 8 kind) then s.answer st (s.tariffReply kind sel) else s).activate
  | _ => s

/-- TARIFF_WRITE_COMPLETE (R46). -/
def execTariffWriteComplete (s : State) : Host.Outcome State Fault Refusal :=
  .next (s.complete Purpose.isTariffRequest tariffWritten)

/-! ### Writes no other step completes (R67, R129, R161, R184, R92) -/

/-- A day adoption, the evidence and snapshot records, the supply record, a reinitialised record, a lockout re-armed. -/
def Purpose.isOther : Purpose → Bool
  | .dayAdoption _ | .evidenceLog _ _ | .supplyRecord | .reinitialised _ | .lockoutRearm _ => true
  | _ => false

/-- A completed adoption is no longer outstanding, and the comparison is made (R42). -/
def otherWritten (w : Write) (s : State) : State :=
  match w.purpose with
  | .dayAdoption _ => (s.onCal fun c => { c with outstanding := false }).compareDay
  | _ => s

/-- DURABLE_WRITE_COMPLETE (R161). -/
def execDurableWriteComplete (record : Record) (s : State) : Host.Outcome State Fault Refusal :=
  .next (s.complete (fun p => p.isOther && p.covers.contains record) otherWritten)

end Sys2Proof.Machine
end

