-- ==== Sys2Proof/Machine/Watch.lean ====
section
/-! DEFINITION. The cover and magnet inputs (R140, R141) and the slow scan (sections 6.5 to 6.7). -/

namespace Sys2Proof.Machine

/-! ### Covers and MAG -/

/-- The tamper unit watches its inputs in MAINS and HOLDUP once its first readings have been taken. -/
def State.watching (s : State) : Bool := s.works

/-- The condition of a cover. -/
def Tamper.coverSeen (t : Tamper) : Cover → Bool
  | .main => t.coverOpen
  | .terminal => t.termOpen

def State.setCover (which : Cover) (b : Bool) (s : State) : State :=
  s.onTam fun t => match which with
    | .main => { t with coverOpen := b }
    | .terminal => { t with termOpen := b }

def State.coverOpens (which : Cover) (s : State) : State :=
  if s.watching && !s.tam.coverSeen which then (s.setCover which true).coverOnset which else s

/-- COVER_OPEN_ONSET (R140). -/
def execCoverOpenOnset (which : Cover) (s : State) : Host.Outcome State Fault Refusal := .next (s.coverOpens which)

def State.coverCloses (which : Cover) (s : State) : State :=
  if s.watching && s.tam.coverSeen which then (s.setCover which false).latchEnd which.cls else s

/-- COVER_OPEN_END (R140). -/
def execCoverOpenEnd (which : Cover) (s : State) : Host.Outcome State Fault Refusal := .next (s.coverCloses which)

def State.magnetSeen (s : State) : State :=
  if s.watching && !s.tam.magnet then (s.onTam fun t => { t with magnet := true }).latchOnset .magnet none none else s

/-- MAGNET_ONSET (R141). -/
def execMagnetOnset (s : State) : Host.Outcome State Fault Refusal := .next s.magnetSeen

def State.magnetGone (s : State) : State :=
  if s.watching && s.tam.magnet then (s.onTam fun t => { t with magnet := false }).latchEnd .magnet else s

/-- MAGNET_END (R141). -/
def execMagnetEnd (s : State) : Host.Outcome State Fault Refusal := .next s.magnetGone

/-! ### Scan values (R130 to R132, R135) -/

/-- The value of a channel: the sum of its first 2^n conversions divided by 2^n, rounded down (R130). -/
def scanValue (n : Nat) (codes : List Nat) : Nat := (codes.take (2 ^ n)).sum / 2 ^ n

/-- Between points: the segment whose first point is the last one at or below x (R131). -/
def interpolate : List (Nat × Int) → Nat → Int
  | [], _ => 0
  | [p], _ => p.2
  | p :: q :: rest, x =>
    if x < q.1 then p.2 + quotToZero (((x : Int) - p.1) * (q.2 - p.2)) ((q.1 : Int) - p.1) else interpolate (q :: rest) x

/-- The temperature of a sensor value (R131). -/
def temperatureOf (table : List (Nat × Int)) (x : Nat) : Int :=
  match table with
  | [] => 0
  | p :: _ => if x ≤ p.1 then p.2 else interpolate table x

/-- A value at an end of the converter's range (R132). -/
def badCode (x : Nat) : Bool := decide (x ≤ 3) || decide (1020 ≤ x)

/-- A sensor after a scan (R132): marked for good, or converted. -/
def Sensor.scan (table : List (Nat × Int)) (x : Nat) (y : Sensor) : Sensor :=
  if badCode x then { y with faulty := true }
  else if y.faulty then y
  else { y with temperature := some (temperatureOf table x) }

/-- The good sensors' temperatures. -/
def Supervision.goodTemps (u : Supervision) : List Int :=
  [u.sensor1, u.sensor2].filterMap fun y => if y.faulty then none else y.temperature

def Supervision.anyFaulty (u : Supervision) : Bool := u.sensor1.faulty || u.sensor2.faulty

/-- A judgement with hysteresis (R133, R134): begins at or above the level, ends when all good are below level - hysteresis. -/
def heatJudged (present : Bool) (temps : List Int) (level : Int) (hysteresis : Nat) : Bool :=
  if present then !temps.all fun t => decide (t < level - hysteresis) else temps.any fun t => decide (level ≤ t)

/-- The cell voltage in mV (R135). -/
def cellVoltage (value : Nat) : Nat := value * 3300 / 1023

/-- BACKUP-LOW with its hysteresis (R135). -/
def cellJudged (present : Bool) (mv threshold : Nat) : Bool :=
  if present then decide (mv < threshold + 100) else decide (mv < threshold)

/-- The highest good temperature. -/
def hottest : List Int → Int
  | [] => 0
  | t :: rest => rest.foldl max t

/-! ### The judgements of a scan -/

def State.scanSensors (x1 x2 vbk : Nat) (s : State) : State :=
  let table := s.config.thermal.table
  let before := s.sup.anyFaulty
  let s1 := s.onSup fun u => { u with
    sensor1 := u.sensor1.scan table x1, sensor2 := u.sensor2.scan table x2, cell := some (cellVoltage vbk) }
  if !before && s1.sup.anyFaulty then s1.raiseFault .sensorFault else s1

def State.judgeOverheat (s : State) : State :=
  let temps := s.sup.goodTemps
  let now := heatJudged s.sup.overheat temps s.config.thermal.alarm s.config.thermal.hysteresis
  let s1 := s.onSup fun u => { u with overheat := now }
  if !s.sup.overheat && now then s1.followOnset .overheat (some (hottest temps))
  else if s.sup.overheat && !now then s1.followEnd .overheat
  else s1

/-- The first scan after a start hands THERMAL over whichever way it is judged (R134). -/
def State.judgeThermal (s : State) : State :=
  let now := heatJudged s.sup.thermal s.sup.goodTemps s.config.thermal.trip s.config.thermal.hysteresis
  let s1 := s.onSup fun u => { u with thermal := now, scanned := true }
  if now != s.sup.thermal || !s.sup.scanned then s1.handHold .thermal now else s1

def State.judgeCell (s : State) : State :=
  let now := cellJudged s.sup.backupLow (s.sup.cell.getD 0) s.config.thermal.backup
  let s1 := s.onSup fun u => { u with backupLow := now }
  if now && !s.sup.backupLow then s1.raiseFault .backupLow
  else if s.sup.backupLow && !now then s1.endFault .backupLow
  else s1

/-- A scan is made in MAINS once the last start has ended, with at least 2^n conversions of each channel. A scan that raises both
SENSOR-FAULT and BACKUP-LOW raises them in this order (DESIGN CHOICE, log entry 44), and one that changes both OVERHEAT and THERMAL
hands OVERHEAT over first (DESIGN CHOICE, log entry 62). -/
def State.scan (ts1 ts2 vbk : List Nat) (s : State) : State :=
  let n := s.config.thermal.averaging
  if s.running && s.mains && decide (2 ^ n ≤ ts1.length) && decide (2 ^ n ≤ ts2.length) && decide (2 ^ n ≤ vbk.length) then
    (((s.scanSensors (scanValue n ts1) (scanValue n ts2) (scanValue n vbk)).judgeOverheat).judgeThermal).judgeCell
  else s

/-- SLOW_SCAN (R130). -/
def execSlowScan (ts1 ts2 vbk : List Nat) (s : State) : Host.Outcome State Fault Refusal := .next (s.scan ts1 ts2 vbk)

end Sys2Proof.Machine
end

