-- ==== Sys2Proof/Machine/Dispatch.lean ====
section
/-! DEFINITION. exec: one arm for each command, in the order of the opcode table, each one call of its meaning. -/

namespace Sys2Proof.Machine

def exec (i : Instr) (s : State) : Host.Outcome State Fault Refusal :=
  match i with
  | .blockComplete samples mag => Sys2Proof.Machine.execBlockComplete samples mag s
  | .chargeQuantum => Sys2Proof.Machine.execChargeQuantum s
  | .pendingCountsWrite => Sys2Proof.Machine.execPendingCountsWrite s
  | .accountWriteComplete => Sys2Proof.Machine.execAccountWriteComplete s
  | .takeDayBoundary => Sys2Proof.Machine.execTakeDayBoundary s
  | .dayBoundaryWriteComplete => Sys2Proof.Machine.execDayBoundaryWriteComplete s
  | .takeDayAdoption => Sys2Proof.Machine.execTakeDayAdoption s
  | .takeCodeEntry => Sys2Proof.Machine.execTakeCodeEntry s
  | .emergency => Sys2Proof.Machine.execEmergency s
  | .takeEmergencyEntry => Sys2Proof.Machine.execTakeEmergencyEntry s
  | .takeEntryEntry => Sys2Proof.Machine.execTakeEntryEntry s
  | .entryWriteComplete => Sys2Proof.Machine.execEntryWriteComplete s
  | .clockSecond => Sys2Proof.Machine.execClockSecond s
  | .tariffActivation => Sys2Proof.Machine.execTariffActivation s
  | .tariffActivationComplete => Sys2Proof.Machine.execTariffActivationComplete s
  | .lockoutEnd => Sys2Proof.Machine.execLockoutEnd s
  | .lockoutEndWriteComplete => Sys2Proof.Machine.execLockoutEndWriteComplete s
  | .backoffEnd => Sys2Proof.Machine.execBackoffEnd s
  | .setTime value => Sys2Proof.Machine.execSetTime value s
  | .setTimeWriteComplete => Sys2Proof.Machine.execSetTimeWriteComplete s
  | .codeKeyDigit key => Sys2Proof.Machine.execCodeKeyDigit key s
  | .codeKeyClear => Sys2Proof.Machine.execCodeKeyClear s
  | .codeKeyBack => Sys2Proof.Machine.execCodeKeyBack s
  | .codeKeyEnter => Sys2Proof.Machine.execCodeKeyEnter s
  | .pauseTimerExpiry => Sys2Proof.Machine.execPauseTimerExpiry s
  | .codeEnter digits => Sys2Proof.Machine.execCodeEnter digits s
  | .countedFailureWriteComplete => Sys2Proof.Machine.execCountedFailureWriteComplete s
  | .codeAcceptWriteComplete => Sys2Proof.Machine.execCodeAcceptWriteComplete s
  | .coilPulseStart => Sys2Proof.Machine.execCoilPulseStart s
  | .blankingEnd => Sys2Proof.Machine.execBlankingEnd s
  | .lsInputChange ls ms => Sys2Proof.Machine.execLsInputChange ls ms s
  | .attemptConfirmed => Sys2Proof.Machine.execAttemptConfirmed s
  | .coilPulseEnd => Sys2Proof.Machine.execCoilPulseEnd s
  | .verificationWindowEnd => Sys2Proof.Machine.execVerificationWindowEnd s
  | .buttonPress => Sys2Proof.Machine.execButtonPress s
  | .reconnect => Sys2Proof.Machine.execReconnect s
  | .remoteHoldSet choice => Sys2Proof.Machine.execRemoteHoldSet choice s
  | .remoteHoldClear => Sys2Proof.Machine.execRemoteHoldClear s
  | .switchRecordWriteComplete => Sys2Proof.Machine.execSwitchRecordWriteComplete s
  | .relayRetry => Sys2Proof.Machine.execRelayRetry s
  | .positionSensingEnd => Sys2Proof.Machine.execPositionSensingEnd s
  | .bypassSuspensionEnd => Sys2Proof.Machine.execBypassSuspensionEnd s
  | .slowScan ts1 ts2 vbk => Sys2Proof.Machine.execSlowScan ts1 ts2 vbk s
  | .coverOpenOnset which => Sys2Proof.Machine.execCoverOpenOnset which s
  | .coverOpenEnd which => Sys2Proof.Machine.execCoverOpenEnd which s
  | .magnetOnset => Sys2Proof.Machine.execMagnetOnset s
  | .magnetEnd => Sys2Proof.Machine.execMagnetEnd s
  | .batteryCoverOpening which isOpen => Sys2Proof.Machine.execBatteryCoverOpening which isOpen s
  | .supplyFailing => Sys2Proof.Machine.execSupplyFailing s
  | .supplyGoodDip => Sys2Proof.Machine.execSupplyGoodDip s
  | .holdupLimitExpiry => Sys2Proof.Machine.execHoldupLimitExpiry s
  | .mainDomainLoss => Sys2Proof.Machine.execMainDomainLoss s
  | .backupDomainLoss => Sys2Proof.Machine.execBackupDomainLoss s
  | .start found => Sys2Proof.Machine.execStart found s
  | .startWriteComplete => Sys2Proof.Machine.execStartWriteComplete s
  | .resetAssert => Sys2Proof.Machine.execResetAssert s
  | .resetRelease => Sys2Proof.Machine.execResetRelease s
  | .residueWriteComplete => Sys2Proof.Machine.execResidueWriteComplete s
  | .durableWriteComplete record => Sys2Proof.Machine.execDurableWriteComplete record s
  | .windowTimerExpiry => Sys2Proof.Machine.execWindowTimerExpiry s
  | .closeService => Sys2Proof.Machine.execCloseService s
  | .lifeRecordWriteComplete => Sys2Proof.Machine.execLifeRecordWriteComplete s
  | .closeCommission => Sys2Proof.Machine.execCloseCommission s
  | .installKey serial key => Sys2Proof.Machine.execInstallKey serial key s
  | .identityWriteComplete => Sys2Proof.Machine.execIdentityWriteComplete s
  | .writeConfig sel contents => Sys2Proof.Machine.execWriteConfig sel contents s
  | .configWriteComplete => Sys2Proof.Machine.execConfigWriteComplete s
  | .tariffBegin => Sys2Proof.Machine.execTariffBegin s
  | .tariffSection sel contents => Sys2Proof.Machine.execTariffSection sel contents s
  | .tariffCommit time ident => Sys2Proof.Machine.execTariffCommit time ident s
  | .tariffDiscard => Sys2Proof.Machine.execTariffDiscard s
  | .tariffWriteComplete => Sys2Proof.Machine.execTariffWriteComplete s
  | .frame bytes => Sys2Proof.Machine.execFrame bytes s
  | .gapError next => Sys2Proof.Machine.execGapError next s
  | .lineBreak => Sys2Proof.Machine.execLineBreak s
  | .transmitFrame => Sys2Proof.Machine.execTransmitFrame s
  | .silenceTimerExpiry => Sys2Proof.Machine.execSilenceTimerExpiry s
  | .identify => Sys2Proof.Machine.execIdentify s
  | .status clearMemory => Sys2Proof.Machine.execStatus clearMemory s
  | .readInstant => Sys2Proof.Machine.execReadInstant s
  | .readEnergy => Sys2Proof.Machine.execReadEnergy s
  | .readAccount => Sys2Proof.Machine.execReadAccount s
  | .readDays index => Sys2Proof.Machine.execReadDays index s
  | .readEvidence number => Sys2Proof.Machine.execReadEvidence number s
  | .readSnapshot slot half => Sys2Proof.Machine.execReadSnapshot slot half s
  | .readCodeList => Sys2Proof.Machine.execReadCodeList s
  | .readTariff which sel => Sys2Proof.Machine.execReadTariff which sel s
  | .readConfig sel => Sys2Proof.Machine.execReadConfig sel s
  | .linkStatus => Sys2Proof.Machine.execLinkStatus s
  | .echo payload => Sys2Proof.Machine.execEcho payload s
  | .restart => Sys2Proof.Machine.execRestart s
  | .frameSent => Sys2Proof.Machine.execFrameSent s
  | .lineHighHunt => Sys2Proof.Machine.execLineHighHunt s

end Sys2Proof.Machine
end

