-- ==== Sys2Proof/Safety.lean ====
section
/-! DEFINITION. The terms the claims are stated in: which parts of the state a step may change, what a request in hand becomes,
which writes a step asks for, and the invariants. -/

namespace Sys2Proof.Machine

/-! ### Frames -/

/-- The parts of the state, one for each field of State. -/
inductive Part where
  | pending | backup | store | reg | cal | acct | code | sw | sup | tam | life | link | fresh
deriving DecidableEq, Repr

/-- The part is the same in both states. -/
def State.samePart (s t : State) : Part → Prop
  | .pending => t.pending = s.pending
  | .backup => t.backup = s.backup
  | .store => t.store = s.store
  | .reg => t.reg = s.reg
  | .cal => t.cal = s.cal
  | .acct => t.acct = s.acct
  | .code => t.code = s.code
  | .sw => t.sw = s.sw
  | .sup => t.sup = s.sup
  | .tam => t.tam = s.tam
  | .life => t.life = s.life
  | .link => t.link = s.link
  | .fresh => t.fresh = s.fresh

/-- Every part but those named is the same in both states. -/
def State.agreeBut (changed : List Part) (s t : State) : Prop := ∀ p : Part, p ∉ changed → s.samePart t p

/-- Of the tamper unit only the suspension of its RELAY-BYPASS counting may have changed (R145). -/
def State.onlySuspends (s t : State) : Prop := t.tam = { s.tam with suspended := t.tam.suspended }

/-! ### Requests and replies -/

/-- A request of the kind and payload is in hand, awaiting its owner's examination, in a power state in which the link runs. -/
def State.examines (s : State) (kind : Byte) (payload : List Byte) : Prop :=
  s.linkUp = true ∧ s.link.inHand = some ⟨kind, payload, .owner⟩

/-- The link as it was, but for the stage of the request in hand. -/
def Link.atStage (l : Link) (g : Stage) : Link := { l with inHand := l.inHand.map fun h => { h with stage := g } }

/-- The request in hand is replied with a status and a body, and nothing else of the link has changed. -/
def State.replied (s t : State) (st : Status) (body : List Byte) : Prop :=
  t.link = s.link.atStage (.replied (st.byte :: body))

/-- The reply is formed, and nothing else has changed (the counter of free values apart). -/
def State.onlyReplied (s t : State) (st : Status) (body : List Byte) : Prop :=
  s.replied t st body ∧ State.agreeBut [.link, .fresh] s t

/-! ### Writes -/

/-- The writes in flight and waiting. -/
def State.underWay (s : State) : List Purpose := s.store.flight.map Write.purpose ++ s.store.waiting

/-- The durable records, and which of them fail their checksums, are the same in both states. -/
def State.sameRecords (s t : State) : Prop :=
  t.store.recs = s.store.recs ∧ t.store.bad = s.store.bad ∧ t.store.unsound = s.store.unsound

/-- t has asked for one more write than s: nothing has been stored, and what was in flight is still in flight. -/
def State.asks (s t : State) (p : Purpose) : Prop :=
  s.sameRecords t ∧ s.store.flight <+: t.store.flight ∧ List.Perm t.underWay (s.underWay ++ [p])

/-- The request in hand waits for a write that t has asked for, and nothing else has changed. -/
def State.onlyWaits (s t : State) (p : Purpose) : Prop :=
  t.link = s.link.atStage .waiting ∧ s.asks t p ∧ State.agreeBut [.link, .store] s t

/-- A write of the kind asked for is the next to complete: the write, and what else is in flight. -/
def State.completes (s : State) (sel : Purpose → Bool) (w : Write) (rest : List Write) : Prop :=
  takeFlight sel s.store.flight = some (w, rest)

/-- What each completion command completes; none for every other command. -/
def completionOf : Instr → Option (Purpose → Bool)
  | .accountWriteComplete => some Purpose.isPlainAccount
  | .dayBoundaryWriteComplete => some Purpose.isDayBoundary
  | .entryWriteComplete => some Purpose.isEntry
  | .tariffActivationComplete => some Purpose.isActivation
  | .lockoutEndWriteComplete => some Purpose.isLockoutEnd
  | .setTimeWriteComplete => some Purpose.isSetTime
  | .countedFailureWriteComplete => some Purpose.isCounted
  | .codeAcceptWriteComplete => some Purpose.isAcceptance
  | .switchRecordWriteComplete => some Purpose.isSwitchRecord
  | .startWriteComplete => some Purpose.isStartWrite
  | .residueWriteComplete => some Purpose.isResidue
  | .durableWriteComplete record => some fun p => p.isOther && p.covers.contains record
  | .lifeRecordWriteComplete => some Purpose.isLifeRecord
  | .identityWriteComplete => some Purpose.isIdentity
  | .configWriteComplete => some Purpose.isConfig
  | .tariffWriteComplete => some Purpose.isTariffRequest
  | _ => none

/-- The record values that some write in flight carries. -/
def State.carried (s : State) : List RecordValue := s.store.flight.flatMap Write.puts

/-! ### Which command brings what -/

/-- The kind and payload of the request a command stands for; none for a command that is no request. -/
def requestOf : Instr → Option (Byte × List Byte)
  | .identify => some (0x01, [])
  | .status clearMemory => some (0x02, [clearMemory])
  | .readInstant => some (0x03, [])
  | .readEnergy => some (0x04, [])
  | .readAccount => some (0x05, [])
  | .readDays index => some (0x06, [index])
  | .readEvidence number => some (0x07, beBytes 4 number.toNat)
  | .readSnapshot slot half => some (0x08, [slot, half])
  | .readCodeList => some (0x09, [])
  | .readTariff which sel => some (0x0A, [which, sel])
  | .readConfig sel => some (0x0B, [sel])
  | .linkStatus => some (0x0C, [])
  | .echo payload => some (0x0D, payload)
  | .codeKeyDigit key => some (0x10, [key])
  | .codeKeyClear => some (0x10, [0x0A])
  | .codeKeyBack => some (0x10, [0x0B])
  | .codeKeyEnter => some (0x10, [0x0C])
  | .codeEnter digits => some (0x11, digits)
  | .emergency => some (0x12, [])
  | .reconnect => some (0x13, [])
  | .setTime value => some (0x20, beBytes 4 value.toNat)
  | .remoteHoldSet choice => some (0x21, [choice])
  | .remoteHoldClear => some (0x21, [0])
  | .relayRetry => some (0x22, [])
  | .tariffBegin => some (0x23, [])
  | .tariffSection sel contents => some (0x24, sel :: contents)
  | .tariffCommit time ident => some (0x25, beBytes 4 time.toNat ++ beBytes 2 ident.toNat)
  | .tariffDiscard => some (0x26, [])
  | .writeConfig sel contents => some (0x27, sel :: contents)
  | .installKey serial key => some (0x28, beBytes 4 serial.toNat ++ beBytes 15 key.toNat)
  | .closeCommission => some (0x29, [])
  | .closeService => some (0x2A, [])
  | .restart => some (0x2B, [])
  | _ => none

/-- The latching class whose condition a command begins. -/
def onsetOf : Instr → Option EvClass
  | .coverOpenOnset which => some which.cls
  | .magnetOnset => some .magnet
  | .silenceTimerExpiry => some .linkSilence
  | _ => none

/-- The latching class whose condition a command ends. -/
def endOf : Instr → Option EvClass
  | .coverOpenEnd which => some which.cls
  | .magnetEnd => some .magnet
  | _ => none

/-- The kinds of request a completed write may answer, and the status (R195): for a code, the two ways it is submitted. -/
def answersOf : Purpose → List (Byte × Status)
  | .codeEffect _ _ _ | .clearTamper _ _ _ _ | .setLimit _ _ _ | .openService _ _ _ => [(0x10, .ok), (0x11, .ok)]
  | .counted st _ _ _ => [(0x10, st), (0x11, st)]
  | .emergencyTaken _ => [(0x12, .ok)]
  | .setTime _ _ _ _ _ => [(0x20, .ok)]
  | .switchRecord => [(0x21, .ok)]
  | .tariffRequest kind _ _ st => [(BitVec.ofNat 8 kind, st)]
  | .config _ clamped => [(0x27, if clamped then .clamped else .ok)]
  | .identity _ _ => [(0x28, .ok)]
  | .entry => [(0x29, .ok)]
  | .lifeRecord => [(0x2A, .ok)]
  | .residue true true => [(0x2B, .ok)]
  | _ => []

/-- The state with a write's values stored and the write out of flight, before its effects come about. -/
def State.stored (s : State) (w : Write) (rest : List Write) : State := s.onStore fun st => { st with flight := rest }.commit w

/-- What is now stored is what the request waits for: for a REMOTE-HOLD the choice it carries (R103), for a CLOSE-SERVICE the life
state that its window's end left (R183). A write of those records that was asked for earlier does not answer them. -/
def State.storesAnswer (s : State) (kind : Byte) : Prop :=
  (kind = 0x21 → s.remoteStored = true) ∧ (kind = 0x2A → s.lifeStored = true)

/-- Bytes received back to back, each with its stop bit. -/
def received (l : List Byte) : List RxByte := l.map fun b => ⟨b, true⟩

/-- The request in hand is replied; the rest of the link is not looked at. -/
def State.inHandReplied (s t : State) (st : Status) (body : List Byte) : Prop :=
  t.link.inHand = s.link.inHand.map fun h => { h with stage := .replied (st.byte :: body) }

/-! ### Runs of blocks and of charges -/

/-- A block as it comes to be registered: the settings in force, what is read of the neighbours, and the block result. -/
structure BlockCase where
  cal : CalSettings
  settings : MeasureSettings
  inputs : BlockInputs
  result : BlockResult

/-- Blocks registered one after the other: each with the accumulators it began with and what it registered. -/
def registerAll : List BlockCase → Accumulators → List Nat → List (BlockCase × Accumulators × Registered)
  | [], _, _ => []
  | b :: rest, acc, counts =>
    let r := registerBlock b.cal b.settings b.inputs acc counts b.result
    (b, acc, r) :: registerAll rest r.acc r.stuck

/-- The accumulators after such a run that began with acc. -/
def accAfter (acc : Accumulators) (run : List (BlockCase × Accumulators × Registered)) : Accumulators :=
  (run.getLast?.map fun x => x.2.2.acc).getD acc

/-- What the registration unit reads of its neighbours for a block (R10, R18). -/
def State.blockInputs (s : State) (mag : Bool) : BlockInputs :=
  { magnet := s.tam.magnet, cut := s.tam.voltageCut.map Persist.present, residual := s.tam.residual.present, mag := mag
    switch := s.sw.state }

/-- What a block of the samples registers in s. -/
def State.registers (s : State) (samples : List SampleSet) (mag : Bool) : Registered :=
  registerBlock s.config.cal s.config.measure (s.blockInputs mag) s.reg.acc s.reg.stuck (blockResult samples)

/-- A block of the samples is registered in s (R2, R24). -/
def State.takesBlock (s : State) (samples : List SampleSet) : Prop :=
  s.alive = true ∧ s.mains = true ∧ s.reg.blockOpen = true ∧ s.reg.established = true ∧ samples.length = 256

/-! ### Codes as printed, and the switch -/

/-- The decimal digits of n, most significant first, in k places. -/
def digitsOf (k n : Nat) : List Byte := (List.range k).map fun j => BitVec.ofNat 8 (n / 10 ^ (k - 1 - j) % 10)

/-- The 20 digits the vending system prints of a code word (R83, R84). -/
def printedCode (key : BitVec 120) (u : Nat) : List Byte :=
  digitsOf 18 (scramble key u) ++ digitsOf 2 (scramble key u % 97)

/-- The confirming condition of R109, for the LS levels given. -/
def State.lsConfirms (s : State) (need ls : Tri Bool) : Prop :=
  if s.sw.state = .opening then ls.p1 = false ∧ ls.p2 = false ∧ ls.p3 = false
  else if need.p1 = true ∨ need.p2 = true ∨ need.p3 = true then
    (need.p1 = true → ls.p1 = true) ∧ (need.p2 = true → ls.p2 = true) ∧ (need.p3 = true → ls.p3 = true)
  else ls.p1 = true ∨ ls.p2 = true ∨ ls.p3 = true

/-- The switch after the LS inputs have taken the levels given and the progress of the operation has become p. -/
def State.withLs (s : State) (ls : Tri Bool) (p : Progress) : State := { s with sw := { s.sw with ls := ls, progress := p } }

/-- An attempt has failed (R110, R116): the next one awaits its pulse, or the third leaves the state JAMMED, with RELAY-JAMMED
raised and RELAY-FAULT begun. -/
def State.attemptFailed (s t : State) (ls : Tri Bool) : Prop :=
  .switch ∈ t.link.notices ∧
    (s.sw.attempt < 3 → t.sw = { s.sw with ls := ls, attempt := s.sw.attempt + 1, progress := .waiting } ∧
      State.agreeBut [.sw, .link] s t) ∧
    (3 ≤ s.sw.attempt → t.sw = { s.sw with ls := ls, state := .jammed, attempt := 0, progress := .idle } ∧
      State.agreeBut [.store, .sw, .tam, .life, .link] s t ∧ .relayJammed ∈ t.life.faults ∧ t.tam.relayFault = true ∧
      ((s.policy .relayFault).detect = true → ∃ slot, t.tam.evidence.log.getLast? =
        some { blankRecord .relayFault .active s.time with number := s.tam.evidence.next, slot := slot }))

/-- The state the hold set gives a sensed position (R119). -/
def State.sensedState (s : State) : SwitchState :=
  if s.sw.ls.p1 = true ∨ s.sw.ls.p2 = true ∨ s.sw.ls.p3 = true then
    (if s.sw.record.holds.isEmpty then .closed else .opening)
  else if s.sw.record.holds.isEmpty then (if s.config.switch.ack then .armed else .closing)
  else .opened

/-- The switch in a state entered afresh: an operation about to take its first pulse, or a rest state. -/
def Switch.enters (w : Switch) (x : SwitchState) : Switch :=
  if x = .opening ∨ x = .closing then { w with state := x, attempt := 1, progress := .waiting }
  else { w with state := x, attempt := 0, progress := .idle }

/-- The durable records once the writes in flight have completed (R175, R176). -/
def State.recordsAbsorbed (s : State) : Records := s.carried.foldl Records.put s.store.recs

/-- The records a start finds: in an abandoned start the permitted writes that waited have followed those in flight (R168, R175;
log entry 31). -/
def State.recordsFound (s : State) : Records :=
  (s.carried ++ s.waitingPermitted.flatMap Write.puts).foldl Records.put s.store.recs

/-- The record fails its checksum at a start (R184). -/
def State.recordFails (s : State) (found : StartReadings) (r : Record) : Prop :=
  (r ∈ s.store.bad ∧ ∀ w ∈ s.store.flight ++ s.waitingPermitted, r ∉ w.purpose.covers) ∨ r ∈ found.failed

/-! ### Invariants -/

/-- The life record never holds HALTED, nor does a write carry it there (R178). -/
def State.lifeRecordSound (s : State) : Prop :=
  s.store.recs.life.state ≠ .halted ∧ ∀ v, RecordValue.life v ∈ s.carried → v.state ≠ .halted

/-- The ranges of the residues and accumulators (R4, R5, R13, R14). -/
def Accumulators.inRange (a : Accumulators) : Prop :=
  (a.residue.p1 < 2 ^ 32 ∧ a.residue.p2 < 2 ^ 32 ∧ a.residue.p3 < 2 ^ 32) ∧ a.q < 1000000 ∧
    (a.reverse.p1 < 1000000 ∧ a.reverse.p2 < 1000000 ∧ a.reverse.p3 < 1000000) ∧ a.substituted < 1000000

/-- Registration stays within the ranges of R4, R5, R8, R13, R14 and R19, in working state and in the residue record. -/
def State.registrationInRange (s : State) : Prop :=
  s.reg.acc.inRange ∧ s.store.recs.residue.acc.inRange ∧ (∀ v, RecordValue.residue v ∈ s.carried → v.acc.inRange) ∧
    s.reg.stuck.length = 7 ∧ (∀ n ∈ s.reg.stuck, n ≤ 16) ∧ s.reg.trace.length ≤ 8

/-- The ranges of R49. -/
def AccountRec.inRange (r : AccountRec) : Prop :=
  -99999999 ≤ r.balance ∧ r.balance ≤ 999999999 ∧ r.residue ≤ 999 ∧ r.debt ≤ 999999999 ∧ r.total ≤ 999999999 ∧
    r.bands.length = 8 ∧ (∀ n ∈ r.bands, n ≤ 999999999) ∧
    (r.reverse.p1 ≤ 999999999 ∧ r.reverse.p2 ≤ 999999999 ∧ r.reverse.p3 ≤ 999999999) ∧ r.substituted ≤ 999999999 ∧
    r.dayImport ≤ 999999999 ∧ r.dayCharged ≤ 999999999 ∧ r.dayCredited ≤ 999999999 ∧ r.totalCharged ≤ 999999999999 ∧
    r.totalCredited ≤ 999999999999

/-- The ranges of R50 that the account record's own ranges rest on. -/
def AccountSettings.inRange (a : AccountSettings) : Prop :=
  a.opening ≤ 999999999 ∧ a.ceiling ≤ 999999999 ∧ a.emergency ≤ 10000000 ∧ a.rate ≤ 100

/-- The account record a write is to store. -/
def Purpose.account : Purpose → Option AccountRec
  | .charge a => some a
  | .emergencyTaken a => some a
  | .dayBoundary a _ _ => some a
  | .codeEffect a _ _ => some a
  | _ => none

/-- The account record stays within the ranges of R49, as stored and in every write asked for; with it the ACCOUNT settings. -/
def State.accountInRange (s : State) : Prop :=
  s.store.recs.account.inRange ∧ (∀ v, RecordValue.account v ∈ s.carried → v.inRange) ∧
    (∀ p ∈ s.underWay, ∀ a, p.account = some a → a.inRange) ∧
    s.store.recs.config.account.inRange ∧ (∀ v, RecordValue.config v ∈ s.carried → v.account.inRange) ∧
    (∀ p ∈ s.underWay, ∀ a b, p = .config (.account a) b → a.inRange)

/-- The code record's order and bounds (R87, R89, R90): the list strictly ascending with at most 32 entries, the failure count
and the level at most 5, and a lockout in force while the count is 5. -/
def CodeRec.ordered (c : CodeRec) : Prop :=
  c.accepted.Pairwise (· < ·) ∧ c.accepted.length ≤ 32 ∧ c.failures ≤ 5 ∧ c.level ≤ 5 ∧
    (c.failures = 5 → c.lockEnd.isSome = true)

def State.codeRecordOrdered (s : State) : Prop :=
  s.store.recs.code.ordered ∧ ∀ v, RecordValue.code v ∈ s.carried → v.ordered

/-- The clock, and every value a taken SET-TIME is to give it, is at most 3,155,759,999 (R29, R32). -/
def State.clockInRange (s : State) : Prop :=
  s.clock ≤ maxClock ∧ ∀ p ∈ s.underWay, ∀ v a b c d, p = .setTime v a b c d → v ≤ maxClock

/-- The digit buffer and the link's counters and notices keep their bounds (R75, R77, R194, R198). -/
def State.linkBounded (s : State) : Prop :=
  s.code.digits.length ≤ 20 ∧ (∀ d ∈ s.code.digits, d.toNat ≤ 9) ∧ s.code.pauseRunning = !s.code.digits.isEmpty ∧
    s.link.gapErrors ≤ 65535 ∧ s.link.crcErrors ≤ 65535 ∧ s.link.formatErrors ≤ 65535 ∧ s.link.notices.Nodup

/-- OPENING or CLOSING. -/
def operatingState (w : SwitchState) : Prop := w = .opening ∨ w = .closing

/-- The attempt count is 1..3 in an operating state and 0 otherwise (R105), an operation is under way exactly in an operating
state, and a position is sensed at a dip only for an abandoned operation (R120). -/
def State.switchOrdered (s : State) : Prop :=
  (operatingState s.sw.state → 1 ≤ s.sw.attempt ∧ s.sw.attempt ≤ 3 ∧ s.sw.progress ≠ .idle) ∧
    (¬ operatingState s.sw.state → s.sw.attempt = 0 ∧ s.sw.progress = .idle) ∧
    (s.sw.sensing = some .atDip → s.sw.progress = .abandoned)

/-- At most one durable write is in flight (R161, R168; log entry 11). -/
def State.oneWrite (s : State) : Prop := s.store.flight.length ≤ 1

/-- Every identity record that a write carries has the key-installed flag set (R179). -/
def State.identitySound (s : State) : Prop := ∀ v, RecordValue.identity v ∈ s.carried → v.installed = true

/-! ### The log, its slots and the fault set -/

/-- A log as R153, R154, R159 and R162 have it: at most 48 records; at most one OPEN record of a class, and that a latching one;
at most one ACTIVE record of a class, and that a following one; no two records naming one slot; a next number in range. -/
def EvidenceRec.ordered (e : EvidenceRec) : Prop :=
  e.log.length ≤ 48 ∧ 1 ≤ e.next ∧ e.next ≤ 4294967295 ∧
    ((e.log.filter fun r => r.state = .opened).map EvRecord.cls).Nodup ∧
    ((e.log.filter fun r => r.state = .active).map EvRecord.cls).Nodup ∧
    (∀ r ∈ e.log, (r.state = .opened → r.cls.latching = true) ∧ (r.state = .active → r.cls = .overheat ∨ r.cls = .relayFault)) ∧
    (e.log.filterMap EvRecord.slot).Nodup

/-- Four slots, none with more than eight blocks in a half; one that collects has not had its eight post-blocks (R162, R163). -/
def slotsOrdered (slots : List (Option Slot)) : Prop :=
  slots.length = 4 ∧ ∀ sl, some sl ∈ slots → sl.pre.length ≤ 8 ∧ sl.post.length ≤ 8 ∧ (sl.collecting = true → sl.post.length < 8)

/-- Every record that names a slot names one in use under its number, and every slot in use is named by a record of its number
(R162). -/
def slotsNamed (log : List EvRecord) (slots : List (Option Slot)) : Prop :=
  (∀ r ∈ log, ∀ k, r.slot = some k → ∃ sl, slots[k]? = some (some sl) ∧ sl.number = r.number) ∧
    ∀ k sl, slots[k]? = some (some sl) → ∃ r ∈ log, r.slot = some k ∧ r.number = sl.number

/-- The log and the slots are as chapter 7 has them, in working state, as stored and in every write in flight; an ACTIVE record
stands for a condition that is present, and RELAY-FAULT for the state JAMMED (R116, R154). -/
def State.logOrdered (s : State) : Prop :=
  (s.tam.evidence.ordered ∧ s.store.recs.evidence.ordered ∧ ∀ v, RecordValue.evidence v ∈ s.carried → v.ordered) ∧
    (slotsOrdered s.tam.slots ∧ slotsOrdered s.store.recs.snapshot ∧
      ∀ v, RecordValue.snapshot v ∈ s.carried → slotsOrdered v) ∧
    slotsNamed s.tam.evidence.log s.tam.slots ∧ s.reg.trace.length ≤ 8 ∧
    (∀ r ∈ s.tam.evidence.log, r.state = .active →
      (r.cls = .overheat ∧ s.sup.overheat = true) ∨ (r.cls = .relayFault ∧ s.tam.relayFault = true)) ∧
    (∀ a ∈ s.tam.heldBack, a.cls.latching = true) ∧ s.switchOrdered ∧
    (s.tam.relayFault = true → s.sw.state = .jammed) ∧ (s.sw.sensing = some .atStart → s.sw.state = .opened)

/-- No fault is present twice, and the memory names none twice (R189, R190). -/
def State.faultsOrdered (s : State) : Prop := s.life.faults.Nodup ∧ s.life.memory.Nodup

/-- The faults of t come from those of s: some have ended, and those raised stand after the ones that stayed, in the memory too
(R189, R190). -/
def State.faultsFollow (s t : State) : Prop :=
  ∃ ended raised : List FaultKind, t.life.faults = s.life.faults.filter (fun f => !ended.contains f) ++ raised ∧ ∀ f ∈ raised, f ∈ t.life.memory

/-! ### Conditions judged from blocks -/

/-- A flag after a block (R142 to R145): a block toward the change adds to the count and at the limit makes the change; any other
sets the count to 0. -/
def Persist.judgedBy (limit : Nat) (toward : Prop) (before after : Persist) : Prop :=
  (¬ toward → after = { before with count := 0 }) ∧
    (toward → before.count + 1 < limit → after = { before with count := before.count + 1 }) ∧
    (toward → limit ≤ before.count + 1 → after = ⟨!before.present, 0⟩)

/-! ### What a write carries -/

/-- An acceptance (R93): the failure count and the level 0, the lockout end as it was, and the sequence in its ascending place,
of 33 entries the smallest dropped. -/
def CodeRec.acceptedAs (c : CodeRec) (sequence : Nat) (c' : CodeRec) : Prop :=
  c'.failures = 0 ∧ c'.level = 0 ∧ c'.lockEnd = c.lockEnd ∧
    (c.accepted.Pairwise (· < ·) → sequence ∉ c.accepted → ∃ l : List Nat, l.Pairwise (· < ·) ∧
      List.Perm l (sequence :: c.accepted) ∧ c'.accepted = if l.length ≤ 32 then l else l.drop 1)

/-- A counted failure (R89, R90): the count gains 1; at 5 the level rises, to 5 at most, and a lockout of its period begins. -/
def CodeRec.failedAs (c : CodeRec) (clock : Nat) (c' : CodeRec) : Prop :=
  c'.accepted = c.accepted ∧
    (c.failures < 4 → c'.failures = c.failures + 1 ∧ c'.level = c.level ∧ c'.lockEnd = c.lockEnd) ∧
    (4 ≤ c.failures → c'.failures = 5 ∧ c'.level = min 5 (c.level + 1) ∧
      c'.lockEnd = some (clock + 600 * 2 ^ (c'.level - 1)))

/-- The records of an entry write that starts from s (R72, R99, R162, R165, R178, R181): the account begun at the opening credit
(its pending counts are dropped: log entry 39), the history empty and the clock's day processed, the code record as shipped, the
log empty but for the ACTIVE records, numbered again from 1 in their order (log entry 64) with the onset time of the entry; those
of a class 1 to 11 with the snapshot policy get the slots in turn, with the block trace as their pre-blocks, and every other slot
is free. -/
def State.entryStores (s : State) (r : Records) : Prop :=
  let kept := s.tam.evidence.log.filter fun x => x.state = .active
  let seeks := fun (x : EvRecord) => (s.policy x.cls).snapshot && decide (x.cls.number ≤ 11)
  r.account = ⟨s.config.account.opening, 0, 0, false, 0, [0, 0, 0, 0, 0, 0, 0, 0], ⟨0, 0, 0⟩, 0, 0, 0, 0, 0, 0⟩ ∧
    r.days = ⟨[], some (s.clock / 86400), s.store.recs.days.adjustDay⟩ ∧ r.code = ⟨[], 0, 0, none⟩ ∧
    r.evidence.next = kept.length + 1 ∧ r.evidence.log.length = kept.length ∧
    (∀ (k : Nat) (x : EvRecord), kept[k]? = some x →
      let before := ((kept.take k).filter seeks).length
      r.evidence.log[k]? = some { x with
        number := k + 1, onset := s.time, slot := if seeks x = true ∧ before < 4 then some before else none }) ∧
    r.snapshot.length = 4 ∧
    (∀ x ∈ r.evidence.log, ∀ k, x.slot = some k → r.snapshot[k]? = some (some ⟨x.number, s.reg.trace, [], true⟩)) ∧
    (∀ k < 4, (∀ x ∈ r.evidence.log, x.slot ≠ some k) → r.snapshot[k]? = some none) ∧
    r.supply = ⟨[], none, s.sup.supply.dips, s.sup.supply.outages⟩ ∧ r.life = ⟨.inService, none⟩

/-- The configuration record with a section written (R186): that section alone has changed, and its written flag is set. A SWITCH
section without the limit field keeps the stored limit. -/
def ConfigRec.writtenAs (c : ConfigRec) (v : SectionValue) (c' : ConfigRec) : Prop :=
  (∀ sec, sec ∈ c'.written ↔ sec ∈ c.written ∨ sec = v.sec) ∧
    match v with
    | .cal x => c' = { c with cal := x, written := c'.written }
    | .measure x => c' = { c with measure := x, written := c'.written }
    | .account x => c' = { c with account := x, written := c'.written }
    | .switch x true => c' = { c with switch := x, written := c'.written }
    | .switch x false => c' = { c with switch := { x with limit := c.switch.limit }, written := c'.written }
    | .thermal x => c' = { c with thermal := x, written := c'.written }
    | .tamper x => c' = { c with tamper := x, written := c'.written }
    | .link x => c' = { c with silence := x, written := c'.written }

/-- The active tariff that a READY one becomes (R48): each of its sections, and the identifier. -/
def Tariff.madeFrom (t : Tariff) (p : PendingSections) (identifier : Nat) : Prop :=
  t.identifier = identifier ∧ (∀ x, p.prices = some x → t.prices = x) ∧
    (∀ x, p.scheduleWorkday = some x → t.scheduleWorkday = x) ∧
    (∀ x, p.scheduleRestday = some x → t.scheduleRestday = x) ∧ (∀ x, p.days = some x → t.days = x) ∧
    (∀ x, p.friendly = some x → t.friendly = x)

/-- What a write of the purpose that starts from s carries (R32, R48, R54, R56, R61, R66, R67, R72, R89 to R95, R101, R129, R156, R161,
R178, R179, R182, R186). -/
def Purpose.carries (s : State) (v : List RecordValue) : Purpose → Prop
  | .charge a => v = [.account a]
  | .emergencyTaken a => v = [.account a]
  | .dayBoundary a appended target => ∃ d : DaysRec, v = [.account a, .days d] ∧ d.lastDay = some target ∧
      d.adjustDay = s.store.recs.days.adjustDay ∧ d.history <:+ s.store.recs.days.history ++ appended ∧
      d.history.length = min 31 (s.store.recs.days.history.length + appended.length)
  | .dayAdoption day => v = [.days { s.store.recs.days with lastDay := some day }]
  | .codeEffect a sequence _ => ∃ c, v = [.account a, .code c] ∧ s.store.recs.code.acceptedAs sequence c
  | .entry => ∃ r : Records, v = [.account r.account, .days r.days, .code r.code, .evidence r.evidence, .snapshot r.snapshot,
      .supply r.supply, .life r.life] ∧ s.entryStores r
  | .setTime value _ _ adjustDay carry =>
      (carry = none → v = [.days { s.store.recs.days with adjustDay := adjustDay }]) ∧
      (∀ left, carry = some left → ∃ c : CodeRec, v = [.days { s.store.recs.days with adjustDay := adjustDay }, .code c] ∧
        c = { s.store.recs.code with lockEnd := c.lockEnd } ∧ (s.store.recs.code.lockEnd = none → c.lockEnd = none) ∧
        (s.store.recs.code.lockEnd ≠ none → c.lockEnd = some (value + left)))
  | .counted _ _ _ clock => ∃ c, v = [.code c] ∧ s.store.recs.code.failedAs clock c
  | .clearTamper classes sequence time _ => ∃ (e : EvidenceRec) (c : CodeRec), v = [.evidence e, .code c] ∧
      s.store.recs.code.acceptedAs sequence c ∧ e.next = s.tam.evidence.next ∧ e.log = s.tam.evidence.log.map fun r =>
        if r.state = .opened ∧ r.cls ∈ classes then { r with state := .cleared, clearSeq := some sequence, clearTime := time }
        else r
  | .setLimit limit sequence _ => ∃ c, v = [.switch { s.sw.record with codeLimit := limit }, .code c] ∧
      s.store.recs.code.acceptedAs sequence c
  | .openService _ sequence _ => ∃ c, v = [.life ⟨.serviceWindow, some sequence⟩, .code c] ∧
      s.store.recs.code.acceptedAs sequence c
  | .lockoutEnd => v = [.code { s.store.recs.code with lockEnd := none, failures := 0 }]
  | .lockoutRearm until_ => v = [.code { s.store.recs.code with lockEnd := some until_ }]
  | .switchRecord => v = [.switch s.sw.record]
  | .supplyRecord => v = [.supply s.sup.supply]
  | .evidenceLog ev snap =>
      v = (if ev then [.evidence s.tam.evidence] else []) ++ (if snap then [.snapshot s.tam.slots] else [])
  | .lifeRecord => ∃ r, v = [.life r] ∧ (s.life.state ≠ .halted → r = ⟨s.life.state, s.life.window⟩) ∧
      (s.life.state = .halted →
        r = ⟨if s.store.recs.life.state = .serviceWindow then .inService else s.store.recs.life.state, none⟩)
  | .identity serial key => v = [.identity ⟨serial, key, true⟩]
  | .config x _ => ∃ c, s.store.recs.config.writtenAs x c ∧
      ((∀ w, x ≠ .switch w true) → v = [.config c]) ∧
      (∀ w, x = .switch w true → v = [.config c, .switch { s.sw.record with codeLimit := none }])
  | .tariffRequest _ _ pending _ => v = [.tariff { s.store.recs.tariff with pending := pending }]
  | .tariffActivation => ∃ t : TariffRec, v = [.tariff t] ∧ ∀ parts time identifier,
      s.store.recs.tariff.pending = .ready parts time identifier → t.pending = .empty ∧ t.active.madeFrom parts identifier
  | .residue valid _ => v = [.residue ⟨s.reg.acc, valid⟩]
  | .startWrite => v = [.evidence s.tam.evidence, .snapshot s.tam.slots, .supply s.sup.supply]
  | .reinitialised r => (r = .days → v = [.days s.store.recs.days]) ∧ (r = .tariff → v = [.tariff s.store.recs.tariff])

/-! ### What a block registers -/

/-- The seven channels, in the order of the stuck counts (R8). -/
def channels : List (SampleSet → BitVec 16) :=
  [fun x => x.v.p1, fun x => x.v.p2, fun x => x.v.p3, fun x => x.i.p1, fun x => x.i.p2, fun x => x.i.p3, fun x => x.n]

/-- The sums of a block (R3). -/
def BlockResult.sumsOf (b : BlockResult) (samples : List SampleSet) : Prop :=
  let sum := fun (f : SampleSet → Int) => (samples.map f).sum
  b.power = ⟨sum fun x => x.v.p1.toInt * x.i.p1.toInt, sum fun x => x.v.p2.toInt * x.i.p2.toInt,
      sum fun x => x.v.p3.toInt * x.i.p3.toInt⟩ ∧
    ((b.v2.p1 : Int) = sum fun x => x.v.p1.toInt ^ 2) ∧ ((b.v2.p2 : Int) = sum fun x => x.v.p2.toInt ^ 2) ∧
    ((b.v2.p3 : Int) = sum fun x => x.v.p3.toInt ^ 2) ∧ ((b.i2.p1 : Int) = sum fun x => x.i.p1.toInt ^ 2) ∧
    ((b.i2.p2 : Int) = sum fun x => x.i.p2.toInt ^ 2) ∧ ((b.i2.p3 : Int) = sum fun x => x.i.p3.toInt ^ 2) ∧
    ((b.n2 : Int) = sum fun x => x.n.toInt ^ 2) ∧
    ((b.r2 : Int) = sum fun x => (x.i.p1.toInt + x.i.p2.toInt + x.i.p3.toInt + x.n.toInt) ^ 2)

/-- The stuck counts after a block (R8): a channel whose samples all had the same code gains 1, to 16 at most, any other falls
to 0. -/
def stuckCounted (samples : List SampleSet) (before after : List Nat) : Prop :=
  (before.length = 7 → after.length = 7) ∧
    ∀ (k : Nat) (f : SampleSet → BitVec 16) (n : Nat), channels[k]? = some f → before[k]? = some n →
    ((∀ x ∈ samples, ∀ y ∈ samples, f x = f y) → after[k]? = some (min 16 (n + 1))) ∧
    (¬ (∀ x ∈ samples, ∀ y ∈ samples, f x = f y) → after[k]? = some 0)

/-- R11: x is the greatest of the measured energy, the fixed substitute where MAGNET is present or the phase's current channel
stands at 16, and the estimate where VOLTAGE-CUT is present. -/
def greatestTerm (m : MeasureSettings) (magnet cut : Bool) (stuck : Option Nat) (energy irms x : Nat) : Prop :=
  let fixed := magnet = true ∨ stuck = some 16
  (x = energy ∨ (fixed ∧ x = m.eSub) ∨ (cut = true ∧ x = m.vNom * irms / 5760)) ∧ energy ≤ x ∧ (fixed → m.eSub ≤ x) ∧
    (cut = true → m.vNom * irms / 5760 ≤ x)

/-- R4, R11, R12: what a block registers, for each phase and in all. -/
def Registered.byTerms (r : Registered) (cal : CalSettings) (m : MeasureSettings) (inp : BlockInputs) (acc : Accumulators)
    (b : BlockResult) : Prop :=
  let ph := r.summary.phases
  greatestTerm m inp.magnet inp.cut.p1 r.stuck[3]? ((b.power.p1.natAbs * cal.g.p1 + acc.residue.p1) / 2 ^ 32) ph.p1.irms
      ph.p1.energy ∧
    greatestTerm m inp.magnet inp.cut.p2 r.stuck[4]? ((b.power.p2.natAbs * cal.g.p2 + acc.residue.p2) / 2 ^ 32) ph.p2.irms
      ph.p2.energy ∧
    greatestTerm m inp.magnet inp.cut.p3 r.stuck[5]? ((b.power.p3.natAbs * cal.g.p3 + acc.residue.p3) / 2 ^ 32) ph.p3.irms
      ph.p3.energy ∧
    (inp.residual = true → m.residualBilling = true →
      r.total = ph.p1.energy + ph.p2.energy + ph.p3.energy + m.vNom * r.summary.residual / 5760) ∧
    (inp.residual = false ∨ m.residualBilling = false → r.total = ph.p1.energy + ph.p2.energy + ph.p3.energy) ∧
    (ph.p1.reverse = true ↔ b.power.p1 < 0) ∧ (ph.p2.reverse = true ↔ b.power.p2 < 0) ∧ (ph.p3.reverse = true ↔ b.power.p3 < 0)

/-- R51: the quanta of a block join the queue as its newest entry; with 14 QUANTA entries queued they are added to the newest of
them, which keeps its time. -/
def quantaJoined (time : Option Nat) (n : Nat) (before after : List Entry) : Prop :=
  let count := (before.filter Entry.isQuanta).length
  (n = 0 → after = before) ∧ (0 < n → count < 14 → after = before ++ [.quanta time n]) ∧
    (0 < n → 14 ≤ count → ∃ older t k newer, before = older ++ .quanta t k :: newer ∧ (∀ e ∈ newer, e.isQuanta = false) ∧
      after = older ++ .quanta t (k + n) :: newer)

/-- R53: a boundary joins immediately ahead of the oldest QUANTA entry of a day later than the last processed day, else at the
tail. -/
def boundaryPlaced (e : Entry) (lastDay : Nat) (before after : List Entry) : Prop :=
  ∃ ahead behind, before = ahead ++ behind ∧ after = ahead ++ e :: behind ∧
    (∀ t n, .quanta (some t) n ∈ ahead → t / 86400 ≤ lastDay) ∧
    (behind = [] ∨ ∃ t n rest, behind = .quanta (some t) n :: rest ∧ lastDay < t / 86400)

/-! ### An appended record -/

/-- A record that is CLEARED or ENDED (R158). -/
def EvRecord.isFinal (r : EvRecord) : Prop := r.state = .cleared ∨ r.state = .ended

/-- R159: a log of 48 loses its oldest final record, and a slot that record names is freed with it. -/
def roomMade (log : List EvRecord) (slots : List (Option Slot)) (log' : List EvRecord) (slots' : List (Option Slot)) : Prop :=
  (log.length < 48 ∨ (∀ x ∈ log, ¬ x.isFinal) → log' = log ∧ slots' = slots) ∧
    ∀ older r newer, 48 ≤ log.length → log = older ++ r :: newer → r.isFinal → (∀ x ∈ older, ¬ x.isFinal) →
      log' = older ++ newer ∧ (∀ k, r.slot = some k → slots' = slots.set k none) ∧ (r.slot = none → slots' = slots)

/-- R162: the slot a record that seeks one gets: the lowest-numbered free one; with none free, the one that the oldest final
record with a slot names, which that record gives up; else none. -/
def slotFound (log : List EvRecord) (slots : List (Option Slot)) (slot : Option Nat) (log' : List EvRecord) : Prop :=
  (∀ k, slots[k]? = some none → (∀ j < k, slots[j]? ≠ some none) → slot = some k ∧ log' = log) ∧
    ((∀ k : Nat, slots[k]? ≠ some none) →
      (∀ older r newer k, log = older ++ r :: newer → r.isFinal → r.slot = some k → (∀ x ∈ older, x.isFinal → x.slot = none) →
        slot = some k ∧ log' = older ++ { r with slot := none } :: newer) ∧
      ((∀ x ∈ log, x.isFinal → x.slot = none) → slot = none ∧ log' = log))

/-- R153, R159, R162, R163: t has appended the record to the log of s, under the next number; a slot was sought for a class 1 to
11 with the snapshot policy in MAINS, and the slot found holds the block trace as its pre-blocks and collects; in MAINS a write
of the evidence record is asked for, of the snapshot record with it where a slot was found. -/
def State.appends (s t : State) (r : EvRecord) : Prop :=
  ∃ log1 slots1 slot log2, roomMade s.tam.evidence.log s.tam.slots log1 slots1 ∧
    let seeks := (s.policy r.cls).snapshot = true ∧ r.cls.number ≤ 11 ∧ s.mains = true ∧ r.onBattery = false
    (seeks → slotFound log1 slots1 slot log2) ∧ (¬ seeks → slot = none ∧ log2 = log1) ∧
    t.tam.evidence = ⟨log2 ++ [{ r with number := s.tam.evidence.next, slot := slot }],
      if s.tam.evidence.next = 4294967295 then 1 else s.tam.evidence.next + 1⟩ ∧
    (∀ k, slot = some k → t.tam.slots = slots1.set k (some ⟨s.tam.evidence.next, s.reg.trace, [], true⟩)) ∧
    (slot = none → t.tam.slots = slots1) ∧
    (s.mains = true → ∃ snap, .evidenceLog true snap ∈ t.underWay ∧ (slot ≠ none → snap = true))

/-! ### Sections as written -/

/-- y is x brought to the nearer end of its range where it lies outside it (R45, R187); unclamped, y is x. -/
def clampedTo (clamps : Bool) (lo hi x y : Int) : Prop :=
  (clamps = false ∨ (lo ≤ x ∧ x ≤ hi) → y = x) ∧ (clamps = true → x < lo → y = lo) ∧ (clamps = true → hi < x → y = hi)

/-- A section's contents, with clamps as stored and without them as sent (R21, R50, R121, R123, R136, R139, R152, R186, R187,
R200): each field at its offset, and of TAMPER the fixed values of classes 10 to 13. -/
def sectionHolds (clamps : Bool) (bs : List Byte) : ConfigSection → SectionValue → Prop
  | .cal, v => v = .cal ⟨⟨field bs 0 3, field bs 3 3, field bs 6 3⟩, ⟨field bs 9 3, field bs 12 3, field bs 15 3⟩,
      ⟨field bs 18 3, field bs 21 3, field bs 24 3⟩, field bs 27 3, field bs 30 3⟩
  | .measure, v => ∃ m, v = .measure m ∧ clampedTo clamps 0 200000 (field bs 0 3) m.eSub ∧
      clampedTo clamps 10000 30000 (field bs 3 2) m.vNom ∧ (m.residualBilling = true ↔ field bs 5 1 ≠ 0) ∧
      clampedTo clamps 0 30000 (field bs 6 2) m.presence ∧ clampedTo clamps 0 200000 (field bs 8 3) m.reverseMin ∧
      clampedTo clamps 0 100000 (field bs 11 3) m.residualThreshold ∧ clampedTo clamps 0 100000 (field bs 14 3) m.bypassThreshold
  | .account, v => ∃ a, v = .account a ∧ clampedTo clamps 0 999999999 (field bs 0 4) a.opening ∧
      clampedTo clamps 0 999999999 (field bs 4 4) a.ceiling ∧ clampedTo clamps 0 999999999 (field bs 8 4) a.low ∧
      clampedTo clamps 0 10000000 (field bs 12 3) a.emergency ∧ clampedTo clamps 0 10000000 (field bs 15 3) a.friendlyCap ∧
      clampedTo clamps 0 9999999 (field bs 18 3) a.daily ∧ clampedTo clamps 0 100 (field bs 21 1) a.rate
  | .switch, v => ∃ w, v = .switch w (decide (bs.length = 10)) ∧ (w.ack = true ↔ field bs 0 1 ≠ 0) ∧
      clampedTo clamps 20 200 (field bs 1 1) w.pulse ∧ clampedTo clamps 0 100 (field bs 2 1) w.blanking ∧
      clampedTo clamps 50 1000 (field bs 3 2) w.window ∧
      (bs.length = 10 → w.limit = field bs 5 3 ∧ clampedTo clamps 16 1024 (field bs 8 2) w.persistence) ∧
      (bs.length ≠ 10 → clampedTo clamps 16 1024 (field bs 5 2) w.persistence)
  | .thermal, v => ∃ t, v = .thermal t ∧ clampedTo clamps 0 4 (field bs 0 1) t.averaging ∧ t.table.length = 9 ∧
      (∀ k < 9, ∃ p, t.table[k]? = some p ∧ clampedTo clamps 0 1023 (field bs (1 + 4 * k) 2) p.1 ∧
        clampedTo clamps (-400) 2000 (signedField bs (3 + 4 * k) 2) p.2) ∧
      clampedTo clamps (-400) 2000 (signedField bs 37 2) t.alarm ∧ clampedTo clamps (-400) 2000 (signedField bs 39 2) t.trip ∧
      clampedTo clamps 0 200 (field bs 41 1) t.hysteresis ∧ clampedTo clamps 2000 3300 (field bs 42 2) t.backup
  | .tamper, v => ∃ l, v = .tamper l ∧ l.length = bs.length ∧
      ∀ (k : Nat) (b : Byte), bs[k]? = some b → ∃ p : ClassPolicy, l[k]? = some p ∧
      p.detect = (b.getLsbD 0 || (clamps && decide (11 ≤ k))) ∧ p.disconnect = (b.getLsbD 1 && !(clamps && decide (9 ≤ k))) ∧
      p.penalty = (b.getLsbD 2 && !(clamps && decide (9 ≤ k))) ∧ p.snapshot = (b.getLsbD 3 && !(clamps && decide (11 ≤ k))) ∧
      p.notify = b.getLsbD 4
  | .link, v => ∃ n, v = .link n ∧
      (clamps = false ∨ field bs 0 2 = 0 ∨ (10 ≤ field bs 0 2 ∧ field bs 0 2 ≤ 3600) → n = field bs 0 2) ∧
      (clamps = true → 1 ≤ field bs 0 2 → field bs 0 2 ≤ 9 → n = 10) ∧ (clamps = true → 3600 < field bs 0 2 → n = 3600)

/-- The relations of R187 (R50, R121, R136) on a section as clamped, with the stored balance. -/
def sectionRelations (balance : Int) : SectionValue → Prop
  | .account a => a.opening ≤ a.ceiling ∧ balance ≤ a.ceiling
  | .switch w _ => w.blanking < w.window ∧ w.pulse ≤ w.window
  | .thermal t => t.alarm < t.trip ∧ (t.table.map Prod.fst).Pairwise (· < ·)
  | _ => True

/-- The valid dates of R31. -/
def Date.isValid (d : Date) : Prop :=
  2000 ≤ d.year ∧ d.year ≤ 2099 ∧ 1 ≤ d.month ∧ d.month ≤ 12 ∧ 1 ≤ d.day ∧
    d.day ≤ if d.month = 2 then (if d.year % 4 = 0 then 29 else 28)
      else if d.month ∈ [4, 6, 9, 11] then 30 else 31

/-- A switch point's section as R45 judges it: 1 to 8 points whose minutes, as clamped, ascend strictly. -/
def scheduleJudged (c : List Byte) (make : List (Nat × Nat) → TariffValue) (r : Option (TariffValue × Bool)) : Prop :=
  let n := field c 0 1
  let minute := fun k => field c (1 + 3 * k) 2
  let band := fun k => field c (3 + 3 * k) 1
  let passes := 1 ≤ n ∧ n ≤ 8 ∧ ∀ k, k + 1 < n → min 1439 (minute k) < min 1439 (minute (k + 1))
  (¬ passes → r = none) ∧
    (passes → ∃ l clamped, r = some (make l, clamped) ∧ l.length = n ∧
      (∀ k < n, l[k]? = some (min 1439 (minute k), min 7 (band k))) ∧
      (clamped = false ↔ ∀ k < n, minute k ≤ 1439 ∧ band k ≤ 7))

/-- A list of friendly windows as R45 judges it, from an offset on: each start below its end, none below the end before it. -/
def windowsPass (c : List Byte) (off n : Nat) : Prop :=
  let start := fun k => min 1439 (field c (off + 4 * k) 2)
  let stop := fun k => max 1 (min 1440 (field c (off + 4 * k + 2) 2))
  n ≤ 4 ∧ (∀ k < n, start k < stop k) ∧ ∀ k, k + 1 < n → stop k ≤ start (k + 1)

/-- A list of friendly windows as stored. -/
def windowsHold (c : List Byte) (off n : Nat) (l : List (Nat × Nat)) : Prop :=
  l.length = n ∧ ∀ k < n, l[k]? =
    some (min 1439 (field c (off + 4 * k) 2), max 1 (min 1440 (field c (off + 4 * k + 2) 2)))

/-- No field of the windows is outside its range. -/
def windowsInRange (c : List Byte) (off n : Nat) : Prop :=
  ∀ k < n, field c (off + 4 * k) 2 ≤ 1439 ∧ 1 ≤ field c (off + 4 * k + 2) 2 ∧ field c (off + 4 * k + 2) 2 ≤ 1440

/-- A tariff section as R45 judges it: refused, or the section to be stored and whether a field was clamped. -/
def tariffSectionJudged (sel : Nat) (c : List Byte) (r : Option (TariffValue × Bool)) : Prop :=
  match sel with
  | 0 => ∃ p clamped, r = some (.prices p, clamped) ∧ p.prices.length = 8 ∧
      (∀ k < 8, p.prices[k]? = some (min 9999999 (field c (3 * k) 3))) ∧ p.penaltyBand = min 7 (field c 24 1) ∧
      p.defaultBand = min 7 (field c 25 1) ∧
      (clamped = false ↔ (∀ k < 8, field c (3 * k) 3 ≤ 9999999) ∧ field c 24 1 ≤ 7 ∧ field c 25 1 ≤ 7)
  | 1 => scheduleJudged c .scheduleWorkday r
  | 2 => scheduleJudged c .scheduleRestday r
  | 3 =>
      let n := field c 1 1
      let date := fun k => (⟨field c (2 + 4 * k) 2, field c (4 + 4 * k) 1, field c (5 + 4 * k) 1⟩ : Date)
      let passes := n ≤ 16 ∧ (∀ k < n, (date k).isValid) ∧ ∀ k, k + 1 < n → (date k).number < (date (k + 1)).number
      (¬ passes → r = none) ∧
        (passes → ∃ d, r = some (.days d, false) ∧ d.restDays = (List.range 7).map (fun k => (c.getD 0 0).getLsbD k) ∧
          d.holidays.length = n ∧ ∀ k < n, d.holidays[k]? = some (date k).number)
  | 4 =>
      let a := field c 0 1
      let b := field c (1 + 4 * a) 1
      let passes := windowsPass c 1 a ∧ windowsPass c (2 + 4 * a) b
      (¬ passes → r = none) ∧
        (passes → ∃ f clamped, r = some (.friendly f, clamped) ∧ windowsHold c 1 a f.workday ∧
          windowsHold c (2 + 4 * a) b f.restday ∧
          (clamped = false ↔ windowsInRange c 1 a ∧ windowsInRange c (2 + 4 * a) b))
  | _ => r = none

end Sys2Proof.Machine
end

