-- ==== Sys2Proof/Certificates/Slice0/Obligations.lean ====
section
/-! DEFINITION. The obligations: what the manual's rules say of the model, stated for the provers. -/

open Sys2Proof Sys2Proof.Machine

/-! ### The queue, the shipped state, the durable store -/

/-- Log entry 9: a step carries out the command at the front of the queue on the rest of it; an empty queue idles. -/
def Obligations.StepTakesFrontCommand : Prop :=
  ∀ (s : State),
    (∀ (c : Instr) (rest : List Instr), s.pending = c :: rest → step s = exec c { s with pending := rest }) ∧
    (s.pending = [] → step s = .next s)

/-- The shipped values the chapters give (R30, R44, R46, R49, R99, R104, R129, R161, R177, R178, R179, R186); and the
invariants stated below hold of it. -/
def Obligations.ResetIsTheShippedPart : Prop :=
  State.reset.pending = [] ∧ State.reset.clock = 0 ∧ State.reset.clockValid = false ∧
    State.reset.store.recs.life.state = .commissioning ∧ State.reset.store.recs.life.window = none ∧
    State.reset.store.recs.identity.installed = false ∧ State.reset.store.recs.identity.serial = 0 ∧
    State.reset.store.recs.config.written = [] ∧
    State.reset.store.recs.account.balance = 0 ∧ State.reset.store.recs.account.debt = 0 ∧
    State.reset.store.recs.account.emergency = false ∧
    State.reset.store.recs.code.accepted = [] ∧ State.reset.store.recs.code.failures = 0 ∧
    State.reset.store.recs.code.level = 0 ∧ State.reset.store.recs.code.lockEnd = none ∧
    State.reset.store.recs.days.lastDay = none ∧ State.reset.store.recs.days.history = [] ∧
    State.reset.store.recs.tariff.pending = .empty ∧ State.reset.tariff.identifier = 0 ∧
    State.reset.tariff.prices.prices = List.replicate 8 0 ∧
    State.reset.store.recs.evidence.log = [] ∧ State.reset.store.recs.evidence.next = 1 ∧
    State.reset.store.recs.snapshot = List.replicate 4 none ∧
    State.reset.store.recs.switch.holds.isEmpty = true ∧ State.reset.store.recs.switch.codeLimit = none ∧
    State.reset.store.recs.supply.trips = [] ∧ State.reset.store.recs.supply.backoff = none ∧
    State.reset.store.recs.supply.dips = 0 ∧ State.reset.store.recs.supply.outages = 0 ∧
    State.reset.store.recs.residue.valid = false ∧
    (State.reset.lifeRecordSound ∧ State.reset.registrationInRange ∧ State.reset.accountInRange ∧
      State.reset.codeRecordOrdered ∧ State.reset.clockInRange ∧ State.reset.linkBounded ∧ State.reset.switchOrdered ∧
      State.reset.oneWrite ∧ State.reset.identitySound ∧ State.reset.logOrdered ∧ State.reset.faultsOrdered)

/-- R184 and the chapters' rules: durable records change only when a write completes, at a start, or when the reset line lets
the writes in flight complete. -/
def Obligations.RecordsChangeOnlyAtCompletions : Prop :=
  ∀ (c : Instr) (s t : State), exec c s = .next t → completionOf c = none → (∀ found, c ≠ .start found) →
    c ≠ .resetAssert → t.store.recs = s.store.recs

/-- R161, R184: a completion stores what its write carries, its records then pass their checksums, and in MAINS every other
write in flight stays in flight. R54, R66, R72, R89 to R93, R156, R178, R186: what a write that starts carries, purpose by purpose
(Purpose.carries); in every step each write that starts carries it of the records as they then stand. A request in MAINS with
nothing in flight or waiting starts at once; and with nothing in flight the first that may start does. -/
def Obligations.CompletionStoresTheWrite : Prop :=
  (∀ (c : Instr) (sel : Purpose → Bool) (s : State) (w : Write) (rest : List Write),
    completionOf c = some sel → s.completes sel w rest →
    ∃ t, exec c s = .next t ∧ t.store.recs = w.puts.foldl Records.put s.store.recs ∧
      (∀ r, r ∈ t.store.bad ↔ r ∈ s.store.bad ∧ r ∉ w.purpose.covers) ∧
      (s.mains = true → rest <+: t.store.flight)) ∧
  (∀ (s : State) (p : Purpose), s.store.flight = [] → s.store.waiting.find? s.startsNext = some p →
    ∃ v, s.pump.store.flight = [⟨p, v⟩] ∧ p.carries s v) ∧
  (∀ (s : State) (p : Purpose), s.mains = true → s.store.flight = [] → s.store.waiting = [] →
    ∃ v, (s.request p).store.flight = [⟨p, v⟩] ∧ p.carries s v) ∧
  ∀ (c : Instr) (s t : State) (w : Write), exec c s = .next t → w ∈ t.store.flight → w ∉ s.store.flight →
    ∃ u : State, u.store.recs = t.store.recs ∧ w.purpose.carries u w.puts

/-- R161, R168 ("the one in flight"; DEDUCED, log entry 11): the durable store has at most one write in flight. -/
def Obligations.OneWriteAtATime : Prop :=
  (∀ (c : Instr) (s t : State), s.oneWrite → exec c s = .next t → t.oneWrite) ∧
    ∀ (s t : State), s.oneWrite → step s = .next t → t.oneWrite

/-- R168: while the power state is HOLDUP only writes of the residue record and completions of slots start. -/
def Obligations.HoldupStartsOnlyPermittedWrites : Prop :=
  ∀ (c : Instr) (s t : State) (w : Write), exec c s = .next t → t.holdup = true → w ∈ t.store.flight →
    w ∈ s.store.flight ∨ w.purpose.permittedInHoldup = true

/-! ### Invariants -/

/-- R178, R87, R89, R90, R93, R179: HALTED is never written to the life record; the accepted-code list stays strictly ascending
with at most 32 entries, and the failure count and the lockout level at most 5; the key-installed flag is cleared by nothing. -/
def Obligations.StoredRecordsKeepTheirRules : Prop :=
  ∀ (c : Instr) (s t : State), exec c s = .next t →
    (s.lifeRecordSound → t.lifeRecordSound) ∧ (s.codeRecordOrdered → t.codeRecordOrdered) ∧
      (s.identitySound → t.identitySound ∧
        (s.store.recs.identity.installed = true → t.store.recs.identity.installed = true))

/-- R4, R5, R8, R13, R14, R19, R25: residues, accumulators, stuck counts and the trace keep their ranges, in working state and in
the residue record. -/
def Obligations.RegistrationStaysInRange : Prop :=
  (∀ (c : Instr) (s t : State), s.registrationInRange → exec c s = .next t → t.registrationInRange) ∧
    ∀ (s t : State), s.registrationInRange → step s = .next t → t.registrationInRange

/-- R49: every field of the account record keeps its range, as stored and in every write asked for. -/
def Obligations.AccountRecordStaysInRange : Prop :=
  (∀ (c : Instr) (s t : State), s.accountInRange → exec c s = .next t → t.accountInRange) ∧
    ∀ (s t : State), s.accountInRange → step s = .next t → t.accountInRange

/-- R116, R153, R154, R159, R162, R163: the log holds at most 48 records, at most one OPEN record of each latching class and one
ACTIVE record of each following class, which stands for a condition that is present; every slot in use is named by exactly one
record, whose number it carries, and holds at most eight blocks in each half; as stored and in every write too. With it the
order of the switch state (R105) and RELAY-FAULT only in JAMMED. That a start frees a slot its record does not name is DEDUCED
(log entry 49), and that the log of a part that is off or held is the empty one is the model's choice (log entry 6). -/
def Obligations.LogAndSlotsStayInOrder : Prop :=
  (∀ (c : Instr) (s t : State), s.logOrdered → exec c s = .next t → t.logOrdered) ∧
    ∀ (s t : State), s.logOrdered → step s = .next t → t.logOrdered

/-- R189, R190: the fault set and the fault memory hold no duplicates; a raising joins the newest end and the memory, an end
removes its fault, and the others keep their order; a change makes the FAULT notice pending. While the part runs only a STATUS
request empties the memory. -/
def Obligations.FaultsKeepTheirOrder : Prop :=
  ∀ (c : Instr) (s t : State), exec c s = .next t → (s.faultsOrdered → t.faultsOrdered) ∧ s.faultsFollow t ∧
    (t.running = true → t.life.faults ≠ s.life.faults → .fault ∈ t.link.notices) ∧
    (t.running = true → (∀ flag, c ≠ .status flag) → ∀ f ∈ s.life.memory, f ∈ t.life.memory)

/-- R75, R77, R194, R198: the digit buffer holds at most 20 digits 0 to 9 and the pause timer runs exactly while it holds one;
the link's counters stay within 16 bits, and no notice is pending twice. -/
def Obligations.BufferAndLinkStayBounded : Prop :=
  ∀ (c : Instr) (s t : State), s.linkBounded → exec c s = .next t → t.linkBounded

/-- R105, R110, R112, R120: the attempt count is 1 to 3 in OPENING and CLOSING and 0 in every other state. -/
def Obligations.AttemptCountFollowsTheSwitchState : Prop :=
  ∀ (c : Instr) (s t : State), s.switchOrdered → exec c s = .next t → t.switchOrdered

/-! ### Rules of the whole machine -/

/-- R108, R113: CLOSING is entered without an acknowledgement only while none is required; the acknowledgement is taken in
ARMED. -/
def Obligations.ClosingNeedsAcknowledgement : Prop :=
  ∀ (c : Instr) (s t : State), exec c s = .next t → t.sw.state = .closing → s.sw.state ≠ .closing →
    t.ackRequired = false ∨ (s.sw.state = .armed ∧ s.mains = true ∧ (c = .buttonPress ∨ c = .reconnect))

/-- R105, R108, R112: only a pulse start drives a coil line, in MAINS, after a block has been registered, and the line is
DRV-CLOSE exactly in CLOSING. -/
def Obligations.OnlyAPulseStartDrivesACoil : Prop :=
  ∀ (c : Instr) (s t : State), exec c s = .next t → t.sw.drive ≠ .none → t.sw.drive ≠ s.sw.drive →
    c = .coilPulseStart ∧ s.mains = true ∧ s.sw.drive = .none ∧ s.reg.last ≠ none ∧ t.sw.state = s.sw.state ∧
      (t.sw.drive = .closeLine ↔ s.sw.state = .closing)

/-- R178, R183: the life state of a running part changes only by these events. -/
def Obligations.LifeStateChangesOnlyByItsEvents : Prop :=
  ∀ (c : Instr) (s t : State), exec c s = .next t → t.running = true → t.life.state ≠ s.life.state →
    (c = .entryWriteComplete ∧ t.life.state = .inService) ∨
      (c = .codeAcceptWriteComplete ∧ t.life.state = .serviceWindow) ∨
      ((c = .windowTimerExpiry ∨ c = .closeService ∨ c = .supplyFailing) ∧ s.life.state = .serviceWindow ∧
        t.life.state = .inService)

/-- R29, R30, R32, R36, R173: the clock stays at most 3,155,759,999, and changes only by its second, by a taken SET-TIME, or by a
cold start. -/
def Obligations.ClockChangesOnlyByItsEvents : Prop :=
  (∀ (c : Instr) (s t : State), s.clockInRange → exec c s = .next t → t.clockInRange) ∧
  ∀ (c : Instr) (s t : State), exec c s = .next t → (t.clock ≠ s.clock ∨ t.clockValid ≠ s.clockValid) →
    (c = .clockSecond ∧ t.clock = s.clock + 1 ∧ t.clockValid = s.clockValid) ∨
      (c = .setTimeWriteComplete ∧ t.clockValid = true) ∨
      ((∃ found, c = .start found) ∧ s.backup.retained.intact = false ∧ t.clock = 0 ∧ t.clockValid = false)

/-! ### The link -/

/-- R192, R195 (log entry 7): a request command with nothing in hand stands for its frame's arrival and then its owner's
examination; a wrong length is answered BAD-LENGTH; with another request in hand it is the arrival alone. -/
def Obligations.RequestCommandsStandForFrames : Prop :=
  ∀ (c : Instr) (kind : Byte) (payload : List Byte) (s : State), requestOf c = some (kind, payload) → s.linkUp = true →
    s.link.receiver = .hunting →
    (s.link.inHand = none → lengthOk kind payload = some true →
      (s.validFrame kind payload).examines kind payload ∧ exec c s = exec c (s.validFrame kind payload)) ∧
    (s.link.inHand = none → lengthOk kind payload = some false → exec c s = .next (s.validFrame kind payload) ∧
      (s.validFrame kind payload).link.inHand = some ⟨kind, payload, .replied [Status.badLength.byte]⟩) ∧
    (∀ h, s.link.inHand = some h → h ≠ ⟨kind, payload, .owner⟩ → exec c s = .next (s.validFrame kind payload))

/-- R191, R192: the bytes of a frame, after any noise, are received as the frame they were made from. -/
def Obligations.FrameRoundTrip : Prop :=
  ∀ (kind : Byte) (payload : List Byte) (noise : List RxByte) (s : State), payload.length ≤ 249 →
    (∀ b ∈ noise, b.stopBit = false ∨ b.value ≠ 0xC3) → s.linkUp = true → s.link.receiver = .hunting →
    exec (.frame (noise ++ received (frameBytes kind payload))) s = .next (s.validFrame kind payload)

/-- R192, R193, R194: gaps, missing stop bits, wrong lengths and wrong CRCs each add to their counter and nothing more; a break
resets the receiver and nothing more. -/
def Obligations.LineErrorsAreCounted : Prop :=
  ∀ (s : State), s.linkUp = true →
    (∀ b, s.link.receiver.inFrame = true → exec (.gapError b) s = .next { s with link := { s.link with
      receiver := if b.stopBit = true ∧ b.value = 0xC3 then .synced else .hunting
      gapErrors := min 65535 (s.link.gapErrors + 1) } }) ∧
    (∀ b, s.link.receiver.inFrame = true → b.stopBit = false → exec (.frame [b]) s = .next { s with link := { s.link with
      receiver := .hunting, formatErrors := min 65535 (s.link.formatErrors + 1) } }) ∧
    (∀ b, s.link.receiver = .hunting → b.stopBit = false → exec (.frame [b]) s = .next s) ∧
    (∀ n : Byte, s.link.receiver = .hunting → n = 0 ∨ 250 < n.toNat →
      exec (.frame (received [0xC3, n])) s = .next { s with link := { s.link with
        formatErrors := min 65535 (s.link.formatErrors + 1) } }) ∧
    (∀ (kind : Byte) (payload : List Byte) (crc : BitVec 16), s.link.receiver = .hunting → payload.length ≤ 249 →
      crc ≠ frameCrc (BitVec.ofNat 8 (payload.length + 1) :: kind :: payload) →
      exec (.frame (received
        (0xC3 :: BitVec.ofNat 8 (payload.length + 1) :: kind :: (payload ++ beBytes 2 crc.toNat)))) s =
        .next { s with link := { s.link with crcErrors := min 65535 (s.link.crcErrors + 1) } }) ∧
    exec .lineBreak s = .next { s with link := { s.link with receiver := .waitHigh } } ∧
    (s.link.receiver = .waitHigh → exec .lineHighHunt s = .next { s with link := { s.link with receiver := .hunting } })

/-- R195, R199: a valid frame with nothing in hand becomes the request in hand, answered at once when its kind or length is
wrong; with a request in hand it owes a BUSY, or is discarded when one is owed; it ends LINK-SILENCE and restarts the timer. -/
def Obligations.ValidFramesBecomeRequests : Prop :=
  ∀ (kind : Byte) (payload : List Byte) (s : State), payload.length ≤ 249 → s.linkUp = true → s.link.receiver = .hunting →
    ∃ t, exec (.frame (received (frameBytes kind payload))) s = .next t ∧ State.agreeBut [.store, .tam, .link] s t ∧
      (s.link.inHand = none → t.link.busyOwed = s.link.busyOwed ∧ t.link.inHand = some ⟨kind, payload,
        match lengthOk kind payload with
        | none => .replied [0x03]
        | some false => .replied [0x04]
        | some true => .owner⟩) ∧
      (∀ h, s.link.inHand = some h → t.link.inHand = some h ∧
        t.link.busyOwed = some (s.link.busyOwed.getD ⟨kind ||| 0x80, false⟩)) ∧
      t.tam.linkSilence = false ∧ t.link.silenceRunning = (s.mains && s.config.silence != 0) ∧
      t.link.notices = s.link.notices ∧ t.link.sending = s.link.sending

/-- R197, R198: the free transmitter sends the formed reply first, then an owed BUSY that is ready, then the pending notice of
lowest kind, which leaves the set; while it is sending it sends nothing else. The reply's kind for a request kind of 80h and
above is the model's choice (log entry 56), and that KEYPAD sends a count is DEDUCED (log entry 57). -/
def Obligations.TransmitterPriority : Prop :=
  ∀ (s : State), s.canSend = true →
    (∀ m, s.link.sending = some m → exec .transmitFrame s = .next s) ∧
    (s.link.sending = none →
      (∀ kind p body, s.link.inHand = some ⟨kind, p, .replied body⟩ →
        exec .transmitFrame s = .next { s with link := { s.link with
          sending := some ⟨.reply, frameBytes (kind ||| 0x80) body⟩ } }) ∧
      ((∀ kind p body, s.link.inHand ≠ some ⟨kind, p, .replied body⟩) →
        (∀ kind, s.link.busyOwed = some ⟨kind, true⟩ → exec .transmitFrame s = .next { s with link := { s.link with
          busyOwed := none, sending := some ⟨.busy, frameBytes kind [0x02]⟩ } }) ∧
        ((∀ kind, s.link.busyOwed ≠ some ⟨kind, true⟩) →
          (s.link.notices = [] → exec .transmitFrame s = .next s) ∧
          (∀ n, n ∈ s.link.notices → (∀ m ∈ s.link.notices, n.kindByte.toNat ≤ m.kindByte.toNat) →
            ∃ t, exec .transmitFrame s = .next t ∧ State.agreeBut [.link, .fresh] s t ∧ t.link = { s.link with
              notices := s.link.notices.filter (· ≠ n)
              sending := some ⟨.notice n, frameBytes n.kindByte (s.noticeBody n)⟩ }))))

/-- R195, R205: the last byte of a reply ends its request and makes an owed BUSY ready; RESTART writes the residue record valid,
and after its reply OK and any BUSY owed a start is awaited, in HOLDUP too (the model's choice, log entry 58) and after a dip in
the meantime too (the model's choice, log entry 60); examined in HOLDUP it is refused POWER. -/
def Obligations.RepliesEndAndRestartFollows : Prop :=
  ∀ (s : State),
    (∀ bytes, s.canSend = true → s.link.sending = some ⟨.reply, bytes⟩ → ∃ t, exec .frameSent s = .next t ∧
      State.agreeBut [.backup, .link] s t ∧ t.link.inHand = none ∧ t.link.sending = none ∧
      t.link.busyOwed = s.link.busyOwed.map (fun b => { b with ready := true }) ∧ t.link.notices = s.link.notices ∧
      ((∃ p, s.link.inHand = some ⟨0x2B, p, .replied [0x00]⟩) →
        (s.link.busyOwed = none → t.backup = { s.backup with domain := .awaiting .restart }) ∧
        (s.link.busyOwed ≠ none → t.backup = s.backup ∧ t.link.restartDue = true)) ∧
      ((∀ p, s.link.inHand ≠ some ⟨0x2B, p, .replied [0x00]⟩) → t.backup = s.backup ∧
        t.link.restartDue = s.link.restartDue)) ∧
    (∀ bytes, s.canSend = true → s.link.sending = some ⟨.busy, bytes⟩ → exec .frameSent s = .next { s with
      backup := { s.backup with domain := if s.link.restartDue then .awaiting .restart else s.backup.domain }
      link := { s.link with sending := none } }) ∧
    (s.examines 0x2B [] → ∃ t, exec .restart s = .next t ∧
      (s.holdup = true → s.onlyReplied t .power []) ∧
      (s.holdup = false → t.reg = { s.reg with blockOpen := false } ∧ t.link = s.link.atStage .waiting ∧
        s.sameRecords t ∧ s.store.flight <+: t.store.flight ∧ Purpose.residue true true ∈ t.underWay ∧
        State.agreeBut [.store, .reg, .link] s t))

/-- R195: a request that waits for a durable write (a submitted code, an operator's or the customer's request) is answered when
that write completes, with the status the write carries. A REMOTE-HOLD and a CLOSE-SERVICE are answered by the write that stores
what they brought about (R103, R183). -/
def Obligations.WaitingRequestsAreAnswered : Prop :=
  ∀ (c : Instr) (sel : Purpose → Bool) (s : State) (w : Write) (rest : List Write) (kind : Byte) (st : Status),
    completionOf c = some sel → s.completes sel w rest → (kind, st) ∈ answersOf w.purpose → s.awaits kind = true →
    (s.stored w rest).storesAnswer kind → s.backup.limitExpired = false →
    ∃ t body, exec c s = .next t ∧ s.inHandReplied t st body

/-! ### Reading requests -/

/-- R203, R204, R190, R194: each reading request in hand is answered at once, in every life state and power state in which the
link runs, and nothing else changes; STATUS with its flag empties the fault memory and LINK-STATUS clears the three counters,
each after its reply has been formed with the values as they stood. The body beside BAD-VALUE ([0], as READ-CONFIG's
availability byte too) is the model's choice (log entry 18), and READ-TARIFF selector 5 (log entry 21) and the place of the
key-installed flag in STATUS (R178, log entry 48) are read from the spec by inference. -/
def Obligations.ReadsAreAnsweredAtOnce : Prop :=
  (∀ (s : State),
    (s.examines 0x01 [] → ∃ t, exec .identify s = .next t ∧ s.onlyReplied t .ok s.identifyBody) ∧
    (s.examines 0x03 [] → ∃ t, exec .readInstant s = .next t ∧
      s.onlyReplied t .ok (presenceBytes (s.reg.last.map Summary.bytes))) ∧
    (s.examines 0x04 [] → ∃ t, exec .readEnergy s = .next t ∧ s.onlyReplied t .ok s.energyBody) ∧
    (s.examines 0x05 [] → ∃ t, exec .readAccount s = .next t ∧ s.onlyReplied t .ok s.accountBody) ∧
    (∀ index : Byte, s.examines 0x06 [index] → ∃ t, exec (.readDays index) s = .next t ∧
      (index.toNat ≤ 30 → s.onlyReplied t .ok
        (presenceBytes ((s.store.recs.days.history.reverse[index.toNat]?).map DayRecord.bytes))) ∧
      (30 < index.toNat → s.onlyReplied t .badValue [0])) ∧
    (∀ number : BitVec 32, s.examines 0x07 (beBytes 4 number.toNat) → ∃ t, exec (.readEvidence number) s = .next t ∧
      s.onlyReplied t .ok (presenceBytes ((if number = 0 then s.firstOpen
        else s.tam.evidence.log.find? fun r => r.number == number.toNat).map EvRecord.bytes))) ∧
    (∀ slot half : Byte, s.examines 0x08 [slot, half] → ∃ t, exec (.readSnapshot slot half) s = .next t ∧
      (slot.toNat ≤ 3 ∧ half.toNat ≤ 1 → s.onlyReplied t .ok (s.snapshotBody slot.toNat half.toNat)) ∧
      (¬ (slot.toNat ≤ 3 ∧ half.toNat ≤ 1) → s.onlyReplied t .badValue [0])) ∧
    (s.examines 0x09 [] → ∃ t, exec .readCodeList s = .next t ∧ s.onlyReplied t .ok s.codeListBody) ∧
    (∀ which sel : Byte, s.examines 0x0A [which, sel] → ∃ t, exec (.readTariff which sel) s = .next t ∧
      (which.toNat ≤ 1 ∧ sel.toNat ≤ 5 → s.onlyReplied t .ok (s.tariffBody which.toNat sel.toNat)) ∧
      (¬ (which.toNat ≤ 1 ∧ sel.toNat ≤ 5) → s.onlyReplied t .badValue [0])) ∧
    (∀ sel : Byte, s.examines 0x0B [sel] → ∃ t, exec (.readConfig sel) s = .next t ∧
      s.onlyReplied t (if sel.toNat ≤ 6 then .ok else .badValue) (s.configBody sel)) ∧
    (∀ payload : List Byte, s.examines 0x0D payload → ∃ t, exec (.echo payload) s = .next t ∧
      s.onlyReplied t .ok payload)) ∧
  ∀ (s : State),
    (∀ clearMemory : Byte, s.examines 0x02 [clearMemory] → ∃ t, exec (.status clearMemory) s = .next t ∧
      s.replied t .ok s.statusBody ∧ State.agreeBut [.life, .link, .fresh] s t ∧
      t.life = { s.life with memory := if clearMemory = 0 then s.life.memory else [] }) ∧
    (s.examines 0x0C [] → ∃ t, exec .linkStatus s = .next t ∧ State.agreeBut [.link, .fresh] s t ∧
      t.link = { s.link.atStage (.replied (0x00 :: (beBytes 2 s.link.gapErrors ++ beBytes 2 s.link.crcErrors ++
          beBytes 2 s.link.formatErrors ++ beBytes 2 s.config.silence ++ [boolByte s.tam.linkSilence]))) with
        gapErrors := 0, crcErrors := 0, formatErrors := 0 })

/-- R201, R202: the 30-byte forms of an evidence record and of a block summary hold each field at its offset; a field whose
presence bit is clear is 0. -/
def Obligations.RecordForms : Prop :=
  (∀ (r : EvRecord), r.number < 2 ^ 32 → r.repeats ≤ 65535 → (∀ t ∈ r.onset, t < 2 ^ 32) → (∀ t ∈ r.finish, t < 2 ^ 32) →
    (∀ p ∈ r.phase, p ≤ 3) → (∀ v ∈ r.value, -2147483648 ≤ v ∧ v < 2147483648) → (∀ k ∈ r.slot, k ≤ 3) →
    (∀ q ∈ r.clearSeq, q ≤ 65535) → (∀ t ∈ r.clearTime, t < 2 ^ 32) →
    r.bytes.length = 30 ∧ field r.bytes 0 4 = r.number ∧ field r.bytes 4 1 = r.cls.number ∧
      r.bytes[5]? = some r.state.byte ∧
      (∃ b, r.bytes[6]? = some b ∧ b.getLsbD 0 = r.onset.isSome ∧ b.getLsbD 1 = r.finish.isSome ∧
        b.getLsbD 2 = r.phase.isSome ∧ b.getLsbD 3 = r.value.isSome ∧ b.getLsbD 4 = r.slot.isSome ∧
        b.getLsbD 5 = r.clearSeq.isSome ∧ b.getLsbD 6 = r.clearTime.isSome ∧ b.getLsbD 7 = false) ∧
      field r.bytes 7 4 = r.onset.getD 0 ∧ field r.bytes 11 4 = r.finish.getD 0 ∧ field r.bytes 15 1 = r.phase.getD 0 ∧
      signedField r.bytes 16 4 = r.value.getD 0 ∧ field r.bytes 20 2 = r.repeats ∧
      field r.bytes 22 1 = (if r.onBattery then 1 else 0) ∧ field r.bytes 23 1 = r.slot.getD 0 ∧
      field r.bytes 24 2 = r.clearSeq.getD 0 ∧ field r.bytes 26 4 = r.clearTime.getD 0) ∧
  (∀ (m : Summary), m.phases.p1.irms ≤ 8388607 → m.phases.p2.irms ≤ 8388607 → m.phases.p3.irms ≤ 8388607 →
    m.neutral ≤ 8388607 →
    m.bytes.length = 30 ∧
      field m.bytes 0 2 = min 65535 m.phases.p1.vrms ∧ field m.bytes 8 2 = min 65535 m.phases.p2.vrms ∧
      field m.bytes 16 2 = min 65535 m.phases.p3.vrms ∧
      field m.bytes 2 3 = m.phases.p1.irms ∧ field m.bytes 10 3 = m.phases.p2.irms ∧
      field m.bytes 18 3 = m.phases.p3.irms ∧
      field m.bytes 5 3 = min 16777215 m.phases.p1.energy ∧ field m.bytes 13 3 = min 16777215 m.phases.p2.energy ∧
      field m.bytes 21 3 = min 16777215 m.phases.p3.energy ∧
      field m.bytes 24 3 = m.neutral ∧ field m.bytes 27 2 = min 65535 m.residual ∧
      (∃ b, m.bytes[29]? = some b ∧ b.getLsbD 0 = m.phases.p1.reverse ∧ b.getLsbD 1 = m.phases.p2.reverse ∧
        b.getLsbD 2 = m.phases.p3.reverse ∧ b.getLsbD 3 = m.mag ∧ b.toNat / 16 = m.switch.number))

/-! ### Tamper evidence -/

/-- R153, R140, R141, R147, R155: the onset of a latching class makes its condition present; with detection on it sets the latch
with an OPEN record under the next number, or counts a repeat on the record already open, and the TAMPER hold follows. R159,
R162, R163: the record's place in the log, the slot it gets, and the block trace there as pre-blocks. The end of the condition
is noted on the OPEN record, and the latch stays. -/
def Obligations.LatchesFollowConditions : Prop :=
  (∀ (c : Instr) (cls : EvClass) (s : State), onsetOf c = some cls → s.watching = true → s.tam.condition cls = false →
    (c = .silenceTimerExpiry → s.running = true ∧ s.mains = true ∧ s.link.silenceRunning = true) →
    ∃ t, exec c s = .next t ∧ t.tam.condition cls = true ∧ State.agreeBut [.backup, .store, .sw, .tam, .link] s t ∧
      (s.mains = true → t.backup = s.backup) ∧
      (s.tam.holdsBack ⟨cls, true, s.time, none, none⟩ = true →
        t.tam.heldBack = s.tam.heldBack ++ [⟨cls, true, s.time, none, none⟩] ∧ t.tam.evidence = s.tam.evidence) ∧
      (s.tam.holdsBack ⟨cls, true, s.time, none, none⟩ = false →
        ((s.policy cls).detect = false → t.tam.evidence = s.tam.evidence) ∧
        ((s.policy cls).detect = true → ¬ (cls.isCover = true ∧ s.life.state = .serviceWindow) →
          (isLatched s.tam.evidence.log cls = true → t.tam.evidence = { s.tam.evidence with
            log := s.tam.evidence.log.map (EvRecord.repeated cls 1) }) ∧
          (isLatched s.tam.evidence.log cls = false →
            (∃ slot, t.tam.evidence.log.getLast? = some { blankRecord cls .opened s.time with
              number := s.tam.evidence.next, slot := slot }) ∧
            s.appends t (blankRecord cls .opened s.time) ∧
            t.tam.evidence.next = nextNumber s.tam.evidence.next ∧
            ((s.policy cls).notify = true → .evidence ∈ t.link.notices) ∧
            (s.running = true → s.inService = true → t.sw.record.holds.tamper = t.tamperDue))) ∧
        ((s.policy cls).detect = true → cls.isCover = true → s.life.state = .serviceWindow →
          s.appends t { blankRecord cls .cleared s.time with clearSeq := s.life.window, clearTime := s.time } ∧
          ∃ slot, t.tam.evidence.log.getLast? = some { blankRecord cls .cleared s.time with
            number := s.tam.evidence.next, slot := slot, clearSeq := s.life.window, clearTime := s.time }))) ∧
  (∀ (c : Instr) (cls : EvClass) (s : State), endOf c = some cls → s.watching = true → s.tam.condition cls = true →
    ∃ t, exec c s = .next t ∧ t.tam.condition cls = false ∧ State.agreeBut [.store, .tam] s t ∧
      (s.tam.holdsBack ⟨cls, false, s.time, none, none⟩ = true →
        t.tam.heldBack = s.tam.heldBack ++ [⟨cls, false, s.time, none, none⟩] ∧ t.tam.evidence = s.tam.evidence) ∧
      (s.tam.holdsBack ⟨cls, false, s.time, none, none⟩ = false →
        t.tam.evidence = { s.tam.evidence with
          log := if isLatched s.tam.evidence.log cls then s.tam.evidence.log.map (EvRecord.noteEnd cls s.time)
            else s.tam.evidence.log }) ∧
      ∀ k, isLatched t.tam.evidence.log k = isLatched s.tam.evidence.log k)

/-! ### Metrology and the load limit -/

/-- R6: each RMS value of a block is taken from its squared sum by the greatest integer whose square does not exceed the mean
square, scaled by its own constant; it saturates, and a constant of 0 gives 0. -/
def Obligations.RmsValues : Prop :=
  ∀ (samples : List SampleSet) (mag : Bool) (s : State),
    let m := (s.registers samples mag).summary
    let b := blockResult samples
    let cal := s.config.cal
    let isRms := fun (value sum k : Nat) =>
      (∃ q, q * q ≤ sum / 256 ∧ sum / 256 < (q + 1) * (q + 1) ∧ value = min 8388607 (q * k / 65536)) ∧ (k = 0 → value = 0)
    isRms m.phases.p1.vrms b.v2.p1 cal.kV.p1 ∧ isRms m.phases.p2.vrms b.v2.p2 cal.kV.p2 ∧
      isRms m.phases.p3.vrms b.v2.p3 cal.kV.p3 ∧ isRms m.phases.p1.irms b.i2.p1 cal.kI.p1 ∧
      isRms m.phases.p2.irms b.i2.p2 cal.kI.p2 ∧ isRms m.phases.p3.irms b.i2.p3 cal.kI.p3 ∧
      isRms m.neutral b.n2 cal.kN ∧ isRms m.residual b.r2 cal.kR

/-- R2 to R4, R8 to R12, R18, R19, R24, R51, R52: a block registers its result: the sums of its samples, the stuck counts, per
phase the greatest of the terms that apply, and the residual term; it appends its summary to the trace, and hands its quanta and
increments over, as a new entry or merged into the newest of 14; before the residue record has been established it is discarded,
after a dip too (the model's choice, log entry 59). -/
def Obligations.BlocksAreRegistered : Prop :=
  ∀ (samples : List SampleSet) (mag : Bool) (s : State),
    (s.reg.established = false → exec (.blockComplete samples mag) s = .next s) ∧
    (s.takesBlock samples → ∃ t, exec (.blockComplete samples mag) s = .next t ∧ s.sameRecords t ∧
      State.agreeBut [.store, .reg, .acct, .sw, .sup, .tam, .life, .link] s t ∧
      t.reg = { s.reg with
        acc := (s.registers samples mag).acc, stuck := (s.registers samples mag).stuck
        trace := lastN 8 (s.reg.trace ++ [(s.registers samples mag).summary])
        last := some (s.registers samples mag).summary } ∧
      (blockResult samples).sumsOf samples ∧ stuckCounted samples s.reg.stuck t.reg.stuck ∧
      (s.registers samples mag).byTerms s.config.cal s.config.measure ⟨s.tam.magnet,
        ⟨s.tam.voltageCut.p1.present, s.tam.voltageCut.p2.present, s.tam.voltageCut.p3.present⟩, s.tam.residual.present, mag,
        s.sw.state⟩ s.reg.acc (blockResult samples) ∧
      (s.registers samples mag).summary.mag = mag ∧ (s.registers samples mag).summary.switch = s.sw.state ∧
      (anyStuck s.reg.stuck = anyStuck t.reg.stuck → t.life = s.life) ∧
      (anyStuck s.reg.stuck = false → anyStuck t.reg.stuck = true → .channelStuck ∈ t.life.faults) ∧
      (anyStuck s.reg.stuck = true → anyStuck t.reg.stuck = false → .channelStuck ∉ t.life.faults) ∧
      (s.sound .account = false → t.acct = s.acct) ∧
      (s.sound .account = true → t.acct.queue = joinQuanta s.time (s.registers samples mag).quanta s.acct.queue ∧
        quantaJoined s.time (s.registers samples mag).quanta s.acct.queue t.acct.queue ∧
        (s.life.state = .halted → t.acct.pendingReverse = .all3 0 ∧ t.acct.pendingSubstituted = 0) ∧
        (s.life.state ≠ .halted →
          t.acct.pendingReverse.p1 = min 65535 (s.acct.pendingReverse.p1 + (s.registers samples mag).reverse.p1) ∧
          t.acct.pendingReverse.p2 = min 65535 (s.acct.pendingReverse.p2 + (s.registers samples mag).reverse.p2) ∧
          t.acct.pendingReverse.p3 = min 65535 (s.acct.pendingReverse.p3 + (s.registers samples mag).reverse.p3) ∧
          t.acct.pendingSubstituted = min 65535 (s.acct.pendingSubstituted + (s.registers samples mag).substituted))))

/-- R4, R5, R11 to R14, R28: over any run of blocks energy is neither lost nor made: per phase the residue carries what the
measured energies leave, and Q, the reverse and the substituted accumulators carry what their increments leave; a phase registers
the greatest of the terms that apply to it, and so never less than it measured, and a block their sum with the residual term. -/
def Obligations.EnergyIsConserved : Prop :=
  ∀ (blocks : List BlockCase) (acc : Accumulators) (counts : List Nat),
    let run := registerAll blocks acc counts
    let measured1 := fun x : BlockCase × Accumulators × Registered => measured x.1.result.power.p1 x.1.cal.g.p1 x.2.1.residue.p1
    let measured2 := fun x : BlockCase × Accumulators × Registered => measured x.1.result.power.p2 x.1.cal.g.p2 x.2.1.residue.p2
    let measured3 := fun x : BlockCase × Accumulators × Registered => measured x.1.result.power.p3 x.1.cal.g.p3 x.2.1.residue.p3
    4294967296 * (run.map measured1).sum + (accAfter acc run).residue.p1 =
        (blocks.map fun b => b.result.power.p1.natAbs * b.cal.g.p1).sum + acc.residue.p1 ∧
      4294967296 * (run.map measured2).sum + (accAfter acc run).residue.p2 =
        (blocks.map fun b => b.result.power.p2.natAbs * b.cal.g.p2).sum + acc.residue.p2 ∧
      4294967296 * (run.map measured3).sum + (accAfter acc run).residue.p3 =
        (blocks.map fun b => b.result.power.p3.natAbs * b.cal.g.p3).sum + acc.residue.p3 ∧
      1000000 * (run.map fun x => x.2.2.quanta).sum + (accAfter acc run).q = (run.map fun x => x.2.2.total).sum + acc.q ∧
      1000000 * (run.map fun x => x.2.2.reverse.p1).sum + (accAfter acc run).reverse.p1 =
        (run.map fun x => if x.1.result.power.p1 < 0 then measured1 x else 0).sum + acc.reverse.p1 ∧
      1000000 * (run.map fun x => x.2.2.reverse.p2).sum + (accAfter acc run).reverse.p2 =
        (run.map fun x => if x.1.result.power.p2 < 0 then measured2 x else 0).sum + acc.reverse.p2 ∧
      1000000 * (run.map fun x => x.2.2.reverse.p3).sum + (accAfter acc run).reverse.p3 =
        (run.map fun x => if x.1.result.power.p3 < 0 then measured3 x else 0).sum + acc.reverse.p3 ∧
      1000000 * (run.map fun x => x.2.2.substituted).sum + (accAfter acc run).substituted +
          (run.map fun x => measured1 x + measured2 x + measured3 x).sum =
        (run.map fun x => x.2.2.total).sum + acc.substituted ∧
      ∀ x ∈ run, measured1 x ≤ x.2.2.summary.phases.p1.energy ∧ measured2 x ≤ x.2.2.summary.phases.p2.energy ∧
        measured3 x ≤ x.2.2.summary.phases.p3.energy ∧
        x.2.2.byTerms x.1.cal x.1.settings x.1.inputs x.2.1 x.1.result

/-- R123 to R127: the over-limit count, and the trip that follows when it comes to the persistence. -/
def Obligations.OverLimitBlocksTrip : Prop :=
  ∀ (samples : List SampleSet) (mag : Bool) (s : State), s.takesBlock samples →
    ∃ t, exec (.blockComplete samples mag) s = .next t ∧
      let limit := s.sw.record.codeLimit.getD s.config.switch.limit
      let isOver := s.inService = true ∧ s.sw.state = .closed ∧ limit ≠ 0 ∧
        limit * 1000000 < (s.registers samples mag).total * 57600
      let trips := lastN 3 (s.sup.supply.trips ++ [s.clock])
      let period := if (trips.filter fun x => s.clock ≤ x + 3600).length < 3 then 30 else 1800
      (¬ isOver → t.sup = { s.sup with overCount := 0 }) ∧
      (isOver → s.sup.overCount + 1 < s.config.switch.persistence →
        t.sup = { s.sup with overCount := min 1024 (s.sup.overCount + 1) }) ∧
      (isOver → s.config.switch.persistence ≤ s.sup.overCount + 1 →
        t.sup = { s.sup with overCount := 0, supply := { s.sup.supply with
          trips := trips, backoff := some ⟨s.clock + period, period⟩ } } ∧ t.sw.record.holds.load = true)

/-- R142 to R145, R153: the conditions judged from blocks, each with its persistence: REVERSE per phase over 32 blocks, RESIDUAL
over 16 with its hysteresis, VOLTAGE-CUT per phase over 16, RELAY-BYPASS over 8, whose count stands still while it is suspended.
A condition that begins latches its class; one that ends leaves the latches as they are. R163: where none begins or ends, the
summary joins every COLLECTING slot as a post-block, and the eighth completes it. -/
def Obligations.BlockConditionsBeginAndEnd : Prop :=
  ∀ (samples : List SampleSet) (mag : Bool) (s : State), s.takesBlock samples →
    ∃ t, exec (.blockComplete samples mag) s = .next t ∧
      let m := (s.registers samples mag).summary
      let x := s.config.measure
      let reverse := fun (p : PhaseSummary) (before after : Persist) =>
        before.judgedBy 32 ((p.reverse = true ∧ x.reverseMin ≤ p.energy) ↔ before.present = false) after
      let cut := fun (p : PhaseSummary) (before after : Persist) =>
        before.judgedBy 16 ((p.vrms < x.presence ∧ 200 < p.irms) ↔ before.present = false) after
      let bypass := (m.switch = .opened ∨ m.switch = .armed) ∧
        (s.sw.ls.p1 = true ∨ s.sw.ls.p2 = true ∨ s.sw.ls.p3 = true ∨ x.bypassThreshold < m.phases.p1.irms ∨
          x.bypassThreshold < m.phases.p2.irms ∨ x.bypassThreshold < m.phases.p3.irms)
      reverse m.phases.p1 s.tam.reverse.p1 t.tam.reverse.p1 ∧ reverse m.phases.p2 s.tam.reverse.p2 t.tam.reverse.p2 ∧
      reverse m.phases.p3 s.tam.reverse.p3 t.tam.reverse.p3 ∧
      s.tam.residual.judgedBy 16 (if s.tam.residual.present then m.residual * 100 < x.residualThreshold * 80
        else x.residualThreshold < m.residual) t.tam.residual ∧
      cut m.phases.p1 s.tam.voltageCut.p1 t.tam.voltageCut.p1 ∧ cut m.phases.p2 s.tam.voltageCut.p2 t.tam.voltageCut.p2 ∧
      cut m.phases.p3 s.tam.voltageCut.p3 t.tam.voltageCut.p3 ∧
      (s.tam.suspended = true → t.tam.bypass = s.tam.bypass) ∧
      (t.tam.suspended = false → s.tam.bypass.judgedBy 8 (bypass ↔ s.tam.bypass.present = false) t.tam.bypass) ∧
      (∀ cls ∈ [EvClass.reverse, .residual, .voltageCut, .relayBypass], s.tam.condition cls = false →
        t.tam.condition cls = true → (s.policy cls).detect = true → s.tam.clearing = [] → s.tam.entryHold = false →
        isLatched t.tam.evidence.log cls = true) ∧
      (∀ cls, isLatched s.tam.evidence.log cls = true → isLatched t.tam.evidence.log cls = true) ∧
      ((∀ cls, t.tam.condition cls = s.tam.condition cls) → t.tam.evidence = s.tam.evidence ∧
        t.tam.slots = s.tam.slots.map (Option.map fun sl =>
          if sl.collecting then { sl with post := sl.post ++ [m], collecting := decide (sl.post.length + 1 < 8) } else sl))

/-! ### The credit account -/

/-- R39, R51, R52, R56, R57, R155: a quantum taken in service is charged at the price of its band and counted: the penalty band
while a latched class has the penalty policy, in service; else without a time the default band; else the schedule band at the
time it carries (ScheduleBand says which that is). In COMMISSIONING it is counted alone; in HALTED it is discarded. Every
account write carries the pending counts, as they stand when it is taken (the model's choice, log entry 50); that a latched
class whose detect policy is now off still counts is so too (log entry 47). -/
def Obligations.QuantumIsCharged : Prop :=
  ∀ (time : Option Nat) (n : Nat) (rest : List Entry) (s : State), s.mayTake = true →
    s.acct.queue = .quanta time n :: rest →
    ∃ t, exec .chargeQuantum s = .next t ∧ State.agreeBut [.store, .acct] s t ∧
      t.acct.queue = (if n ≤ 1 then rest else .quanta time (n - 1) :: rest) ∧
      (s.life.state = .halted → t.store = s.store ∧ t.acct.pendingReverse = s.acct.pendingReverse ∧
        t.acct.pendingSubstituted = s.acct.pendingSubstituted) ∧
      (s.life.state ≠ .halted → t.acct.pendingReverse = .all3 0 ∧ t.acct.pendingSubstituted = 0 ∧
        ∃ a, s.asks t (.charge a) ∧
          let r := s.store.recs.account
          let band := s.tariff.bandInForce s.penalty time
          let penalty := s.inService = true ∧ ∃ x ∈ s.tam.evidence.log, x.state = .opened ∧ (s.policy x.cls).penalty = true
          (penalty → band = s.tariff.prices.penaltyBand) ∧
          (¬ penalty → time = none → band = s.tariff.prices.defaultBand) ∧
          (¬ penalty → ∀ t0, time = some t0 → band = s.tariff.bandAt t0) ∧
          let price := s.tariff.prices.prices.getD band 0
          let d := (r.residue + price) / 1000
          a.total = (r.total + 1) % 1000000000 ∧ a.bands = r.bands.modify band (fun x => (x + 1) % 1000000000) ∧
          a.reverse = r.reverse.zip (fun x y => (x + y) % 1000000000) s.acct.pendingReverse ∧
          a.substituted = (r.substituted + s.acct.pendingSubstituted) % 1000000000 ∧ a.emergency = r.emergency ∧
          a.dayCredited = r.dayCredited ∧ a.totalCredited = r.totalCredited ∧
          (s.life.state = .commissioning → a.balance = r.balance ∧ a.residue = r.residue ∧ a.debt = r.debt ∧
            a.dayImport = r.dayImport ∧ a.dayCharged = r.dayCharged ∧ a.totalCharged = r.totalCharged) ∧
          (s.inService = true → a.residue + 1000 * d = r.residue + price ∧ a.residue < 1000 ∧
            a.dayImport = min 999999999 (r.dayImport + 1) ∧ a.dayCharged = min 999999999 (r.dayCharged + d) ∧
            a.totalCharged = min 999999999999 (r.totalCharged + d) ∧
            (-99999999 ≤ r.balance - d → a.balance = r.balance - d ∧ a.debt = r.debt) ∧
            (r.balance - d < -99999999 → a.balance = -99999999 ∧
              (a.debt : Int) = min 999999999 (r.debt + (-99999999 - (r.balance - d))))))

/-- R58: over any number of charged quanta the debits, with the residue, are exactly the prices, and each debit is taken from
the balance or moved into the debt while the debt's limit is not reached. -/
def Obligations.ChargesAreConserved : Prop :=
  ∀ (charges : List (Nat × Nat)) (r : AccountRec),
    let f := charges.foldl (fun a x => a.charge x.1 x.2) r
    let prices := (charges.map Prod.snd).sum
    let debits := (r.residue + prices) / 1000
    r.residue ≤ 999 → r.total < 1000000000 → -99999999 ≤ r.balance → r.debt + debits ≤ 999999999 →
    r.totalCharged + debits ≤ 999999999999 →
    1000 * debits + f.residue = r.residue + prices ∧ f.residue ≤ 999 ∧ f.totalCharged = r.totalCharged + debits ∧
      (r.balance - f.balance) + ((f.debt : Int) - r.debt) = debits ∧ f.total = (r.total + charges.length) % 1000000000

/-- R51, R52, R54, R66, R67, R72: the account unit takes the entry at the head of its queue as one durable write, which carries
the pending counts as they stand at the taking (log entry 50) when it covers the account record (the entry write drops them: log
entry 39; both the model's choice). R66: n days' daily charges take the balance down to the floor and no further, and what the
balance cannot give goes to the debt; the open-day fields begin again at 0. -/
def Obligations.AccountUnitTakesEntries : Prop :=
  (∀ (s : State), s.mayTake = true →
    (∀ first count target rest, s.acct.queue = .dayBoundary first count target :: rest →
      ∃ t, exec .takeDayBoundary s = .next t ∧ State.agreeBut [.store, .acct] s t ∧
        t.acct = { s.acct with queue := rest, pendingReverse := .all3 0, pendingSubstituted := 0 } ∧
        s.asks t (.dayBoundary (s.accountNow.closeDays s.floor s.config.account.daily count)
          (dayRecords s.accountNow s.config.account.daily first count) target)) ∧
    (∀ day rest, s.acct.queue = .dayAdoption day :: rest →
      ∃ t, exec .takeDayAdoption s = .next t ∧ State.agreeBut [.store, .acct] s t ∧
        t.acct = { s.acct with queue := rest } ∧ s.asks t (.dayAdoption day)) ∧
    (∀ rest, s.acct.queue = .entry :: rest →
      ∃ t, exec .takeEntryEntry s = .next t ∧ State.agreeBut [.store, .acct] s t ∧
        t.acct = { s.acct with queue := rest, pendingReverse := .all3 0, pendingSubstituted := 0 } ∧ s.asks t .entry) ∧
    (s.acct.queue = [] → s.acct.pendingReverse ≠ .all3 0 ∨ s.acct.pendingSubstituted ≠ 0 →
      ∃ t, exec .pendingCountsWrite s = .next t ∧ State.agreeBut [.store, .acct] s t ∧
        t.acct = { s.acct with pendingReverse := .all3 0, pendingSubstituted := 0 } ∧
        s.asks t (.charge { s.store.recs.account with
          reverse := s.store.recs.account.reverse.zip (fun x y => (x + y) % 1000000000) s.acct.pendingReverse
          substituted := (s.store.recs.account.substituted + s.acct.pendingSubstituted) % 1000000000 }))) ∧
  ∀ (r : AccountRec) (floor : Int) (charge n : Nat), r.debt ≤ 999999999 → r.totalCharged ≤ 999999999999 →
    let f := r.closeDays floor charge n
    (floor ≤ r.balance → f.balance = max floor (r.balance - n * charge) ∧
      (f.debt : Int) = min 999999999 (r.debt + max 0 (n * charge - (r.balance - floor)))) ∧
    (r.balance < floor → f.balance = r.balance ∧ f.debt = min 999999999 (r.debt + n * charge)) ∧
    f.totalCharged = min 999999999999 (r.totalCharged + n * charge) ∧ f.dayImport = 0 ∧ f.dayCharged = 0 ∧
    f.dayCredited = 0 ∧ f.residue = r.residue ∧ f.total = r.total ∧ f.bands = r.bands ∧ f.emergency = r.emergency

/-- R68, R69, R70: a CREDIT code recovers debt and raises the balance up to the ceiling, a SET-DEBT code adds to the debt up to
its limit; what does not fit is refused OVERFLOW with no write. The write carries the pending counts as they stand at the taking
(the model's choice, log entry 50). -/
def Obligations.CodeEffectsOnTheAccount : Prop :=
  ∀ (kind amount sequence : Nat) (rest : List Entry) (s : State), s.mayTake = true →
    s.acct.queue = .code kind amount sequence :: rest → kind = 1 ∨ kind = 5 →
    ∃ t, exec .takeCodeEntry s = .next t ∧ State.agreeBut [.store, .acct, .code, .link, .fresh] s t ∧ t.acct.queue = rest ∧
      let a := s.accountNow
      let recovered := min a.debt (amount * s.config.account.rate / 100)
      let balance : Int := a.balance + amount - recovered
      let fits := if kind = 1 then balance ≤ s.config.account.ceiling else a.debt + amount ≤ 999999999
      (¬ fits → t.store = s.store ∧ t.acct = { s.acct with queue := rest } ∧ (s.awaitsCode = true →
        t.code.last = ⟨some .overflow, some kind, some sequence, 0, 0, []⟩ ∧ s.replied t .overflow t.codeBody)) ∧
      (fits → t.code = s.code ∧ t.link = s.link ∧ t.acct.pendingReverse = .all3 0 ∧ t.acct.pendingSubstituted = 0 ∧
        (kind = 1 → s.asks t (.codeEffect { a with
            balance := balance
            debt := a.debt - recovered
            emergency := a.emergency && decide (balance < 0)
            dayCredited := min 999999999 (a.dayCredited + amount)
            totalCredited := min 999999999999 (a.totalCredited + amount) } sequence
          ⟨some .ok, some 1, some sequence, amount - recovered, recovered, []⟩)) ∧
        (kind = 5 → s.asks t (.codeEffect { a with debt := a.debt + amount } sequence
          ⟨some .ok, some 5, some sequence, 0, 0, []⟩)))

/-- R61: an EMERGENCY request joins the queue; it is refused POWER in HOLDUP, in every life state (DEDUCED, log entry 13), and
else NOT-ALLOWED at once while the account record has failed (DEDUCED, log entry 14); its entry is taken in service when an
emergency amount is set, the balance is at or below the low threshold and emergency is not in use, and is else refused
NOT-ALLOWED with no write. The pending counts go with it as they stand at the taking (the model's choice, log entry 50). -/
def Obligations.EmergencyCredit : Prop :=
  ∀ (s : State),
    (s.examines 0x12 [] → ∃ t, exec .emergency s = .next t ∧
      (s.holdup = true → s.onlyReplied t .power s.emergencyBody) ∧
      (s.holdup = false → s.sound .account = true → State.agreeBut [.acct, .link] s t ∧
        t.link = s.link.atStage .waiting ∧ t.acct = { s.acct with queue := s.acct.queue ++ [.emergency] }) ∧
      (s.holdup = false → s.sound .account = false → s.onlyReplied t .notAllowed s.emergencyBody)) ∧
    (∀ rest, s.mayTake = true → s.acct.queue = .emergency :: rest →
      let allowed := s.inService = true ∧ 0 < s.config.account.emergency ∧
        s.store.recs.account.balance ≤ s.config.account.low ∧ s.store.recs.account.emergency = false
      ∃ t, exec .takeEmergencyEntry s = .next t ∧ t.acct.queue = rest ∧
        (allowed → State.agreeBut [.store, .acct] s t ∧
          s.asks t (.emergencyTaken { s.accountNow with emergency := true })) ∧
        (¬ allowed → State.agreeBut [.acct, .link, .fresh] s t ∧
          (s.awaits 0x12 = true → s.replied t .notAllowed t.emergencyBody)))

/-- R43, R59, R63, R64, R66: when a write of the account record completes, CREDIT is in the hold set exactly while the credit test
finds it due (in service), and the credit condition is the one that then applies, with a notice when it changed. A completed day
boundary makes the DAY notice too; it and a completed adoption are no longer outstanding, and the comparison that follows at once
puts the next boundary that is due in the queue, ahead of the oldest QUANTA entry of a later day or at its tail (R53). -/
def Obligations.AccountWriteMakesTheCreditTest : Prop :=
  (∀ (c : Instr) (sel : Purpose → Bool) (s : State) (w : Write) (rest : List Write),
    (c = .accountWriteComplete ∧ sel = Purpose.isPlainAccount) ∨ (c = .dayBoundaryWriteComplete ∧ sel = Purpose.isDayBoundary) →
    s.completes sel w rest → s.sound .account = true → s.life.state ≠ .halted → s.backup.limitExpired = false →
    ∃ t, exec c s = .next t ∧ State.agreeBut [.store, .cal, .acct, .sw, .tam, .link, .fresh] s t ∧ s.onlySuspends t ∧
      (s.inService = true → (t.sw.record.holds.credit = true ↔
        t.store.recs.account.balance ≤ t.floor ∧
          ¬ (t.cal.friendly = true ∧ t.floor - t.config.account.friendlyCap < t.store.recs.account.balance))) ∧
      (s.inService = false → t.sw = s.sw ∧ t.tam = s.tam) ∧
      t.acct.condition = some t.conditionNow ∧ t.acct.pendingReverse = s.acct.pendingReverse ∧
      t.acct.pendingSubstituted = s.acct.pendingSubstituted ∧ t.cal.friendly = s.cal.friendly ∧
      (s.acct.condition ≠ some t.conditionNow → .credit ∈ t.link.notices) ∧
      (c = .accountWriteComplete → t.acct.queue = s.acct.queue ∧ t.cal = s.cal) ∧
      (c = .dayBoundaryWriteComplete → .day ∈ t.link.notices)) ∧
  (∀ (c : Instr) (sel : Purpose → Bool) (s : State) (w : Write) (rest : List Write),
    (c = .dayBoundaryWriteComplete ∧ sel = Purpose.isDayBoundary) ∨
      ((∃ day, w.purpose = .dayAdoption day) ∧ c = .durableWriteComplete .days ∧
        sel = fun p => p.isOther && p.covers.contains .days) →
    s.completes sel w rest → s.backup.limitExpired = false →
    ∃ t, exec c s = .next t ∧
      let compares := s.alive = true ∧ s.mains = true ∧ s.inService = true ∧ s.clockValid = true
      (¬ compares → t.cal.outstanding = false ∧ t.acct.queue = s.acct.queue) ∧
      (∀ p, compares → t.store.recs.days.lastDay = some p → dayOf s.clock ≤ p →
        t.cal.outstanding = false ∧ t.acct.queue = s.acct.queue) ∧
      (∀ p, compares → t.store.recs.days.lastDay = some p → p < dayOf s.clock → t.cal.outstanding = true ∧
        boundaryPlaced (.dayBoundary p (min (dayOf s.clock - p) 62) (dayOf s.clock)) p s.acct.queue t.acct.queue) ∧
      (compares → t.store.recs.days.lastDay = none → t.cal.outstanding = true ∧
        t.acct.queue = s.acct.queue ++ [.dayAdoption (dayOf s.clock)]))

/-! ### The meter clock and the calendar -/

/-- R38: the schedule band is the band of the last point whose minute is at most the minute of the day, and the last point's band
when there is none; it does not change within a minute. -/
def Obligations.ScheduleBand : Prop :=
  ∀ (tf : Tariff) (t : Nat) (points : List (Nat × Nat)), points = tf.schedule (tf.dayType (dayOf t)) →
    (points.map Prod.fst).Pairwise (· < ·) →
    (∀ before p after, points = before ++ p :: after → p.1 ≤ minuteOf t → (∀ q ∈ after, minuteOf t < q.1) →
      tf.bandAt t = p.2) ∧
    (∀ before p, points = before ++ [p] → (∀ q ∈ points, minuteOf t < q.1) → tf.bandAt t = p.2) ∧
    (∀ u, u / 60 = t / 60 → tf.bandAt u = tf.bandAt t)

/-- R29, R40, R42, R48, R53, R91, R128: a second of the clock; in MAINS and HOLDUP it reaches the main domain (in a start and an
abandoned start too: DEDUCED, log entry 24), which brings the friendly state up to date at each new minute; in MAINS a due day
boundary is raised, in its place in the queue, and a READY tariff, a lockout and a back-off are tested. A stopped clock, or one
whose memory is lost, does nothing (log entry 25). -/
def Obligations.ClockSecondPasses : Prop :=
  ∀ (s : State),
    (s.backup.retained.intact = false ∨ maxClock ≤ s.clock → exec .clockSecond s = .next s) ∧
    (s.backup.retained.intact = true → s.clock < maxClock → ∃ t, exec .clockSecond s = .next t ∧
      t.backup = { s.backup with retained := { s.backup.retained with clock := s.clock + 1 } } ∧
      State.agreeBut [.backup, .store, .cal, .acct, .sw, .sup, .tam, .link] s t ∧ s.onlySuspends t ∧
      (s.works = false → State.agreeBut [.backup] s t) ∧
      (s.works = true → (s.clock + 1) % 60 = 0 → t.cal.friendly = (s.clockValid && s.tariff.friendlyAt (s.clock + 1))) ∧
      (s.works = true → (s.clock + 1) % 60 ≠ 0 → t.cal.friendly = s.cal.friendly) ∧
      (s.alive = true → s.mains = true →
        (s.inService = true → s.clockValid = true → s.cal.outstanding = false →
          (∀ p, s.store.recs.days.lastDay = some p → p < dayOf (s.clock + 1) → t.cal.outstanding = true ∧
            boundaryPlaced (.dayBoundary p (min (dayOf (s.clock + 1) - p) 62) (dayOf (s.clock + 1))) p s.acct.queue
              t.acct.queue) ∧
          (∀ p, s.store.recs.days.lastDay = some p → dayOf (s.clock + 1) ≤ p → t.cal.outstanding = false) ∧
          (s.store.recs.days.lastDay = none → t.cal.outstanding = true ∧
            t.acct.queue = s.acct.queue ++ [.dayAdoption (dayOf (s.clock + 1))])) ∧
        (∀ parts t0 ident, s.store.recs.tariff.pending = .ready parts t0 ident → s.clockValid = true → t0 ≤ s.clock + 1 →
          s.tariffBusy = false → .tariffActivation ∈ t.underWay) ∧
        (∀ until_, s.lockoutUntil = some until_ → s.sound .code = true → until_ ≤ s.clock + 1 ∨ s.clock + 1 = maxClock →
          .lockoutEnd ∈ t.underWay) ∧
        (∀ until_ period, s.sup.supply.backoff = some ⟨until_, period⟩ → until_ ≤ s.clock + 1 →
          t.sup.supply.backoff = none ∧ t.sw.record.holds.load = false)))

/-- R48, R91, R127, R128: a READY tariff whose time has come, a lockout and a back-off whose end is reached; a back-off end more
than its period ahead of the clock is first brought in (the commands repeat a test that R91 and R128 make: log entry 10). R40,
R48, R91: an activation that completes brings the friendly state up to date with the TARIFF notice, and a lockout's end that
completes ends CODE-ATTACK, whose latch stays. -/
def Obligations.EndsReachedByTheClock : Prop :=
  (∀ (s : State), s.alive = true → s.mains = true →
    (∀ parts t0 ident, s.store.recs.tariff.pending = .ready parts t0 ident → s.clockValid = true → t0 ≤ s.clock →
      s.tariffBusy = false → ∃ t, exec .tariffActivation s = .next t ∧ s.asks t .tariffActivation ∧
        State.agreeBut [.store] s t) ∧
    (∀ until_, s.lockoutUntil = some until_ → s.sound .code = true → until_ ≤ s.clock ∨ s.clock = maxClock →
      .lockoutEnd ∉ s.underWay → ∃ t, exec .lockoutEnd s = .next t ∧ s.asks t .lockoutEnd ∧ State.agreeBut [.store] s t) ∧
    (∀ until_ period, s.sup.supply.backoff = some ⟨until_, period⟩ → until_ ≤ s.clock + period →
      until_ ≤ s.clock ∨ s.clock = maxClock → ∃ t, exec .backoffEnd s = .next t ∧
        t.sup = { s.sup with supply := { s.sup.supply with backoff := none } } ∧ t.sw.record.holds.load = false ∧
        State.agreeBut [.store, .sw, .sup, .tam, .link] s t ∧ s.onlySuspends t) ∧
    (∀ until_ period, s.sup.supply.backoff = some ⟨until_, period⟩ → s.clock + period < until_ → 0 < period →
      s.clock ≠ maxClock → ∃ t, exec .backoffEnd s = .next t ∧ State.agreeBut [.store, .sup] s t ∧
        t.sup = { s.sup with supply := { s.sup.supply with backoff := some ⟨s.clock + period, period⟩ } })) ∧
  ∀ (s : State) (w : Write) (rest : List Write), s.backup.limitExpired = false →
    (s.completes Purpose.isActivation w rest → ∃ t, exec .tariffActivationComplete s = .next t ∧
      State.agreeBut [.store, .cal, .acct, .sw, .tam, .link] s t ∧ s.onlySuspends t ∧ .tariff ∈ t.link.notices ∧
      t.cal = { s.cal with friendly := s.clockValid && t.tariff.friendlyAt s.clock }) ∧
    (s.completes Purpose.isLockoutEnd w rest → ∃ t, exec .lockoutEndWriteComplete s = .next t ∧
      State.agreeBut [.store, .tam] s t ∧ t.tam.codeAttack = false ∧
      (∀ k, isLatched t.tam.evidence.log k = isLatched s.tam.evidence.log k) ∧
      (s.tam.codeAttack = true → s.tam.holdsBack ⟨.codeAttack, false, s.time, none, none⟩ = false →
        t.tam.evidence = { s.tam.evidence with
          log := if isLatched s.tam.evidence.log EvClass.codeAttack then
            s.tam.evidence.log.map (EvRecord.noteEnd EvClass.codeAttack s.time) else s.tam.evidence.log }))

/-- R32, R33, R34, R35, R92, R150: the examination of a SET-TIME, in its order; a lockout in force has its remaining time carried,
counted from the end a re-arming under way is to store when there is one. -/
def Obligations.SetTimeExamination : Prop :=
  ∀ (value : BitVec 32) (s : State), s.examines 0x20 (beBytes 4 value.toNat) →
    let v := value.toNat
    let lockout := s.lockoutUntil.map fun until_ => until_ - s.clock
    ∃ t, exec (.setTime value) s = .next t ∧
      if s.life.state = .halted then s.onlyReplied t .state s.setTimeBody
      else if 3155759999 < v then s.onlyReplied t .badValue s.setTimeBody
      else if s.holdup = true then s.onlyReplied t .power s.setTimeBody
      else if s.life.state ≠ .inService then
        s.onlyWaits t (.setTime v s.time (if s.clockValid then 0 else 1) none lockout)
      else if s.clockValid = false then s.onlyWaits t (.setTime v none 1 (some (v / 86400)) lockout)
      else if (v ≤ s.clock + 300 ∧ s.clock ≤ v + 300) ∧ ∀ d ∈ s.store.recs.days.adjustDay, d < s.clock / 86400 then
        s.onlyWaits t (.setTime v (some s.clock) 0 (some (v / 86400)) lockout)
      else State.agreeBut [.store, .tam, .link, .fresh] s t ∧ s.inHandReplied t .clockLimit s.setTimeBody ∧
        t.tam.evidence.log.getLast? = some { blankRecord .clockStep .ended (some s.clock) with
          number := s.tam.evidence.next, finish := some v, value := some 2 }

/-- R30, R33 to R36, R150: when its write completes, a taken SET-TIME sets the clock VALID at the requested value, ends
CLOCK-INVALID, records the CLOCK-STEP, brings the friendly state up to date, and makes the tests on the clock (R91, R128). -/
def Obligations.SetTimeTakesEffect : Prop :=
  ∀ (s : State) (value : Nat) (prior : Option Nat) (outcome : Nat) (adjustDay carry : Option Nat) (puts : List RecordValue)
    (rest : List Write),
    s.completes Purpose.isSetTime ⟨.setTime value prior outcome adjustDay carry, puts⟩ rest → s.backup.limitExpired = false →
    ∃ t, exec .setTimeWriteComplete s = .next t ∧
      State.agreeBut [.backup, .store, .cal, .acct, .sw, .sup, .tam, .life, .link, .fresh] s t ∧
      t.backup = { s.backup with retained := { s.backup.retained with clock := value, valid := true } } ∧
      t.life = { s.life with faults := s.life.faults.filter (· ≠ .clockInvalid) } ∧
      t.cal.friendly = t.tariff.friendlyAt value ∧
      t.tam.evidence.log.getLast? = some { blankRecord .clockStep .ended prior with
        number := s.tam.evidence.next, finish := some value, value := some (outcome : Int) } ∧
      (s.alive = true → s.mains = true →
        (∀ until_ period, s.sup.supply.backoff = some ⟨until_, period⟩ → until_ ≤ value →
          t.sup.supply.backoff = none ∧ t.sw.record.holds.load = false) ∧
        (∀ until_, t.lockoutUntil = some until_ → t.sound .code = true → until_ ≤ value → .lockoutEnd ∈ t.underWay))

/-! ### Life control -/

/-- R72, R165, R180, R181: the examination of CLOSE-COMMISSION, in its order; what the entry write carries when it starts and has
stored when it completes, the other records being as before; and what entry into service brings then. That the write drops the
pending counts (log entry 39), and that the ACTIVE records keep their order (log entry 64), are the model's choice. -/
def Obligations.EntryIntoService : Prop :=
  (∀ s : State, s.examines 0x29 [] → ∃ t, exec .closeCommission s = .next t ∧
    if s.life.state ≠ .commissioning then s.onlyReplied t .state s.commissionBody
    else if s.holdup = true then s.onlyReplied t .power s.commissionBody
    else if s.store.recs.identity.installed = false ∨ s.clockValid = false ∨
        ¬ (∀ sec ∈ [ConfigSection.cal, .measure, .account, .switch, .thermal, .tamper],
          sec ∈ s.store.recs.config.written) then
      s.onlyReplied t .notAllowed s.commissionBody
    else if allClasses.any s.tam.condition = true then s.onlyReplied t .condition s.commissionBody
    else State.agreeBut [.reg, .sup, .code, .acct, .tam, .link] s t ∧ t.reg = { s.reg with acc := .zero } ∧
      t.sup = { s.sup with overCount := 0 } ∧ t.code = { s.code with digits := [], pauseRunning := false } ∧
      t.acct = { s.acct with queue := s.acct.queue ++ [.entry] } ∧ t.tam = { s.tam with entryHold := true } ∧
      t.link = s.link.atStage .waiting) ∧
  (∀ (s : State) (rest : List Entry), s.mayTake = true → s.acct.queue = .entry :: rest → s.store.flight = [] →
    s.store.waiting = [] → ∃ t v, exec .takeEntryEntry s = .next t ∧ t.store.flight = [⟨.entry, v⟩] ∧
      Purpose.carries s v .entry) ∧
  (∀ (s : State) (w : Write) (rest : List Write), s.completes Purpose.isEntry w rest → s.backup.limitExpired = false →
    ∃ t, exec .entryWriteComplete s = .next t ∧
      (∀ u : State, Purpose.carries u w.puts .entry → u.entryStores t.store.recs ∧ t.store.recs = { t.store.recs with
        config := s.store.recs.config, identity := s.store.recs.identity, tariff := s.store.recs.tariff
        switch := s.store.recs.switch, residue := s.store.recs.residue }) ∧
      State.agreeBut [.backup, .store, .acct, .sw, .sup, .tam, .life, .link, .fresh] s t ∧
      (s.holdup = false → t.backup = s.backup) ∧
      (s.tam.heldBack = [] → ∀ r ∈ t.tam.evidence.log, r.state = .active) ∧
      t.life = { s.life with state := .inService, window := none } ∧
      t.sup = { s.sup with supply := { s.sup.supply with trips := [], backoff := none } } ∧
      t.sw.record.holds.load = false ∧ t.sw.record.holds.remote = s.sw.record.holds.remote ∧
      t.sw.record.holds.thermal = s.sw.record.holds.thermal ∧ t.tam.entryHold = false ∧ t.tam.heldBack = [] ∧
      .life ∈ t.link.notices ∧
      (s.sound .account = true → .credit ∈ t.link.notices ∧ t.sw.record.holds.credit = t.creditDue))

/-- R183: a service window ends at its timer's expiry or at a CLOSE-SERVICE: IN-SERVICE, no sequence, a LIFE notice, a write of
the life record, and each cover that stands open latches; outside a window CLOSE-SERVICE is refused STATE. -/
def Obligations.ServiceWindowEnds : Prop :=
  ∀ (c : Instr) (s : State),
    (c = .windowTimerExpiry ∧ s.running = true ∧ s.life.timer.isSome = true) ∨ (c = .closeService ∧ s.examines 0x2A []) →
    ∃ t, exec c s = .next t ∧
      (s.life.state = .serviceWindow → t.life = { s.life with state := .inService, window := none, timer := none } ∧
        .life ∈ t.link.notices ∧ State.agreeBut [.backup, .store, .sw, .tam, .life, .link] s t ∧
        (s.mains = true → t.backup = s.backup ∧ .lifeRecord ∈ t.underWay) ∧
        (c = .closeService → t.link.inHand = s.link.inHand.map fun h => { h with stage := .waiting }) ∧
        (∀ which, s.tam.coverSeen which = true → (s.policy which.cls).detect = true → s.tam.clearing = [] →
          s.tam.entryHold = false → isLatched t.tam.evidence.log which.cls = true)) ∧
      (s.life.state ≠ .serviceWindow → c = .closeService → s.onlyReplied t .state [s.life.state.byte])

/-- R179, R187, R188: the examinations of INSTALL-KEY and WRITE-CONFIG, each in its order, and the authority of each life state
over each section; the fields of each section as sent, the ranges they are clamped to and TAMPER's fixed values (R21, R50, R121,
R123, R136, R139, R152, R186, R200), and the relations of R187 (the body beside BAD-VALUE for a selector above 6 is the model's
choice, log entry 18). R50, R115, R199: what their completed writes bring about: the LIFE notice; the credit test for new
ACCOUNT settings; the judgement of ARMED for new SWITCH settings, and the code limit withdrawn by a SWITCH write that has the
limit field; the silence timer restarted for a new LINK. -/
def Obligations.KeyAndConfigExamination : Prop :=
  (∀ (serial : BitVec 32) (key : BitVec 120) (s : State),
    s.examines 0x28 (beBytes 4 serial.toNat ++ beBytes 15 key.toNat) →
    ∃ t, exec (.installKey serial key) s = .next t ∧
      if s.life.state = .halted then s.onlyReplied t .state s.keyBody
      else if s.life.state = .inService ∨ s.life.state = .serviceWindow then s.onlyReplied t .authority s.keyBody
      else if s.store.recs.identity.installed = true then s.onlyReplied t .notAllowed s.keyBody
      else if s.holdup = true then s.onlyReplied t .power s.keyBody
      else s.onlyWaits t (.identity serial key)) ∧
  (∀ (sel : Byte) (contents : List Byte) (s : State), s.examines 0x27 (sel :: contents) →
    ∃ t, exec (.writeConfig sel contents) s = .next t ∧
      (6 < sel.toNat → s.onlyReplied t .badValue (s.writeConfigBody sel)) ∧
      ∀ sec, sectionByte sec = sel →
        let mayCommission := s.life.state = .commissioning
        let mayWindow := s.life.state = .serviceWindow ∧ sec ≠ .cal ∧ sec ≠ .tamper
        let mayService := s.life.state = .inService ∧ sec = .link
        if s.life.state = .halted then s.onlyReplied t .state (s.writeConfigBody sel)
        else if ¬ (mayCommission ∨ mayWindow ∨ mayService) then s.onlyReplied t .authority (s.writeConfigBody sel)
        else if s.holdup = true then s.onlyReplied t .power (s.writeConfigBody sel)
        else if relationsHold s.store.recs.account.balance (clampSection (readSection sec contents)) = false then
          s.onlyReplied t .badValue (s.writeConfigBody sel)
        else s.onlyWaits t (.config (clampSection (readSection sec contents))
          (clampSection (readSection sec contents) != readSection sec contents))) ∧
  (∀ (sec : ConfigSection) (contents : List Byte),
    sectionHolds false contents sec (readSection sec contents) ∧
      sectionHolds true contents sec (clampSection (readSection sec contents))) ∧
  (∀ (balance : Int) (v : SectionValue), relationsHold balance v = true ↔ sectionRelations balance v) ∧
  (∀ (s : State) (w : Write) (rest : List Write), s.completes Purpose.isIdentity w rest → s.backup.limitExpired = false →
    ∃ t, exec .identityWriteComplete s = .next t ∧ State.agreeBut [.store, .link, .fresh] s t ∧ .life ∈ t.link.notices) ∧
  (∀ (s : State) (v : SectionValue) (clamped : Bool) (puts : List RecordValue) (rest : List Write),
    s.completes Purpose.isConfig ⟨.config v clamped, puts⟩ rest → s.backup.limitExpired = false →
    ∃ t, exec .configWriteComplete s = .next t ∧ State.agreeBut [.store, .acct, .sw, .tam, .link, .fresh] s t ∧
      s.onlySuspends t ∧
      (∀ a, v = .account a → t.sound .account = true → s.life.state ≠ .halted →
        t.acct = { s.acct with condition := some t.conditionNow } ∧
          (s.inService = true → t.sw.record.holds.credit = t.creditDue)) ∧
      (∀ w b, v = .switch w b →
        let kept := { s.sw with record :=
          { s.sw.record with codeLimit := if b then none else s.sw.record.codeLimit } }
        (s.sw.state ≠ .armed → t.sw = kept) ∧
        (s.sw.state = .armed → s.sw.sensing = none → s.sw.record.holds.isEmpty = true →
          (t.ackRequired = true → t.sw = kept) ∧
          (t.ackRequired = false → s.mains = true → t.sw = kept.enters .closing ∧ .switch ∈ t.link.notices))) ∧
      (∀ n, v = .link n → t.link.silenceRunning = (s.mains && t.config.silence != 0)) ∧
      ((∀ a, v ≠ .account a) → t.acct = s.acct) ∧
      ((∀ a, v ≠ .account a) → (∀ w b, v ≠ .switch w b) → t.sw = s.sw ∧ t.tam = s.tam))

/-! ### The tariff store -/

/-- R45: each section of a tariff is clamped, judged as clamped, and refused or stored as its table says. R46, R47: the
examination of the four tariff requests, while no write of the tariff record is in hand. -/
def Obligations.TariffRequestExamination : Prop :=
  (∀ (sel : Byte) (contents : List Byte), tariffSectionJudged sel.toNat contents (readTariffSection sel contents)) ∧
  ∀ (c : Instr) (kind : Byte) (payload : List Byte) (s : State), requestOf c = some (kind, payload) →
    (0x23 ≤ kind ∧ kind ≤ 0x26) → s.examines kind payload → s.tariffBusy = false →
    let pending := s.store.recs.tariff.pending
    ∃ t, exec c s = .next t ∧
      (s.life.state = .halted → ∃ body, s.onlyReplied t .state body) ∧
      (s.life.state = .inService → ∃ body, s.onlyReplied t .authority body) ∧
      (s.life.state = .commissioning ∨ s.life.state = .serviceWindow →
        (s.holdup = true → ∃ body, s.onlyReplied t .power body) ∧
        (s.holdup = false →
          (c = .tariffBegin → s.onlyWaits t (.tariffRequest 0x23 0 (.building .none) .ok)) ∧
          (∀ sel contents, c = .tariffSection sel contents →
            (∀ parts, pending = .building parts →
              (readTariffSection sel contents = none → s.onlyReplied t .badValue (s.tariffSectionBody sel.toNat)) ∧
              (∀ v clamped, readTariffSection sel contents = some (v, clamped) → s.onlyWaits t (.tariffRequest 0x24 sel.toNat
                (.building (parts.put v)) (if clamped then .clamped else .ok)))) ∧
            ((∀ parts, pending ≠ .building parts) → s.onlyReplied t .state (s.tariffSectionBody sel.toNat))) ∧
          (∀ time ident, c = .tariffCommit time ident →
            (∀ parts, pending = .building parts →
              (parts.complete = false → s.onlyReplied t .incomplete s.commitBody) ∧
              (parts.complete = true → s.onlyWaits t (.tariffRequest 0x25 0 (.ready parts (min 3155759999 time.toNat)
                ident.toNat) (if 3155759999 < time.toNat then .clamped else .ok)))) ∧
            ((∀ parts, pending ≠ .building parts) → s.onlyReplied t .state s.commitBody)) ∧
          (c = .tariffDiscard →
            (pending = .empty → s.onlyReplied t .ok [0]) ∧
            (pending ≠ .empty → s.onlyWaits t (.tariffRequest 0x26 0 .empty .ok)))))

/-! ### Top-up codes -/

/-- R75, R76, R77: what each key and the pause timer's expiry do to the digit buffer, and the count each reply carries. -/
def Obligations.KeystrokesEditTheBuffer : Prop :=
  ∀ (s : State),
    (∀ key : Byte, s.examines 0x10 [key] → s.life.state ≠ .halted →
      (key.toNat ≤ 9 → ∃ t, exec (.codeKeyDigit key) s = .next t ∧ State.agreeBut [.code, .link, .fresh] s t ∧
        (s.code.digits.length < 20 →
          t.code = { s.code with digits := s.code.digits ++ [key], pauseRunning := true } ∧
          s.replied t .ok (beBytes 1 (s.code.digits.length + 1))) ∧
        (s.code.digits.length = 20 → t.code = { s.code with pauseRunning := true } ∧ s.replied t .full [20])) ∧
      (12 < key.toNat → ∃ t, exec (.codeKeyDigit key) s = .next t ∧
        s.onlyReplied t .badValue (beBytes 1 s.code.digits.length))) ∧
    (s.examines 0x10 [0x0A] → s.life.state ≠ .halted → ∃ t, exec .codeKeyClear s = .next t ∧
      State.agreeBut [.code, .link, .fresh] s t ∧ t.code = { s.code with digits := [], pauseRunning := false } ∧
      s.replied t .ok [0]) ∧
    (s.examines 0x10 [0x0B] → s.life.state ≠ .halted → ∃ t, exec .codeKeyBack s = .next t ∧
      State.agreeBut [.code, .link, .fresh] s t ∧
      t.code = { s.code with
        digits := s.code.digits.take (s.code.digits.length - 1), pauseRunning := decide (1 < s.code.digits.length) } ∧
      s.replied t .ok (beBytes 1 (s.code.digits.length - 1))) ∧
    (∀ (c : Instr) (key : Byte), c = .codeKeyDigit key ∨ (c = .codeKeyClear ∧ key = 0x0A) ∨ (c = .codeKeyBack ∧ key = 0x0B) →
      key ≠ 0x0C → s.examines 0x10 [key] → s.life.state = .halted → ∃ t, exec c s = .next t ∧
        s.onlyReplied t .state (beBytes 1 s.code.digits.length)) ∧
    (s.examines 0x10 [0x0C] → s.life.state = .halted → ∃ t, exec .codeKeyEnter s = .next t ∧
      s.onlyReplied t .state s.code.last.bytes) ∧
    (s.linkUp = true → s.code.pauseRunning = true → ∃ t, exec .pauseTimerExpiry s = .next t ∧
      State.agreeBut [.code, .link] s t ∧ t.code = { s.code with digits := [], pauseRunning := false } ∧
      t.link = { s.link with notices := t.link.notices } ∧ .keypad ∈ t.link.notices ∧
      ∀ n ∈ s.link.notices, n ∈ t.link.notices)

/-- R78 to R89, R93 to R97: a submission of 20 digits, by ENTER or by CODE-ENTER, empties the buffer and is examined in the
order of R80 and R81; every refusal is the last code result and the reply; a counted failure or an accepted code waits for its
write or its owner. -/
def Obligations.SubmissionsAreExaminedInOrder : Prop :=
  ∀ (c : Instr) (digits : List Byte) (s : State),
    (c = .codeEnter digits ∧ s.examines 0x11 digits) ∨
      (c = .codeKeyEnter ∧ s.examines 0x10 [0x0C] ∧ s.code.digits = digits ∧ s.life.state ≠ .halted) →
    ∃ t, exec c s = .next t ∧ State.agreeBut [.store, .acct, .code, .tam, .link, .fresh] s t ∧ t.code.digits = [] ∧
      t.code.pauseRunning = false ∧
      let u := unscramble s.store.recs.identity.key (ofDigits (digits.take 18))
      let kind := codeKind u
      let sequence := codeSequence u
      let amount := codeAmount u
      let code := s.store.recs.code
      let refused := fun (st : Status) (k n : Option Nat) =>
        State.agreeBut [.code, .link, .fresh] s t ∧ t.code.last = ⟨some st, k, n, 0, 0, []⟩ ∧ s.replied t st t.code.last.bytes
      let waits := fun (p : Purpose) => t.code.last = s.code.last ∧ t.link = s.link.atStage .waiting ∧ s.asks t p ∧ t.acct = s.acct
      (¬ (∀ d ∈ digits, d.toNat ≤ 9) → c = .codeEnter digits → refused .format none none) ∧
      (digits.length < 20 → c = .codeKeyEnter → refused .format none none) ∧
      (digits.length = 20 → (∀ d ∈ digits, d.toNat ≤ 9) →
        if s.life.state = .halted then refused .state none none
        else if s.store.recs.identity.installed = false then refused .state none none
        else if s.holdup = true then refused .power none none
        else if code.lockEnd ≠ none then refused .locked none none
        else if ofDigits (digits.drop 18) ≠ ofDigits (digits.take 18) % 97 then refused .check none none
        else if (crc16 0 (beBytes 4 s.store.recs.identity.serial.toNat ++ beBytes 6 (u / 65536 * 16))).toNat ≠ codeCheck u then
          waits (.counted .auth none none s.clock) ∧ t.tam = s.tam
        else if ¬ (1 ≤ kind ∧ kind ≤ 5 ∧ 1 ≤ sequence) then
          waits (.counted .kind (some kind) (some sequence) s.clock) ∧ t.tam = s.tam
        else if sequence ∈ code.accepted then refused .used (some kind) (some sequence)
        else if code.accepted.length = 32 ∧ sequence < code.accepted.headD 0 then refused .stale (some kind) (some sequence)
        else if s.life.state = .commissioning then refused .state (some kind) (some sequence)
        else
          (kind = 1 ∨ kind = 5 → State.agreeBut [.acct, .code, .link] s t ∧ t.code.last = s.code.last ∧
            t.link = s.link.atStage .waiting ∧
            t.acct = { s.acct with queue := s.acct.queue ++ [.code kind (10 * amount) sequence] }) ∧
          (kind = 2 →
            let named := allClasses.filter fun cls => amount.testBit (cls.number - 1) && isLatched s.tam.evidence.log cls
            let clear := named.filter fun cls => !s.tam.condition cls
            t.tam = { s.tam with clearing := clear } ∧ waits (.clearTamper clear sequence s.time
              ⟨some .ok, some 2, some sequence, 0, 0, named.filter s.tam.condition⟩)) ∧
          (kind = 3 → t.tam = s.tam ∧ waits (.setLimit (if amount = 0 then none else some amount) sequence
            ⟨some .ok, some 3, some sequence, amount, 0, []⟩)) ∧
          (kind = 4 → t.tam = s.tam ∧ waits (.openService (max 1 (min 240 amount)) sequence
            ⟨some .ok, some 4, some sequence, max 1 (min 240 amount), 0, []⟩)))

/-- R89, R90, R93 to R96, R98, R146, R156, R182: what the completed write of a code brings about: the last code result (and the
reply to the submission that waits for it); for a CREDIT or SET-DEBT code the credit test, for a CLEAR-TAMPER code the clearing,
the TAMPER hold judged and the arrivals held back taken, for a SET-LIMIT code the code limit, for an OPEN-SERVICE code the
service window; for a counted failure that starts a lockout the onset of CODE-ATTACK with the level. -/
def Obligations.CodeWritesTakeEffect : Prop :=
  (∀ (s : State) (w : Write) (rest : List Write), s.completes Purpose.isAcceptance w rest → s.backup.limitExpired = false →
    ∃ t, exec .codeAcceptWriteComplete s = .next t ∧
      (s.awaitsCode = true → s.inHandReplied t .ok t.code.last.bytes) ∧
      t.code = { s.code with last := t.code.last } ∧
      (∀ a sequence r, w.purpose = .codeEffect a sequence r → t.code.last = r ∧
        State.agreeBut [.store, .acct, .code, .sw, .tam, .link, .fresh] s t ∧ s.onlySuspends t ∧
        (s.sound .account = true → s.life.state ≠ .halted → t.acct = { s.acct with condition := some t.conditionNow } ∧
          (s.inService = true → t.sw.record.holds.credit = t.creditDue))) ∧
      (∀ limit sequence r, w.purpose = .setLimit limit sequence r → t.code.last = r ∧
        State.agreeBut [.store, .code, .sw, .link, .fresh] s t ∧
        t.sw = { s.sw with record := { s.sw.record with codeLimit := limit } }) ∧
      (∀ minutes sequence r, w.purpose = .openService minutes sequence r → t.code.last = r ∧
        State.agreeBut [.store, .code, .life, .link, .fresh] s t ∧
        t.life = { s.life with state := .serviceWindow, window := some sequence, timer := some minutes } ∧
        (s.life.state ≠ .serviceWindow → .life ∈ t.link.notices)) ∧
      (∀ classes sequence time r, w.purpose = .clearTamper classes sequence time r → t.code.last = r ∧
        State.agreeBut [.backup, .store, .code, .sw, .tam, .link, .fresh] s t ∧ (s.holdup = false → t.backup = s.backup) ∧
        t.tam.clearing = [] ∧ t.tam.heldBack = [] ∧
        (∀ cls ∈ classes, (s.policy cls).notify = true → .evidence ∈ t.link.notices) ∧
        (s.running = true → s.inService = true → t.sw.record.holds.tamper = t.tamperDue) ∧
        (s.tam.heldBack = [] → t.tam.evidence = s.tam.evidence.clearing classes sequence time) ∧
        (∀ cls ∈ classes, (∀ a ∈ s.tam.heldBack, a.cls ≠ cls) → isLatched t.tam.evidence.log cls = false) ∧
        (∀ a, s.tam.heldBack = [a] → a.isOnset = true → a.cls ∈ classes → (s.policy a.cls).detect = true →
          ¬ (a.cls.isCover = true ∧ s.life.state = .serviceWindow) → ∃ slot, t.tam.evidence.log.getLast? =
            some { blankRecord a.cls .opened a.time with
              number := s.tam.evidence.next, slot := slot, phase := a.phase, value := a.value }))) ∧
  (∀ (s : State) (st : Status) (kind sequence : Option Nat) (clock : Nat) (puts : List RecordValue) (rest : List Write),
    s.completes Purpose.isCounted ⟨.counted st kind sequence clock, puts⟩ rest → s.backup.limitExpired = false →
    ∃ t, exec .countedFailureWriteComplete s = .next t ∧
      State.agreeBut [.store, .code, .sw, .tam, .link, .fresh] s t ∧
      t.code = { s.code with last := ⟨some st, kind, sequence, 0, 0, []⟩ } ∧
      (s.awaitsCode = true → s.inHandReplied t st t.code.last.bytes) ∧
      (t.store.recs.code.lockEnd = none → t.tam = s.tam ∧ t.sw = s.sw) ∧
      (t.store.recs.code.lockEnd ≠ none → t.tam.codeAttack = true ∧
        (s.tam.holdsBack ⟨.codeAttack, true, s.time, none, some (t.store.recs.code.level : Int)⟩ = false →
          (s.policy .codeAttack).detect = true → isLatched s.tam.evidence.log .codeAttack = false →
          ∃ slot, t.tam.evidence.log.getLast? = some { blankRecord .codeAttack .opened s.time with
            number := s.tam.evidence.next, slot := slot, value := some (t.store.recs.code.level : Int) })))

/-- R83, R84: a code word that the vending system may print comes back from its 20 digits whatever the key, and no single
mistaken digit passes the check digits. -/
def Obligations.PrintedCodesAreReadBack : Prop :=
  (∀ (key : BitVec 120) (u : Nat), u < 2 ^ 60 →
    unscramble key (scramble key u) = u ∧ scramble key (unscramble key u) = u ∧ scramble key u < 2 ^ 60 ∧
      unscramble key u < 2 ^ 60) ∧
  (∀ (key : BitVec 120) (u : Nat), u < 2 ^ 60 → scramble key u < 10 ^ 18 →
    (printedCode key u).length = 20 ∧ (∀ d ∈ printedCode key u, d.toNat ≤ 9) ∧ checkOk (printedCode key u) = true ∧
      unscramble key (ofDigits ((printedCode key u).take 18)) = u) ∧
  (∀ (digits : List Byte) (i : Nat) (d : Byte), digits.length = 20 → (∀ x ∈ digits, x.toNat ≤ 9) → i < 20 → d.toNat ≤ 9 →
    digits[i]? ≠ some d → checkOk digits = true → checkOk (digits.set i d) = false) ∧
  roundF 1 0 = 5184384

/-! ### The supply switch -/

/-- R108, R109, R110: a pulse starts with the timings in force; the LS inputs are judged from the blanking time's end on; an
attempt fails at the window's end with no interval running, or at the break of one after it. -/
def Obligations.AttemptsAreVerified : Prop :=
  ∀ (s : State),
    (∀ m, s.alive = true → s.mains = true → s.sw.progress = .waiting → s.sw.drive = .none → s.reg.last = some m →
      exec .coilPulseStart s = .next { s with sw := { s.sw with
        drive := if s.sw.state = .closing then .closeLine else .openLine
        progress := .blanking ⟨s.config.switch.blanking, s.config.switch.window,
          if s.sw.state = .closing then m.phases.map (fun p => decide (s.config.measure.presence ≤ p.vrms))
          else .all3 false, 0⟩ } }) ∧
    (∀ a, s.sw.progress = .blanking a → ∃ since, (s.lsConfirms a.need s.sw.ls → since = some a.blanking) ∧
      (¬ s.lsConfirms a.need s.sw.ls → since = none) ∧
      exec .blankingEnd s = .next { s with sw := { s.sw with
        progress := .watching { a with now := max a.now a.blanking } since false } }) ∧
    (∀ (ls : Tri Bool) (ms : Nat), (∀ a since past, s.sw.progress ≠ .watching a since past) →
      exec (.lsInputChange ls ms) s = .next { s with sw := { s.sw with ls := ls } }) ∧
    (∀ (ls : Tri Bool) (ms : Nat) a since past, s.sw.progress = .watching a since past →
      let now := max ms a.now
      let after := fun (x : Option Nat) => exec (.lsInputChange ls ms) s =
        .next (s.withLs ls (.watching { a with now := now } x past))
      (s.lsConfirms a.need ls → (∀ t0, since = some t0 → after (some t0)) ∧
        (since = none → past = false → now < a.window → after (some now)) ∧
        (since = none → past = true ∨ a.window ≤ now → after none)) ∧
      (¬ s.lsConfirms a.need ls → (past = false ∨ since = none → after none) ∧
        (past = true → since ≠ none → ∃ t, exec (.lsInputChange ls ms) s = .next t ∧ s.attemptFailed t ls))) ∧
    (∀ a, s.sw.progress = .watching a none false → s.sw.drive = .none →
      ∃ t, exec .verificationWindowEnd s = .next t ∧ s.attemptFailed t s.sw.ls) ∧
    (∀ a t0, s.sw.progress = .watching a (some t0) false → s.sw.drive = .none →
      exec .verificationWindowEnd s = .next (s.withLs s.sw.ls (.watching { a with now := max a.now a.window } (some t0) true)))

/-- R107, R111: an operation completes at the later of its confirmation and its pulse's end: the operate time is kept, the switch
record written, and the new state is that of the hold set as it then stands; in HOLDUP only rest states are entered. -/
def Obligations.OperationsComplete : Prop :=
  ∀ (c : Instr) (time : Nat) (s : State),
    (∀ a past, c = .attemptConfirmed → s.sw.progress = .watching a (some time) past → s.sw.drive ≠ .none →
      exec c s = .next { s with sw := { s.sw with progress := .confirmed time } }) ∧
    (c = .coilPulseEnd → s.sw.drive ≠ .none → (∀ n, s.sw.progress ≠ .confirmed n) →
      exec c s = .next { s with sw := { s.sw with drive := .none } }) ∧
    ((c = .attemptConfirmed ∧ (∃ a past, s.sw.progress = .watching a (some time) past) ∧ s.sw.drive = .none) ∨
        (c = .coilPulseEnd ∧ s.sw.progress = .confirmed time ∧ s.sw.drive ≠ .none) →
      operatingState s.sw.state →
      ∃ t, exec c s = .next t ∧ State.agreeBut [.store, .sw, .tam, .link] s t ∧ s.onlySuspends t ∧ s.sameRecords t ∧
        .switch ∈ t.link.notices ∧ (s.mains = true → .switchRecord ∈ t.underWay) ∧
        let r := s.sw.record
        let kept := if s.sw.state = .opening then { r with openLast := time, openMax := max r.openMax time }
          else { r with closeLast := time, closeMax := max r.closeMax time }
        let next : SwitchState :=
          if s.sw.state = .opening then
            (if r.holds.isEmpty then (if s.config.switch.ack then .armed else if s.mains then .closing else .opened)
             else .opened)
          else if r.holds.isEmpty then .closed
          else if s.mains then .opening else .closed
        t.sw = { s.sw with record := kept, drive := .none, timesDue := s.sw.timesDue || s.holdup }.enters next)

/-- R103, R113, R114: a press and a RECONNECT acknowledge in ARMED with MAINS; a REMOTE-HOLD is examined, and one that changes
the hold is recorded and waits for its write. -/
def Obligations.SwitchRequests : Prop :=
  ∀ (s : State),
    (s.alive = true → s.mains = true → s.sw.state = .armed → ∃ t, exec .buttonPress s = .next t ∧
      State.agreeBut [.sw, .tam, .link] s t ∧ t.sw = s.sw.enters .closing ∧ t.tam = { s.tam with suspended := true } ∧
      .switch ∈ t.link.notices) ∧
    (s.mains = false ∨ s.sw.state ≠ .armed → exec .buttonPress s = .next s) ∧
    (s.examines 0x13 [] → ∃ t, exec .reconnect s = .next t ∧
      (s.sw.state ≠ .armed → s.onlyReplied t .notArmed [s.sw.state.byte, s.sw.record.holds.byte]) ∧
      (s.sw.state = .armed → s.holdup = true → s.onlyReplied t .power [s.sw.state.byte, s.sw.record.holds.byte]) ∧
      (s.sw.state = .armed → s.holdup = false → State.agreeBut [.sw, .tam, .link, .fresh] s t ∧
        t.sw = s.sw.enters .closing ∧ t.tam = { s.tam with suspended := true } ∧ .switch ∈ t.link.notices ∧
        s.inHandReplied t .ok [4, s.sw.record.holds.byte])) ∧
    (∀ (c : Instr) (choice : Byte), c = .remoteHoldSet choice ∨ (c = .remoteHoldClear ∧ choice = 0) →
      s.examines 0x21 [choice] → ∃ t, exec c s = .next t ∧
        if s.life.state = .halted then s.onlyReplied t .state s.switchBody
        else if s.holdup = true then s.onlyReplied t .power s.switchBody
        else if 1 < choice.toNat then s.onlyReplied t .badValue s.switchBody
        else if s.sw.record.holds.remote = (choice == 1) then s.onlyReplied t .ok s.switchBody
        else State.agreeBut [.store, .sw, .tam, .link] s t ∧ s.onlySuspends t ∧ s.sameRecords t ∧
          t.sw.record = { s.sw.record with holds := { s.sw.record.holds with remote := choice == 1 } } ∧
          t.link.inHand = s.link.inHand.map (fun h => { h with stage := .waiting }) ∧ .switchRecord ∈ t.underWay ∧
          .switch ∈ t.link.notices)

/-- R116 to R120, R128, R129, R145: RELAY-RETRY leaves JAMMED by the hold set and the acknowledgement requirement, sensing the
position where it must; a sensed position gives the state of R119, at a dip though a pulse still runs (the model's choice, log
entry 61), and may end a start, which tests a back-off and hands LOAD over; bypass counting resumes after an operation. -/
def Obligations.RelayRetryAndSensing : Prop :=
  ∀ (s : State),
    (s.examines 0x22 [] → ∃ t, exec .relayRetry s = .next t ∧
      (s.sw.state ≠ .jammed → s.onlyReplied t .state s.switchBody) ∧
      (s.sw.state = .jammed → s.holdup = true → s.onlyReplied t .power s.switchBody) ∧
      (s.sw.state = .jammed → s.holdup = false →
        (s.sw.record.holds.isEmpty = true → s.config.switch.ack = true →
          t = { s with sw := { s.sw with sensing := some .forRetry }, link := s.link.atStage .waiting }) ∧
        (s.sw.record.holds.isEmpty = false ∨ s.config.switch.ack = false →
          State.agreeBut [.store, .sw, .tam, .life, .link, .fresh] s t ∧ s.sameRecords t ∧
          t.sw = s.sw.enters (if s.sw.record.holds.isEmpty then .closing else .opening) ∧
          .relayJammed ∉ t.life.faults ∧ t.tam.relayFault = false ∧
          s.inHandReplied t .ok [t.sw.state.byte, s.sw.record.holds.byte]))) ∧
    (s.alive = true → s.mains = true → ∃ t, exec .positionSensingEnd s = .next t ∧
      (s.sw.sensing = some .atDip → State.agreeBut [.sw, .tam, .link] s t ∧ s.onlySuspends t) ∧
      (s.sw.sensing = some .forRetry → State.agreeBut [.store, .sw, .tam, .life, .link, .fresh] s t ∧ s.sameRecords t ∧
        .relayJammed ∉ t.life.faults ∧ t.tam.relayFault = false ∧
        s.inHandReplied t .ok [t.sw.state.byte, s.sw.record.holds.byte]) ∧
      (s.sw.sensing = some .atStart → ∀ cause, s.backup.domain = .starting cause true →
        State.agreeBut [.sw, .tam, .link] s t ∧ s.onlySuspends t) ∧
      (s.sw.sensing ≠ none → (∀ cause, s.backup.domain ≠ .starting cause false) →
        t.sw = { s.sw with sensing := none }.enters s.sensedState ∧ .switch ∈ t.link.notices) ∧
      (s.sw.sensing = some .atStart → ∀ cause, s.backup.domain = .starting cause false → t.running = true ∧
        t.sw.sensing = none ∧ t.link.receiver = .waitHigh ∧ .life ∈ t.link.notices ∧ .power ∈ t.link.notices ∧
        .switch ∈ t.link.notices ∧ t.cal.friendly = (t.clockValid && t.tariff.friendlyAt t.clock) ∧
        (s.life.state ≠ .commissioning → t.sw.record.holds.load = t.sup.supply.backoff.isSome) ∧
        (∀ until_ period, s.sup.supply.backoff = some ⟨until_, period⟩ → until_ ≤ s.clock → t.sup.supply.backoff = none))) ∧
    (s.tam.suspended = true → s.sw.progress = .idle ∨ s.sw.progress = .abandoned →
      exec .bypassSuspensionEnd s = .next { s with tam := { s.tam with suspended := false } }) ∧
    (s.tam.suspended = true → s.sw.progress ≠ .idle → s.sw.progress ≠ .abandoned → exec .bypassSuspensionEnd s = .next s)

/-! ### Supervision -/

/-- R130 to R135: a scan averages its conversions, marks or converts each sensor, and judges OVERHEAT, THERMAL and BACKUP-LOW
with their hysteresis. -/
def Obligations.SlowScanJudges : Prop :=
  ∀ (ts1 ts2 vbk : List Nat) (s : State), s.running = true → s.mains = true →
    let n := s.config.thermal.averaging
    2 ^ n ≤ ts1.length → 2 ^ n ≤ ts2.length → 2 ^ n ≤ vbk.length →
    ∃ t, exec (.slowScan ts1 ts2 vbk) s = .next t ∧ State.agreeBut [.store, .sw, .sup, .tam, .life, .link] s t ∧
      s.sameRecords t ∧
      let mean := fun (l : List Nat) => (l.take (2 ^ n)).sum / 2 ^ n
      let judged := fun (x : Nat) (before after : Sensor) =>
        (x ≤ 3 ∨ 1020 ≤ x → after = { before with faulty := true }) ∧
        (3 < x → x < 1020 → before.faulty = true → after = before) ∧
        (3 < x → x < 1020 → before.faulty = false →
          after = { before with temperature := some (temperatureOf s.config.thermal.table x) })
      let temps := t.sup.goodTemps
      let mv := mean vbk * 3300 / 1023
      let thermal := s.config.thermal
      judged (mean ts1) s.sup.sensor1 t.sup.sensor1 ∧ judged (mean ts2) s.sup.sensor2 t.sup.sensor2 ∧
      (s.sup.anyFaulty = false → t.sup.anyFaulty = true → .sensorFault ∈ t.life.faults) ∧
      t.sup.cell = some mv ∧ t.sup.scanned = true ∧ t.sup.supply = s.sup.supply ∧ t.sup.overCount = s.sup.overCount ∧
      (s.sup.overheat = false → (t.sup.overheat = true ↔ ∃ x ∈ temps, thermal.alarm ≤ x)) ∧
      (s.sup.overheat = true → (t.sup.overheat = false ↔ ∀ x ∈ temps, x < thermal.alarm - thermal.hysteresis)) ∧
      (s.sup.overheat = false → t.sup.overheat = true → (s.policy .overheat).detect = true →
        ∃ slot x, x ∈ temps ∧ (∀ y ∈ temps, y ≤ x) ∧ t.tam.evidence.log.getLast? =
          some { blankRecord .overheat .active s.time with
            number := s.tam.evidence.next, slot := slot, value := some x }) ∧
      (s.sup.thermal = false → (t.sup.thermal = true ↔ ∃ x ∈ temps, thermal.trip ≤ x)) ∧
      (s.sup.thermal = true → (t.sup.thermal = false ↔ ∀ x ∈ temps, x < thermal.trip - thermal.hysteresis)) ∧
      (t.sup.thermal ≠ s.sup.thermal ∨ s.sup.scanned = false → t.sw.record.holds.thermal = t.sup.thermal) ∧
      (t.sup.thermal = s.sup.thermal → s.sup.scanned = true → t.sw = s.sw) ∧
      (s.sup.backupLow = false → (t.sup.backupLow = true ↔ mv < thermal.backup) ∧
        (t.sup.backupLow = true → .backupLow ∈ t.life.faults)) ∧
      (s.sup.backupLow = true → (t.sup.backupLow = false ↔ thermal.backup + 100 ≤ mv) ∧
        (t.sup.backupLow = false → .backupLow ∉ t.life.faults))

/-! ### Supply loss, the backup domain and starts -/

/-- R112, R163, R166 to R170, R175: what the change to HOLDUP and a dip do to a working part. A request that waits for a write
or a queue entry that is dropped is refused POWER (R32, R55, R89, R97, R187), an open service window ends (R183), and at the
return the operate times of a completion in HOLDUP are written (R111, R120), reinitialised records that are still unwritten too
(R184), and the tests on the clock are made (R42, R128). That blocks stay discarded after a dip where the last start's
invalidating write has not completed (the residues not established, log entry 59), and that a dip before a RESTART's reply is an
ordinary one (log entry 60), are the model's choice. -/
def Obligations.SupplyLossAndReturn : Prop :=
  ∀ (s : State),
    (s.mains = true → s.alive = true → ∃ t, exec .supplyFailing s = .next t ∧ t.holdup = true ∧
      t.backup.limitExpired = false ∧ s.sameRecords t ∧ s.store.flight <+: t.store.flight ∧
      (∀ p ∈ t.underWay, p ∈ s.store.flight.map Write.purpose ∨ p.permittedInHoldup = true) ∧
      Purpose.residue true false ∈ t.underWay ∧ t.reg = { s.reg with blockOpen := false } ∧
      t.acct = { s.acct with queue := [], pendingReverse := .all3 0, pendingSubstituted := 0 } ∧
      (∀ sl, some sl ∈ t.tam.slots → sl.collecting = false) ∧ t.link.silenceRunning = false ∧ .power ∈ t.link.notices ∧
      (s.running = true → t.backup.domain = .running) ∧
      (∀ cause b, s.backup.domain = .starting cause b → t.backup.domain = .abandoned cause) ∧
      t.clock = s.clock ∧ t.clockValid = s.clockValid ∧
      (s.backup.retained.offMark = false → t.backup.retained.outageStart = s.time) ∧
      (s.backup.retained.offMark = true → t.backup.retained.outageStart = s.backup.retained.outageStart) ∧
      (operatingState s.sw.state → (∀ time, s.sw.progress ≠ .confirmed time) → s.sw.progress ≠ .idle →
        t.sw.progress = .abandoned ∧ t.sw.state = s.sw.state ∧ t.sw.attempt = s.sw.attempt ∧ t.sw.drive = s.sw.drive) ∧
      (s.life.state = .serviceWindow → t.life = { s.life with state := .inService, window := none, timer := none } ∧
        .life ∈ t.link.notices) ∧
      (s.life.state ≠ .serviceWindow → t.life = s.life) ∧
      (∀ h, s.link.inHand = some h → h.stage = .waiting →
        (∀ p ∈ s.store.waiting, (∃ st, (h.kind, st) ∈ answersOf p) → p ≠ .switchRecord → p ≠ .lifeRecord →
          (∀ k sel pending st, p = .tariffRequest k sel pending st → 0x23 ≤ k ∧ k ≤ 0x26) →
          ∃ body, s.inHandReplied t .power body) ∧
        (h.kind = 0x12 → .emergency ∈ s.acct.queue → ∃ body, s.inHandReplied t .power body) ∧
        (h.kind = 0x29 → .entry ∈ s.acct.queue → ∃ body, s.inHandReplied t .power body) ∧
        (∀ kind amount sequence, h.kind = 0x10 ∨ h.kind = 0x11 → .code kind amount sequence ∈ s.acct.queue →
          (∃ body, s.inHandReplied t .power body) ∧ t.code.last.outcome = some .power))) ∧
    (s.holdup = true → s.running = true → s.backup.limitExpired = false → ∃ t, exec .supplyGoodDip s = .next t ∧
      t.mains = true ∧ t.running = true ∧ s.sameRecords t ∧ t.reg = { s.reg with blockOpen := true } ∧
      t.clock = s.clock ∧ t.clockValid = s.clockValid ∧ t.backup.retained.outageStart = none ∧
      t.backup.retained.cover.count = 0 ∧ t.backup.retained.term.count = 0 ∧
      t.backup.retained.offMark = s.backup.retained.offMark ∧
      t.sup.supply.dips = min 65535 (s.sup.supply.dips + 1) ∧ t.sup.supply.outages = s.sup.supply.outages ∧
      Purpose.supplyRecord ∈ t.underWay ∧ Purpose.residue false false ∈ t.underWay ∧
      (∀ r ∈ s.store.bad, (r = .days ∨ r = .tariff → .reinitialised r ∈ t.underWay) ∧
        (r = .snapshot → ∃ ev, .evidenceLog ev true ∈ t.underWay)) ∧ .power ∈ t.link.notices ∧
      t.link.silenceRunning = (s.config.silence != 0) ∧
      t.sw.timesDue = false ∧ (s.sw.timesDue = true → Purpose.switchRecord ∈ t.underWay) ∧
      (∀ until_ period, s.sup.supply.backoff = some ⟨until_, period⟩ → until_ ≤ s.clock →
        t.sup.supply.backoff = none ∧ t.sw.record.holds.load = false) ∧
      (s.sup.supply.backoff = none → t.sup.supply.backoff = none ∧
        let settled := { s.sw with timesDue := false }
        (s.sw.progress = .abandoned → t.sw = { settled with sensing := some .atDip }) ∧
        (s.sw.progress ≠ .abandoned → s.sw.state = .closed → s.sw.sensing = none →
          t.sw = if s.sw.record.holds.isEmpty then settled else settled.enters .opening)))

/-- R166, R167, R168, R171, R176: the hold-up limit, the loss of the main domain with the writes it cuts, the loss of the backup
domain, its cover counts, the reset line, and SUPPLY_FAILING and SUPPLY_GOOD_DIP where no block works, with the main domain held
by the line among them. The values of the working fields and of the coil line of a part that is off or held (acct, code, link at
begin, drive none) are the model's choice (log entry 6); that a GOOD report in BATTERY reaches a held part is DEDUCED (log entry
28), as is that a SET-TIME write in flight at RESET_ASSERT is stored without setting the clock (log entry 31). -/
def Obligations.BackupDomainEvents : Prop :=
  ∀ (s : State),
    (s.holdup = true → s.store.flight ≠ [] ∨ (∃ p ∈ s.store.waiting, p.permittedInHoldup = true) →
      exec .holdupLimitExpiry s = .next { s with backup := { s.backup with limitExpired := true } }) ∧
    (s.holdup = true → s.store.flight = [] → (∀ p ∈ s.store.waiting, p.permittedInHoldup = false) →
      ∃ t, exec .holdupLimitExpiry s = .next t ∧ t.backup.power = .battery ∧
      t.store.recs = s.store.recs ∧ t.store.bad = s.store.bad ∧ t.backup.retained.offMark = true) ∧
    (s.holdup = true → ∃ t, exec .mainDomainLoss s = .next t ∧ t.backup.power = .battery ∧
      t.backup.domain = (if s.backup.domain = .held then .held else .off) ∧ t.backup.retained.offMark = true ∧
      t.clock = s.clock ∧ t.clockValid = s.clockValid ∧ t.store.recs = s.store.recs ∧ t.store.flight = [] ∧
      t.store.waiting = [] ∧
      (∀ r, r ∈ t.store.bad ↔ r ∈ s.store.bad ∨ ∃ w ∈ s.store.flight, w.purpose.covers = [r]) ∧
      t.acct = .begin ∧ t.code = .begin ∧ t.link = .begin ∧
      (s.running = true → t.backup.retained.cover = { s.backup.retained.cover with isOpen := s.tam.coverOpen } ∧
        t.backup.retained.term = { s.backup.retained.term with isOpen := s.tam.termOpen })) ∧
    (s.backup.power = .battery → exec .backupDomainLoss s =
      .next { s with backup := { s.backup with retained := { s.backup.retained with intact := false } } }) ∧
    (s.backup.power = .battery → s.backup.retained.intact = true → ∀ isOpen,
      let counted := fun (c : CoverSlot) =>
        if isOpen = true ∧ c.isOpen = false then
          (⟨min 255 (c.count + 1), if c.count = 0 then s.time else c.first, true⟩ : CoverSlot)
        else { c with isOpen := isOpen }
      let r := s.backup.retained
      exec (.batteryCoverOpening .main isOpen) s = .next { s with backup := { s.backup with
        retained := { r with cover := counted r.cover } } } ∧
      exec (.batteryCoverOpening .terminal isOpen) s = .next { s with backup := { s.backup with
        retained := { r with term := counted r.term } } }) ∧
    (s.backup.domain ≠ .held → ∃ t, exec .resetAssert s = .next t ∧ t.backup.domain = .held ∧
      t.store.recs = s.recordsAbsorbed ∧ t.store.flight = [] ∧ t.store.waiting = [] ∧
      (∀ r, r ∈ t.store.bad ↔ r ∈ s.store.bad ∧ ∀ w ∈ s.store.flight, r ∉ w.purpose.covers) ∧
      t.acct = .begin ∧ t.code = .begin ∧ t.link = .begin ∧ t.sw.drive = .none ∧ t.clock = s.clock ∧
      (s.backup.power = .mains → t.mains = true)) ∧
    (s.backup.domain = .held → exec .resetRelease s = .next { s with backup := { s.backup with
      domain := if s.backup.power = .battery then .off else .awaiting .resetLine } }) ∧
    (s.mains = true → s.alive = false → ∃ start, exec .supplyFailing s = .next { s with
        backup := { s.backup with
          power := .holdup, limitExpired := false, retained := { s.backup.retained with outageStart := start } }
        store := { s.store with waiting := s.store.waiting.filter Purpose.permittedInHoldup } } ∧
      start = if s.backup.retained.offMark then s.backup.retained.outageStart else s.time) ∧
    (s.mains = false → exec .supplyFailing s = .next s) ∧
    (s.backup.limitExpired = true → exec .supplyGoodDip s = .next s) ∧
    (s.backup.limitExpired = false →
      (s.backup.domain = .held ∧ s.backup.power ≠ .mains) ∨
        ((∃ cause, s.backup.domain = .awaiting cause) ∧ s.holdup = true) →
      exec .supplyGoodDip s = .next { s with backup := { s.backup with power := .mains } })

/-- R26, R119, R125, R167, R170, R172 to R174, R178, R184, R185, R189: a start is classified by the retained memory and its cause,
checks the durable records, and begins metrology, the switch, the inputs and the fault set afresh (the statement after this one
has the log, the supply record and the lockout); with its start write and its sensing it ends, LOAD is handed over as a back-off
stands (R129). It does not begin where no start is awaited, nor once the hold-up limit has expired. That it finds the writes in
flight stored is DEDUCED (log entry 31), as is that its check finds the records failing that the command names (log entry 26).
That a coil pulse in progress is released at once (drive none), and that FAULT is placed or withdrawn before the position is
judged, are the model's choice (log entries 41, 42). R170: the start write of a WARM or COLD start makes the outage start absent,
that of any other start leaves it as it stands. -/
def Obligations.StartClassifiesAndJudges : Prop :=
  (∀ (found : StartReadings) (s : State), s.backup.domain.cause = none ∨ s.backup.limitExpired = true →
    exec (.start found) s = .next s) ∧
  (∀ (found : StartReadings) (cause : StartCause) (s : State), s.backup.domain.cause = some cause →
    s.backup.limitExpired = false → s.lifeRecordSound →
    ∃ t, exec (.start found) s = .next t ∧ t.mains = true ∧ (∃ due, t.backup.domain = .starting cause due) ∧
      State.agreeBut [.backup, .store, .reg, .cal, .acct, .code, .sw, .sup, .tam, .life, .link, .fresh] s t ∧
      let stored := s.recordsFound
      let fails := s.recordFails found
      let halting := [Record.config, .identity, .life, .account, .code]
      (s.backup.retained.intact = false → t.backup.lastStart = .cold ∧ t.clock = 0 ∧ t.clockValid = false) ∧
      (s.backup.retained.intact = true → t.clock = s.clock ∧ t.clockValid = s.clockValid ∧
        ((∀ w ∈ s.store.flight, w.purpose ≠ .startWrite) →
          (s.backup.retained.offMark = true → s.backup.retained.coldMark = true → t.backup.lastStart = .cold) ∧
          (s.backup.retained.offMark = true → s.backup.retained.coldMark = false → t.backup.lastStart = .warm) ∧
          (s.backup.retained.offMark = false → (cause = .resetLine → t.backup.lastStart = .resetLine) ∧
            (cause = .restart → t.backup.lastStart = .restart)))) ∧
      ((∃ r ∈ halting, fails r) → t.life.state = .halted ∧ .storeFault ∈ t.life.faults) ∧
      (¬ (∃ r ∈ halting, fails r) → .storeFault ∉ t.life.faults ∧
        t.life.state = if stored.life.state = .serviceWindow then .inService else stored.life.state) ∧
      (t.sw.record.holds.fault = true ↔ t.life.state = .halted) ∧
      (∀ r ∈ halting, s.recordFails found r ↔ t.sound r = false) ∧
      t.store.recs.config = stored.config ∧ t.store.recs.identity = stored.identity ∧ t.store.recs.life = stored.life ∧
      t.store.recs.account = stored.account ∧ t.store.recs.code = stored.code ∧
      (fails .days → t.store.recs.days = .shipped) ∧ (¬ fails .days → t.store.recs.days = stored.days) ∧
      (fails .tariff → t.store.recs.tariff = .shipped) ∧ (¬ fails .tariff → t.store.recs.tariff = stored.tariff) ∧
      (fails .switch → t.store.recs.switch = .shipped) ∧ (¬ fails .switch → t.store.recs.switch = stored.switch) ∧
      (∀ r, r ∈ t.life.repaired ↔ r ∈ [Record.days, .tariff, .evidence, .snapshot, .switch, .supply] ∧ fails r) ∧
      (.storeRepaired ∈ t.life.faults ↔ t.life.repaired ≠ []) ∧
      (.clockInvalid ∈ t.life.faults ↔ t.clockValid = false) ∧
      (fails .residue ∨ stored.residue.valid = false → t.reg.acc = .zero ∧ t.reg.established = true) ∧
      (¬ fails .residue → stored.residue.valid = true → t.reg.acc = stored.residue.acc ∧ t.reg.established = false ∧
        Purpose.residue false false ∈ t.underWay) ∧
      t.reg.blockOpen = true ∧ t.reg.trace = [] ∧ t.reg.last = none ∧ t.sup.overCount = 0 ∧
      t.sw.sensing = some .atStart ∧ t.sw.drive = .none ∧ t.acct = .begin ∧ t.code = .begin ∧ t.link.inHand = none ∧
      t.tam.coverOpen = found.coverOpen ∧ t.tam.termOpen = found.termOpen ∧ t.tam.magnet = found.magAsserted) ∧
  (∀ (cause : StartCause) (due : Bool) (s : State) (w : Write) (rest : List Write), s.mains = true →
    s.backup.domain = .starting cause due → s.completes Purpose.isStartWrite w rest →
    ∃ t, exec .startWriteComplete s = .next t ∧ t.backup.retained.offMark = false ∧ t.backup.retained.coldMark = false ∧
      (s.backup.lastStart = .cold ∨ s.backup.lastStart = .warm → t.backup.retained.outageStart = none) ∧
      (s.backup.lastStart = .restart ∨ s.backup.lastStart = .resetLine →
        t.backup.retained.outageStart = s.backup.retained.outageStart) ∧
      t.backup.retained.cover.count = 0 ∧ t.backup.retained.term.count = 0 ∧
      (s.sw.sensing = some .atStart → t.backup.domain = .starting cause false) ∧
      (s.sw.sensing ≠ some .atStart → t.running = true ∧ .power ∈ t.link.notices ∧ .life ∈ t.link.notices ∧
        .switch ∈ t.link.notices ∧
        (s.life.state ≠ .commissioning → t.sw.record.holds.load = t.sup.supply.backoff.isSome) ∧
        (∀ until_ period, s.sup.supply.backoff = some ⟨until_, period⟩ → until_ ≤ s.clock → t.sup.supply.backoff = none)))

/-- R92, R129, R140, R141, R146, R151, R164, R174: what a start does to the log, the slots, the supply record and a lockout:
ACTIVE records are ENDED and slots stop collecting, a WARM or COLD start counts an outage and records it, a used cover slot is
converted, the first readings latch, a COLD start empties the trip list and arms a back-off and a lockout afresh, and the start
write is asked for where one is due. The records it works from are those the last statement calls found (log entries 26, 31).
That a slot its record does not name is freed is DEDUCED (log entry 49), and that no lockout is found in force where the code
record has failed is the model's choice (log entry 52). -/
def Obligations.StartsRepairTheLogAndRecordTheOutage : Prop :=
  ∀ (found : StartReadings) (cause : StartCause) (s : State), s.backup.domain.cause = some cause →
    s.backup.limitExpired = false → s.logOrdered →
    ∃ t, exec (.start found) s = .next t ∧ ∀ (ev : EvidenceRec) (supply : SupplyRec),
      (s.recordFails found .evidence → ev = .shipped) →
      (¬ s.recordFails found .evidence → ev = s.recordsFound.evidence) →
      (s.recordFails found .supply → supply = .shipped) →
      (¬ s.recordFails found .supply → supply = s.recordsFound.supply) →
      let cold := t.backup.lastStart = .cold
      let outage := cold ∨ t.backup.lastStart = .warm
      let code := s.recordsFound.code
      let log := t.tam.evidence.log
      t.sup.supply.dips = supply.dips ∧
      (outage → t.sup.supply.outages = min 65535 (supply.outages + 1)) ∧ (¬ outage → t.sup.supply.outages = supply.outages) ∧
      (cold → t.sup.supply.trips = [] ∧ t.sup.supply.backoff = supply.backoff.map fun b => ⟨t.clock + b.period, b.period⟩) ∧
      (¬ cold → t.sup.supply.trips = supply.trips ∧ t.sup.supply.backoff = supply.backoff) ∧
      (cold → t.sound .code = true → code.lockEnd.isSome = true →
        Purpose.lockoutRearm (t.clock + lockoutPeriod code.level) ∈ t.underWay) ∧
      (∃ due, t.backup.domain = .starting cause due ∧ (due = true → Purpose.startWrite ∈ t.underWay) ∧
        (due = true ↔ outage ∨ t.backup.retained.cover.count ≠ 0 ∨ t.backup.retained.term.count ≠ 0)) ∧
      (outage → ∃ r ∈ log, r.number = ev.next ∧ r.cls = .outage ∧ r.state = .ended ∧
        (cold → r.onset = none ∧ r.finish = none ∧ r.value = some 1) ∧
        (¬ cold → r.onset = t.backup.retained.outageStart ∧ r.finish = t.time ∧ r.value = some 0)) ∧
      (∀ r ∈ log, r.state ≠ .active) ∧
      (∀ sl, some sl ∈ t.tam.slots → sl.collecting = true → sl.pre = [] ∧ sl.post = []) ∧
      (t.tam.codeAttack = true ↔ t.sound .code = true ∧ code.lockEnd.isSome = true) ∧
      (∀ x ∈ [(EvClass.magnet, found.magAsserted), (.codeAttack, t.tam.codeAttack), (.coverOpen, found.coverOpen),
        (.terminalOpen, found.termOpen)], x.2 = true → (t.policy x.1).detect = true → isLatched log x.1 = true) ∧
      (∀ (which : Cover) (slot : CoverSlot), (which = .main → slot = t.backup.retained.cover) →
        (which = .terminal → slot = t.backup.retained.term) →
        slot.count ≠ 0 → (t.policy which.cls).detect = true →
        (isLatched ev.log which.cls = false → ∃ r ∈ log, r.cls = which.cls ∧ r.state = .opened ∧ r.onset = slot.first ∧
          r.repeats = slot.count - 1 ∧ r.onBattery = true ∧ r.slot = none) ∧
        (∀ r0 ∈ ev.log, r0.cls = which.cls → r0.state = .opened → ∃ r ∈ log, r.number = r0.number ∧ r.cls = which.cls ∧
          r.state = .opened ∧ r.repeats = min 65535 (r0.repeats + slot.count)))
end

