-- ==== Sys2Proof/Laws/State.lean ====
section
/-! SUPPORT. One lemma for each part of the state under each update, and for each reading of the state under the updates that
do not touch what it reads; all true by definition. -/

namespace Sys2Proof.Machine

variable (s : State)

@[simp] theorem State.pending_onBackup (f : Backup → Backup) : (s.onBackup f).pending = s.pending := rfl
@[simp] theorem State.backup_onBackup (f : Backup → Backup) : (s.onBackup f).backup = f s.backup := rfl
@[simp] theorem State.store_onBackup (f : Backup → Backup) : (s.onBackup f).store = s.store := rfl
@[simp] theorem State.reg_onBackup (f : Backup → Backup) : (s.onBackup f).reg = s.reg := rfl
@[simp] theorem State.cal_onBackup (f : Backup → Backup) : (s.onBackup f).cal = s.cal := rfl
@[simp] theorem State.acct_onBackup (f : Backup → Backup) : (s.onBackup f).acct = s.acct := rfl
@[simp] theorem State.code_onBackup (f : Backup → Backup) : (s.onBackup f).code = s.code := rfl
@[simp] theorem State.sw_onBackup (f : Backup → Backup) : (s.onBackup f).sw = s.sw := rfl
@[simp] theorem State.sup_onBackup (f : Backup → Backup) : (s.onBackup f).sup = s.sup := rfl
@[simp] theorem State.tam_onBackup (f : Backup → Backup) : (s.onBackup f).tam = s.tam := rfl
@[simp] theorem State.life_onBackup (f : Backup → Backup) : (s.onBackup f).life = s.life := rfl
@[simp] theorem State.link_onBackup (f : Backup → Backup) : (s.onBackup f).link = s.link := rfl
@[simp] theorem State.fresh_onBackup (f : Backup → Backup) : (s.onBackup f).fresh = s.fresh := rfl

@[simp] theorem State.pending_onStore (f : Store → Store) : (s.onStore f).pending = s.pending := rfl
@[simp] theorem State.backup_onStore (f : Store → Store) : (s.onStore f).backup = s.backup := rfl
@[simp] theorem State.store_onStore (f : Store → Store) : (s.onStore f).store = f s.store := rfl
@[simp] theorem State.reg_onStore (f : Store → Store) : (s.onStore f).reg = s.reg := rfl
@[simp] theorem State.cal_onStore (f : Store → Store) : (s.onStore f).cal = s.cal := rfl
@[simp] theorem State.acct_onStore (f : Store → Store) : (s.onStore f).acct = s.acct := rfl
@[simp] theorem State.code_onStore (f : Store → Store) : (s.onStore f).code = s.code := rfl
@[simp] theorem State.sw_onStore (f : Store → Store) : (s.onStore f).sw = s.sw := rfl
@[simp] theorem State.sup_onStore (f : Store → Store) : (s.onStore f).sup = s.sup := rfl
@[simp] theorem State.tam_onStore (f : Store → Store) : (s.onStore f).tam = s.tam := rfl
@[simp] theorem State.life_onStore (f : Store → Store) : (s.onStore f).life = s.life := rfl
@[simp] theorem State.link_onStore (f : Store → Store) : (s.onStore f).link = s.link := rfl
@[simp] theorem State.fresh_onStore (f : Store → Store) : (s.onStore f).fresh = s.fresh := rfl

@[simp] theorem State.pending_onReg (f : Registration → Registration) : (s.onReg f).pending = s.pending := rfl
@[simp] theorem State.backup_onReg (f : Registration → Registration) : (s.onReg f).backup = s.backup := rfl
@[simp] theorem State.store_onReg (f : Registration → Registration) : (s.onReg f).store = s.store := rfl
@[simp] theorem State.reg_onReg (f : Registration → Registration) : (s.onReg f).reg = f s.reg := rfl
@[simp] theorem State.cal_onReg (f : Registration → Registration) : (s.onReg f).cal = s.cal := rfl
@[simp] theorem State.acct_onReg (f : Registration → Registration) : (s.onReg f).acct = s.acct := rfl
@[simp] theorem State.code_onReg (f : Registration → Registration) : (s.onReg f).code = s.code := rfl
@[simp] theorem State.sw_onReg (f : Registration → Registration) : (s.onReg f).sw = s.sw := rfl
@[simp] theorem State.sup_onReg (f : Registration → Registration) : (s.onReg f).sup = s.sup := rfl
@[simp] theorem State.tam_onReg (f : Registration → Registration) : (s.onReg f).tam = s.tam := rfl
@[simp] theorem State.life_onReg (f : Registration → Registration) : (s.onReg f).life = s.life := rfl
@[simp] theorem State.link_onReg (f : Registration → Registration) : (s.onReg f).link = s.link := rfl
@[simp] theorem State.fresh_onReg (f : Registration → Registration) : (s.onReg f).fresh = s.fresh := rfl

@[simp] theorem State.pending_onCal (f : Calendar → Calendar) : (s.onCal f).pending = s.pending := rfl
@[simp] theorem State.backup_onCal (f : Calendar → Calendar) : (s.onCal f).backup = s.backup := rfl
@[simp] theorem State.store_onCal (f : Calendar → Calendar) : (s.onCal f).store = s.store := rfl
@[simp] theorem State.reg_onCal (f : Calendar → Calendar) : (s.onCal f).reg = s.reg := rfl
@[simp] theorem State.cal_onCal (f : Calendar → Calendar) : (s.onCal f).cal = f s.cal := rfl
@[simp] theorem State.acct_onCal (f : Calendar → Calendar) : (s.onCal f).acct = s.acct := rfl
@[simp] theorem State.code_onCal (f : Calendar → Calendar) : (s.onCal f).code = s.code := rfl
@[simp] theorem State.sw_onCal (f : Calendar → Calendar) : (s.onCal f).sw = s.sw := rfl
@[simp] theorem State.sup_onCal (f : Calendar → Calendar) : (s.onCal f).sup = s.sup := rfl
@[simp] theorem State.tam_onCal (f : Calendar → Calendar) : (s.onCal f).tam = s.tam := rfl
@[simp] theorem State.life_onCal (f : Calendar → Calendar) : (s.onCal f).life = s.life := rfl
@[simp] theorem State.link_onCal (f : Calendar → Calendar) : (s.onCal f).link = s.link := rfl
@[simp] theorem State.fresh_onCal (f : Calendar → Calendar) : (s.onCal f).fresh = s.fresh := rfl

@[simp] theorem State.pending_onAcct (f : Account → Account) : (s.onAcct f).pending = s.pending := rfl
@[simp] theorem State.backup_onAcct (f : Account → Account) : (s.onAcct f).backup = s.backup := rfl
@[simp] theorem State.store_onAcct (f : Account → Account) : (s.onAcct f).store = s.store := rfl
@[simp] theorem State.reg_onAcct (f : Account → Account) : (s.onAcct f).reg = s.reg := rfl
@[simp] theorem State.cal_onAcct (f : Account → Account) : (s.onAcct f).cal = s.cal := rfl
@[simp] theorem State.acct_onAcct (f : Account → Account) : (s.onAcct f).acct = f s.acct := rfl
@[simp] theorem State.code_onAcct (f : Account → Account) : (s.onAcct f).code = s.code := rfl
@[simp] theorem State.sw_onAcct (f : Account → Account) : (s.onAcct f).sw = s.sw := rfl
@[simp] theorem State.sup_onAcct (f : Account → Account) : (s.onAcct f).sup = s.sup := rfl
@[simp] theorem State.tam_onAcct (f : Account → Account) : (s.onAcct f).tam = s.tam := rfl
@[simp] theorem State.life_onAcct (f : Account → Account) : (s.onAcct f).life = s.life := rfl
@[simp] theorem State.link_onAcct (f : Account → Account) : (s.onAcct f).link = s.link := rfl
@[simp] theorem State.fresh_onAcct (f : Account → Account) : (s.onAcct f).fresh = s.fresh := rfl

@[simp] theorem State.pending_onCode (f : CodeUnit → CodeUnit) : (s.onCode f).pending = s.pending := rfl
@[simp] theorem State.backup_onCode (f : CodeUnit → CodeUnit) : (s.onCode f).backup = s.backup := rfl
@[simp] theorem State.store_onCode (f : CodeUnit → CodeUnit) : (s.onCode f).store = s.store := rfl
@[simp] theorem State.reg_onCode (f : CodeUnit → CodeUnit) : (s.onCode f).reg = s.reg := rfl
@[simp] theorem State.cal_onCode (f : CodeUnit → CodeUnit) : (s.onCode f).cal = s.cal := rfl
@[simp] theorem State.acct_onCode (f : CodeUnit → CodeUnit) : (s.onCode f).acct = s.acct := rfl
@[simp] theorem State.code_onCode (f : CodeUnit → CodeUnit) : (s.onCode f).code = f s.code := rfl
@[simp] theorem State.sw_onCode (f : CodeUnit → CodeUnit) : (s.onCode f).sw = s.sw := rfl
@[simp] theorem State.sup_onCode (f : CodeUnit → CodeUnit) : (s.onCode f).sup = s.sup := rfl
@[simp] theorem State.tam_onCode (f : CodeUnit → CodeUnit) : (s.onCode f).tam = s.tam := rfl
@[simp] theorem State.life_onCode (f : CodeUnit → CodeUnit) : (s.onCode f).life = s.life := rfl
@[simp] theorem State.link_onCode (f : CodeUnit → CodeUnit) : (s.onCode f).link = s.link := rfl
@[simp] theorem State.fresh_onCode (f : CodeUnit → CodeUnit) : (s.onCode f).fresh = s.fresh := rfl

@[simp] theorem State.pending_onSw (f : Switch → Switch) : (s.onSw f).pending = s.pending := rfl
@[simp] theorem State.backup_onSw (f : Switch → Switch) : (s.onSw f).backup = s.backup := rfl
@[simp] theorem State.store_onSw (f : Switch → Switch) : (s.onSw f).store = s.store := rfl
@[simp] theorem State.reg_onSw (f : Switch → Switch) : (s.onSw f).reg = s.reg := rfl
@[simp] theorem State.cal_onSw (f : Switch → Switch) : (s.onSw f).cal = s.cal := rfl
@[simp] theorem State.acct_onSw (f : Switch → Switch) : (s.onSw f).acct = s.acct := rfl
@[simp] theorem State.code_onSw (f : Switch → Switch) : (s.onSw f).code = s.code := rfl
@[simp] theorem State.sw_onSw (f : Switch → Switch) : (s.onSw f).sw = f s.sw := rfl
@[simp] theorem State.sup_onSw (f : Switch → Switch) : (s.onSw f).sup = s.sup := rfl
@[simp] theorem State.tam_onSw (f : Switch → Switch) : (s.onSw f).tam = s.tam := rfl
@[simp] theorem State.life_onSw (f : Switch → Switch) : (s.onSw f).life = s.life := rfl
@[simp] theorem State.link_onSw (f : Switch → Switch) : (s.onSw f).link = s.link := rfl
@[simp] theorem State.fresh_onSw (f : Switch → Switch) : (s.onSw f).fresh = s.fresh := rfl

@[simp] theorem State.pending_onSup (f : Supervision → Supervision) : (s.onSup f).pending = s.pending := rfl
@[simp] theorem State.backup_onSup (f : Supervision → Supervision) : (s.onSup f).backup = s.backup := rfl
@[simp] theorem State.store_onSup (f : Supervision → Supervision) : (s.onSup f).store = s.store := rfl
@[simp] theorem State.reg_onSup (f : Supervision → Supervision) : (s.onSup f).reg = s.reg := rfl
@[simp] theorem State.cal_onSup (f : Supervision → Supervision) : (s.onSup f).cal = s.cal := rfl
@[simp] theorem State.acct_onSup (f : Supervision → Supervision) : (s.onSup f).acct = s.acct := rfl
@[simp] theorem State.code_onSup (f : Supervision → Supervision) : (s.onSup f).code = s.code := rfl
@[simp] theorem State.sw_onSup (f : Supervision → Supervision) : (s.onSup f).sw = s.sw := rfl
@[simp] theorem State.sup_onSup (f : Supervision → Supervision) : (s.onSup f).sup = f s.sup := rfl
@[simp] theorem State.tam_onSup (f : Supervision → Supervision) : (s.onSup f).tam = s.tam := rfl
@[simp] theorem State.life_onSup (f : Supervision → Supervision) : (s.onSup f).life = s.life := rfl
@[simp] theorem State.link_onSup (f : Supervision → Supervision) : (s.onSup f).link = s.link := rfl
@[simp] theorem State.fresh_onSup (f : Supervision → Supervision) : (s.onSup f).fresh = s.fresh := rfl

@[simp] theorem State.pending_onTam (f : Tamper → Tamper) : (s.onTam f).pending = s.pending := rfl
@[simp] theorem State.backup_onTam (f : Tamper → Tamper) : (s.onTam f).backup = s.backup := rfl
@[simp] theorem State.store_onTam (f : Tamper → Tamper) : (s.onTam f).store = s.store := rfl
@[simp] theorem State.reg_onTam (f : Tamper → Tamper) : (s.onTam f).reg = s.reg := rfl
@[simp] theorem State.cal_onTam (f : Tamper → Tamper) : (s.onTam f).cal = s.cal := rfl
@[simp] theorem State.acct_onTam (f : Tamper → Tamper) : (s.onTam f).acct = s.acct := rfl
@[simp] theorem State.code_onTam (f : Tamper → Tamper) : (s.onTam f).code = s.code := rfl
@[simp] theorem State.sw_onTam (f : Tamper → Tamper) : (s.onTam f).sw = s.sw := rfl
@[simp] theorem State.sup_onTam (f : Tamper → Tamper) : (s.onTam f).sup = s.sup := rfl
@[simp] theorem State.tam_onTam (f : Tamper → Tamper) : (s.onTam f).tam = f s.tam := rfl
@[simp] theorem State.life_onTam (f : Tamper → Tamper) : (s.onTam f).life = s.life := rfl
@[simp] theorem State.link_onTam (f : Tamper → Tamper) : (s.onTam f).link = s.link := rfl
@[simp] theorem State.fresh_onTam (f : Tamper → Tamper) : (s.onTam f).fresh = s.fresh := rfl

@[simp] theorem State.pending_onLife (f : Life → Life) : (s.onLife f).pending = s.pending := rfl
@[simp] theorem State.backup_onLife (f : Life → Life) : (s.onLife f).backup = s.backup := rfl
@[simp] theorem State.store_onLife (f : Life → Life) : (s.onLife f).store = s.store := rfl
@[simp] theorem State.reg_onLife (f : Life → Life) : (s.onLife f).reg = s.reg := rfl
@[simp] theorem State.cal_onLife (f : Life → Life) : (s.onLife f).cal = s.cal := rfl
@[simp] theorem State.acct_onLife (f : Life → Life) : (s.onLife f).acct = s.acct := rfl
@[simp] theorem State.code_onLife (f : Life → Life) : (s.onLife f).code = s.code := rfl
@[simp] theorem State.sw_onLife (f : Life → Life) : (s.onLife f).sw = s.sw := rfl
@[simp] theorem State.sup_onLife (f : Life → Life) : (s.onLife f).sup = s.sup := rfl
@[simp] theorem State.tam_onLife (f : Life → Life) : (s.onLife f).tam = s.tam := rfl
@[simp] theorem State.life_onLife (f : Life → Life) : (s.onLife f).life = f s.life := rfl
@[simp] theorem State.link_onLife (f : Life → Life) : (s.onLife f).link = s.link := rfl
@[simp] theorem State.fresh_onLife (f : Life → Life) : (s.onLife f).fresh = s.fresh := rfl

@[simp] theorem State.pending_onLink (f : Link → Link) : (s.onLink f).pending = s.pending := rfl
@[simp] theorem State.backup_onLink (f : Link → Link) : (s.onLink f).backup = s.backup := rfl
@[simp] theorem State.store_onLink (f : Link → Link) : (s.onLink f).store = s.store := rfl
@[simp] theorem State.reg_onLink (f : Link → Link) : (s.onLink f).reg = s.reg := rfl
@[simp] theorem State.cal_onLink (f : Link → Link) : (s.onLink f).cal = s.cal := rfl
@[simp] theorem State.acct_onLink (f : Link → Link) : (s.onLink f).acct = s.acct := rfl
@[simp] theorem State.code_onLink (f : Link → Link) : (s.onLink f).code = s.code := rfl
@[simp] theorem State.sw_onLink (f : Link → Link) : (s.onLink f).sw = s.sw := rfl
@[simp] theorem State.sup_onLink (f : Link → Link) : (s.onLink f).sup = s.sup := rfl
@[simp] theorem State.tam_onLink (f : Link → Link) : (s.onLink f).tam = s.tam := rfl
@[simp] theorem State.life_onLink (f : Link → Link) : (s.onLink f).life = s.life := rfl
@[simp] theorem State.link_onLink (f : Link → Link) : (s.onLink f).link = f s.link := rfl
@[simp] theorem State.fresh_onLink (f : Link → Link) : (s.onLink f).fresh = s.fresh := rfl

@[simp] theorem State.pending_useFree (n : Nat) : (s.useFree n).pending = s.pending := rfl
@[simp] theorem State.backup_useFree (n : Nat) : (s.useFree n).backup = s.backup := rfl
@[simp] theorem State.store_useFree (n : Nat) : (s.useFree n).store = s.store := rfl
@[simp] theorem State.reg_useFree (n : Nat) : (s.useFree n).reg = s.reg := rfl
@[simp] theorem State.cal_useFree (n : Nat) : (s.useFree n).cal = s.cal := rfl
@[simp] theorem State.acct_useFree (n : Nat) : (s.useFree n).acct = s.acct := rfl
@[simp] theorem State.code_useFree (n : Nat) : (s.useFree n).code = s.code := rfl
@[simp] theorem State.sw_useFree (n : Nat) : (s.useFree n).sw = s.sw := rfl
@[simp] theorem State.sup_useFree (n : Nat) : (s.useFree n).sup = s.sup := rfl
@[simp] theorem State.tam_useFree (n : Nat) : (s.useFree n).tam = s.tam := rfl
@[simp] theorem State.life_useFree (n : Nat) : (s.useFree n).life = s.life := rfl
@[simp] theorem State.link_useFree (n : Nat) : (s.useFree n).link = s.link := rfl
@[simp] theorem State.fresh_useFree (n : Nat) : (s.useFree n).fresh = s.fresh + n := rfl

@[simp] theorem State.alive_onStore (f : Store → Store) : (s.onStore f).alive = s.alive := rfl
@[simp] theorem State.alive_onReg (f : Registration → Registration) : (s.onReg f).alive = s.alive := rfl
@[simp] theorem State.alive_onCal (f : Calendar → Calendar) : (s.onCal f).alive = s.alive := rfl
@[simp] theorem State.alive_onAcct (f : Account → Account) : (s.onAcct f).alive = s.alive := rfl
@[simp] theorem State.alive_onCode (f : CodeUnit → CodeUnit) : (s.onCode f).alive = s.alive := rfl
@[simp] theorem State.alive_onSw (f : Switch → Switch) : (s.onSw f).alive = s.alive := rfl
@[simp] theorem State.alive_onSup (f : Supervision → Supervision) : (s.onSup f).alive = s.alive := rfl
@[simp] theorem State.alive_onTam (f : Tamper → Tamper) : (s.onTam f).alive = s.alive := rfl
@[simp] theorem State.alive_onLife (f : Life → Life) : (s.onLife f).alive = s.alive := rfl
@[simp] theorem State.alive_onLink (f : Link → Link) : (s.onLink f).alive = s.alive := rfl
@[simp] theorem State.alive_useFree (n : Nat) : (s.useFree n).alive = s.alive := rfl
@[simp] theorem State.running_onStore (f : Store → Store) : (s.onStore f).running = s.running := rfl
@[simp] theorem State.running_onReg (f : Registration → Registration) : (s.onReg f).running = s.running := rfl
@[simp] theorem State.running_onCal (f : Calendar → Calendar) : (s.onCal f).running = s.running := rfl
@[simp] theorem State.running_onAcct (f : Account → Account) : (s.onAcct f).running = s.running := rfl
@[simp] theorem State.running_onCode (f : CodeUnit → CodeUnit) : (s.onCode f).running = s.running := rfl
@[simp] theorem State.running_onSw (f : Switch → Switch) : (s.onSw f).running = s.running := rfl
@[simp] theorem State.running_onSup (f : Supervision → Supervision) : (s.onSup f).running = s.running := rfl
@[simp] theorem State.running_onTam (f : Tamper → Tamper) : (s.onTam f).running = s.running := rfl
@[simp] theorem State.running_onLife (f : Life → Life) : (s.onLife f).running = s.running := rfl
@[simp] theorem State.running_onLink (f : Link → Link) : (s.onLink f).running = s.running := rfl
@[simp] theorem State.running_useFree (n : Nat) : (s.useFree n).running = s.running := rfl
@[simp] theorem State.mains_onStore (f : Store → Store) : (s.onStore f).mains = s.mains := rfl
@[simp] theorem State.mains_onReg (f : Registration → Registration) : (s.onReg f).mains = s.mains := rfl
@[simp] theorem State.mains_onCal (f : Calendar → Calendar) : (s.onCal f).mains = s.mains := rfl
@[simp] theorem State.mains_onAcct (f : Account → Account) : (s.onAcct f).mains = s.mains := rfl
@[simp] theorem State.mains_onCode (f : CodeUnit → CodeUnit) : (s.onCode f).mains = s.mains := rfl
@[simp] theorem State.mains_onSw (f : Switch → Switch) : (s.onSw f).mains = s.mains := rfl
@[simp] theorem State.mains_onSup (f : Supervision → Supervision) : (s.onSup f).mains = s.mains := rfl
@[simp] theorem State.mains_onTam (f : Tamper → Tamper) : (s.onTam f).mains = s.mains := rfl
@[simp] theorem State.mains_onLife (f : Life → Life) : (s.onLife f).mains = s.mains := rfl
@[simp] theorem State.mains_onLink (f : Link → Link) : (s.onLink f).mains = s.mains := rfl
@[simp] theorem State.mains_useFree (n : Nat) : (s.useFree n).mains = s.mains := rfl
@[simp] theorem State.holdup_onStore (f : Store → Store) : (s.onStore f).holdup = s.holdup := rfl
@[simp] theorem State.holdup_onReg (f : Registration → Registration) : (s.onReg f).holdup = s.holdup := rfl
@[simp] theorem State.holdup_onCal (f : Calendar → Calendar) : (s.onCal f).holdup = s.holdup := rfl
@[simp] theorem State.holdup_onAcct (f : Account → Account) : (s.onAcct f).holdup = s.holdup := rfl
@[simp] theorem State.holdup_onCode (f : CodeUnit → CodeUnit) : (s.onCode f).holdup = s.holdup := rfl
@[simp] theorem State.holdup_onSw (f : Switch → Switch) : (s.onSw f).holdup = s.holdup := rfl
@[simp] theorem State.holdup_onSup (f : Supervision → Supervision) : (s.onSup f).holdup = s.holdup := rfl
@[simp] theorem State.holdup_onTam (f : Tamper → Tamper) : (s.onTam f).holdup = s.holdup := rfl
@[simp] theorem State.holdup_onLife (f : Life → Life) : (s.onLife f).holdup = s.holdup := rfl
@[simp] theorem State.holdup_onLink (f : Link → Link) : (s.onLink f).holdup = s.holdup := rfl
@[simp] theorem State.holdup_useFree (n : Nat) : (s.useFree n).holdup = s.holdup := rfl
@[simp] theorem State.clock_onStore (f : Store → Store) : (s.onStore f).clock = s.clock := rfl
@[simp] theorem State.clock_onReg (f : Registration → Registration) : (s.onReg f).clock = s.clock := rfl
@[simp] theorem State.clock_onCal (f : Calendar → Calendar) : (s.onCal f).clock = s.clock := rfl
@[simp] theorem State.clock_onAcct (f : Account → Account) : (s.onAcct f).clock = s.clock := rfl
@[simp] theorem State.clock_onCode (f : CodeUnit → CodeUnit) : (s.onCode f).clock = s.clock := rfl
@[simp] theorem State.clock_onSw (f : Switch → Switch) : (s.onSw f).clock = s.clock := rfl
@[simp] theorem State.clock_onSup (f : Supervision → Supervision) : (s.onSup f).clock = s.clock := rfl
@[simp] theorem State.clock_onTam (f : Tamper → Tamper) : (s.onTam f).clock = s.clock := rfl
@[simp] theorem State.clock_onLife (f : Life → Life) : (s.onLife f).clock = s.clock := rfl
@[simp] theorem State.clock_onLink (f : Link → Link) : (s.onLink f).clock = s.clock := rfl
@[simp] theorem State.clock_useFree (n : Nat) : (s.useFree n).clock = s.clock := rfl
@[simp] theorem State.clockValid_onStore (f : Store → Store) : (s.onStore f).clockValid = s.clockValid := rfl
@[simp] theorem State.clockValid_onReg (f : Registration → Registration) : (s.onReg f).clockValid = s.clockValid := rfl
@[simp] theorem State.clockValid_onCal (f : Calendar → Calendar) : (s.onCal f).clockValid = s.clockValid := rfl
@[simp] theorem State.clockValid_onAcct (f : Account → Account) : (s.onAcct f).clockValid = s.clockValid := rfl
@[simp] theorem State.clockValid_onCode (f : CodeUnit → CodeUnit) : (s.onCode f).clockValid = s.clockValid := rfl
@[simp] theorem State.clockValid_onSw (f : Switch → Switch) : (s.onSw f).clockValid = s.clockValid := rfl
@[simp] theorem State.clockValid_onSup (f : Supervision → Supervision) : (s.onSup f).clockValid = s.clockValid := rfl
@[simp] theorem State.clockValid_onTam (f : Tamper → Tamper) : (s.onTam f).clockValid = s.clockValid := rfl
@[simp] theorem State.clockValid_onLife (f : Life → Life) : (s.onLife f).clockValid = s.clockValid := rfl
@[simp] theorem State.clockValid_onLink (f : Link → Link) : (s.onLink f).clockValid = s.clockValid := rfl
@[simp] theorem State.clockValid_useFree (n : Nat) : (s.useFree n).clockValid = s.clockValid := rfl
@[simp] theorem State.time_onStore (f : Store → Store) : (s.onStore f).time = s.time := rfl
@[simp] theorem State.time_onReg (f : Registration → Registration) : (s.onReg f).time = s.time := rfl
@[simp] theorem State.time_onCal (f : Calendar → Calendar) : (s.onCal f).time = s.time := rfl
@[simp] theorem State.time_onAcct (f : Account → Account) : (s.onAcct f).time = s.time := rfl
@[simp] theorem State.time_onCode (f : CodeUnit → CodeUnit) : (s.onCode f).time = s.time := rfl
@[simp] theorem State.time_onSw (f : Switch → Switch) : (s.onSw f).time = s.time := rfl
@[simp] theorem State.time_onSup (f : Supervision → Supervision) : (s.onSup f).time = s.time := rfl
@[simp] theorem State.time_onTam (f : Tamper → Tamper) : (s.onTam f).time = s.time := rfl
@[simp] theorem State.time_onLife (f : Life → Life) : (s.onLife f).time = s.time := rfl
@[simp] theorem State.time_onLink (f : Link → Link) : (s.onLink f).time = s.time := rfl
@[simp] theorem State.time_useFree (n : Nat) : (s.useFree n).time = s.time := rfl
@[simp] theorem State.config_onBackup (f : Backup → Backup) : (s.onBackup f).config = s.config := rfl
@[simp] theorem State.config_onReg (f : Registration → Registration) : (s.onReg f).config = s.config := rfl
@[simp] theorem State.config_onCal (f : Calendar → Calendar) : (s.onCal f).config = s.config := rfl
@[simp] theorem State.config_onAcct (f : Account → Account) : (s.onAcct f).config = s.config := rfl
@[simp] theorem State.config_onCode (f : CodeUnit → CodeUnit) : (s.onCode f).config = s.config := rfl
@[simp] theorem State.config_onSw (f : Switch → Switch) : (s.onSw f).config = s.config := rfl
@[simp] theorem State.config_onSup (f : Supervision → Supervision) : (s.onSup f).config = s.config := rfl
@[simp] theorem State.config_onTam (f : Tamper → Tamper) : (s.onTam f).config = s.config := rfl
@[simp] theorem State.config_onLife (f : Life → Life) : (s.onLife f).config = s.config := rfl
@[simp] theorem State.config_onLink (f : Link → Link) : (s.onLink f).config = s.config := rfl
@[simp] theorem State.config_useFree (n : Nat) : (s.useFree n).config = s.config := rfl
@[simp] theorem State.tariff_onBackup (f : Backup → Backup) : (s.onBackup f).tariff = s.tariff := rfl
@[simp] theorem State.tariff_onReg (f : Registration → Registration) : (s.onReg f).tariff = s.tariff := rfl
@[simp] theorem State.tariff_onCal (f : Calendar → Calendar) : (s.onCal f).tariff = s.tariff := rfl
@[simp] theorem State.tariff_onAcct (f : Account → Account) : (s.onAcct f).tariff = s.tariff := rfl
@[simp] theorem State.tariff_onCode (f : CodeUnit → CodeUnit) : (s.onCode f).tariff = s.tariff := rfl
@[simp] theorem State.tariff_onSw (f : Switch → Switch) : (s.onSw f).tariff = s.tariff := rfl
@[simp] theorem State.tariff_onSup (f : Supervision → Supervision) : (s.onSup f).tariff = s.tariff := rfl
@[simp] theorem State.tariff_onTam (f : Tamper → Tamper) : (s.onTam f).tariff = s.tariff := rfl
@[simp] theorem State.tariff_onLife (f : Life → Life) : (s.onLife f).tariff = s.tariff := rfl
@[simp] theorem State.tariff_onLink (f : Link → Link) : (s.onLink f).tariff = s.tariff := rfl
@[simp] theorem State.tariff_useFree (n : Nat) : (s.useFree n).tariff = s.tariff := rfl
@[simp] theorem State.inService_onBackup (f : Backup → Backup) : (s.onBackup f).inService = s.inService := rfl
@[simp] theorem State.inService_onStore (f : Store → Store) : (s.onStore f).inService = s.inService := rfl
@[simp] theorem State.inService_onReg (f : Registration → Registration) : (s.onReg f).inService = s.inService := rfl
@[simp] theorem State.inService_onCal (f : Calendar → Calendar) : (s.onCal f).inService = s.inService := rfl
@[simp] theorem State.inService_onAcct (f : Account → Account) : (s.onAcct f).inService = s.inService := rfl
@[simp] theorem State.inService_onCode (f : CodeUnit → CodeUnit) : (s.onCode f).inService = s.inService := rfl
@[simp] theorem State.inService_onSw (f : Switch → Switch) : (s.onSw f).inService = s.inService := rfl
@[simp] theorem State.inService_onSup (f : Supervision → Supervision) : (s.onSup f).inService = s.inService := rfl
@[simp] theorem State.inService_onTam (f : Tamper → Tamper) : (s.onTam f).inService = s.inService := rfl
@[simp] theorem State.inService_onLink (f : Link → Link) : (s.onLink f).inService = s.inService := rfl
@[simp] theorem State.inService_useFree (n : Nat) : (s.useFree n).inService = s.inService := rfl
@[simp] theorem State.sound_onBackup (f : Backup → Backup) (r : Record) : (s.onBackup f).sound r = s.sound r := rfl
@[simp] theorem State.sound_onReg (f : Registration → Registration) (r : Record) : (s.onReg f).sound r = s.sound r := rfl
@[simp] theorem State.sound_onCal (f : Calendar → Calendar) (r : Record) : (s.onCal f).sound r = s.sound r := rfl
@[simp] theorem State.sound_onAcct (f : Account → Account) (r : Record) : (s.onAcct f).sound r = s.sound r := rfl
@[simp] theorem State.sound_onCode (f : CodeUnit → CodeUnit) (r : Record) : (s.onCode f).sound r = s.sound r := rfl
@[simp] theorem State.sound_onSw (f : Switch → Switch) (r : Record) : (s.onSw f).sound r = s.sound r := rfl
@[simp] theorem State.sound_onSup (f : Supervision → Supervision) (r : Record) : (s.onSup f).sound r = s.sound r := rfl
@[simp] theorem State.sound_onTam (f : Tamper → Tamper) (r : Record) : (s.onTam f).sound r = s.sound r := rfl
@[simp] theorem State.sound_onLife (f : Life → Life) (r : Record) : (s.onLife f).sound r = s.sound r := rfl
@[simp] theorem State.sound_onLink (f : Link → Link) (r : Record) : (s.onLink f).sound r = s.sound r := rfl
@[simp] theorem State.sound_useFree (n : Nat) (r : Record) : (s.useFree n).sound r = s.sound r := rfl

end Sys2Proof.Machine
end

