-- ==== Sys2Proof/Laws/Frames.lean ====
section
/-! SUPPORT. What each shared operation leaves as it was. For each operation, op_frame names the parts of the state it does not
touch, and op_keeps what it keeps of the parts it does touch. The readings State.mains, State.clock, State.config and the rest
follow by unfolding them. -/

namespace Sys2Proof.Machine

variable (s : State)

@[simp] theorem State.pend_frame (n : Notice) :
    (s.pend n).pending = s.pending ∧ (s.pend n).backup = s.backup ∧ (s.pend n).store = s.store ∧
    (s.pend n).reg = s.reg ∧ (s.pend n).cal = s.cal ∧ (s.pend n).acct = s.acct ∧ (s.pend n).code = s.code ∧
    (s.pend n).sw = s.sw ∧ (s.pend n).sup = s.sup ∧ (s.pend n).tam = s.tam ∧ (s.pend n).life = s.life ∧
    (s.pend n).fresh = s.fresh := by
  simp only [State.pend]; simp

@[simp] theorem State.raiseFault_frame (f : FaultKind) :
    (s.raiseFault f).pending = s.pending ∧ (s.raiseFault f).backup = s.backup ∧ (s.raiseFault f).store = s.store ∧
    (s.raiseFault f).reg = s.reg ∧ (s.raiseFault f).cal = s.cal ∧ (s.raiseFault f).acct = s.acct ∧
    (s.raiseFault f).code = s.code ∧ (s.raiseFault f).sw = s.sw ∧ (s.raiseFault f).sup = s.sup ∧
    (s.raiseFault f).tam = s.tam ∧ (s.raiseFault f).fresh = s.fresh := by
  simp only [State.raiseFault]; (repeat' split) <;> simp
@[simp] theorem State.raiseFault_keeps (f : FaultKind) :
    (s.raiseFault f).life.state = s.life.state ∧ (s.raiseFault f).life.window = s.life.window := by
  simp only [State.raiseFault]; (repeat' split) <;> simp

@[simp] theorem State.endFault_frame (f : FaultKind) :
    (s.endFault f).pending = s.pending ∧ (s.endFault f).backup = s.backup ∧ (s.endFault f).store = s.store ∧
    (s.endFault f).reg = s.reg ∧ (s.endFault f).cal = s.cal ∧ (s.endFault f).acct = s.acct ∧
    (s.endFault f).code = s.code ∧ (s.endFault f).sw = s.sw ∧ (s.endFault f).sup = s.sup ∧
    (s.endFault f).tam = s.tam ∧ (s.endFault f).fresh = s.fresh := by
  simp only [State.endFault]; (repeat' split) <;> simp
@[simp] theorem State.endFault_keeps (f : FaultKind) :
    (s.endFault f).life.state = s.life.state ∧ (s.endFault f).life.window = s.life.window := by
  simp only [State.endFault]; (repeat' split) <;> simp

@[simp] theorem State.answer_frame (st : Status) (body : List Byte) :
    (s.answer st body).pending = s.pending ∧ (s.answer st body).backup = s.backup ∧
    (s.answer st body).store = s.store ∧ (s.answer st body).reg = s.reg ∧ (s.answer st body).cal = s.cal ∧
    (s.answer st body).acct = s.acct ∧ (s.answer st body).code = s.code ∧ (s.answer st body).sw = s.sw ∧
    (s.answer st body).sup = s.sup ∧ (s.answer st body).tam = s.tam ∧ (s.answer st body).life = s.life := by
  simp only [State.answer]; simp

@[simp] theorem State.await_frame :
    (s.await).pending = s.pending ∧ (s.await).backup = s.backup ∧ (s.await).store = s.store ∧ (s.await).reg = s.reg ∧
    (s.await).cal = s.cal ∧ (s.await).acct = s.acct ∧ (s.await).code = s.code ∧ (s.await).sw = s.sw ∧
    (s.await).sup = s.sup ∧ (s.await).tam = s.tam ∧ (s.await).life = s.life ∧ (s.await).fresh = s.fresh := by
  simp only [State.await]; simp

@[simp] theorem State.pump_frame :
    (s.pump).pending = s.pending ∧ (s.pump).backup = s.backup ∧ (s.pump).reg = s.reg ∧ (s.pump).cal = s.cal ∧
    (s.pump).acct = s.acct ∧ (s.pump).code = s.code ∧ (s.pump).sw = s.sw ∧ (s.pump).sup = s.sup ∧
    (s.pump).tam = s.tam ∧ (s.pump).life = s.life ∧ (s.pump).link = s.link ∧ (s.pump).fresh = s.fresh := by
  simp only [State.pump]; (repeat' split) <;> simp
@[simp] theorem State.pump_keeps :
    (s.pump).store.recs = s.store.recs ∧ (s.pump).store.bad = s.store.bad ∧
    (s.pump).store.unsound = s.store.unsound := by
  simp only [State.pump]; (repeat' split) <;> simp

@[simp] theorem State.request_frame (p : Purpose) :
    (s.request p).pending = s.pending ∧ (s.request p).backup = s.backup ∧ (s.request p).reg = s.reg ∧
    (s.request p).cal = s.cal ∧ (s.request p).acct = s.acct ∧ (s.request p).code = s.code ∧ (s.request p).sw = s.sw ∧
    (s.request p).sup = s.sup ∧ (s.request p).tam = s.tam ∧ (s.request p).life = s.life ∧
    (s.request p).link = s.link ∧ (s.request p).fresh = s.fresh := by
  simp only [State.request]; (repeat' split) <;> simp
@[simp] theorem State.request_keeps (p : Purpose) :
    (s.request p).store.recs = s.store.recs ∧ (s.request p).store.bad = s.store.bad ∧
    (s.request p).store.unsound = s.store.unsound := by
  simp only [State.request]; (repeat' split) <;> simp

@[simp] theorem State.beginOperation_frame (target : SwitchState) :
    (s.beginOperation target).pending = s.pending ∧ (s.beginOperation target).backup = s.backup ∧
    (s.beginOperation target).store = s.store ∧ (s.beginOperation target).reg = s.reg ∧
    (s.beginOperation target).cal = s.cal ∧ (s.beginOperation target).acct = s.acct ∧
    (s.beginOperation target).code = s.code ∧ (s.beginOperation target).sup = s.sup ∧
    (s.beginOperation target).life = s.life ∧ (s.beginOperation target).fresh = s.fresh := by
  simp only [State.beginOperation]; simp

@[simp] theorem State.toRest_frame (target : SwitchState) :
    (s.toRest target).pending = s.pending ∧ (s.toRest target).backup = s.backup ∧ (s.toRest target).store = s.store ∧
    (s.toRest target).reg = s.reg ∧ (s.toRest target).cal = s.cal ∧ (s.toRest target).acct = s.acct ∧
    (s.toRest target).code = s.code ∧ (s.toRest target).sup = s.sup ∧ (s.toRest target).tam = s.tam ∧
    (s.toRest target).life = s.life ∧ (s.toRest target).fresh = s.fresh := by
  simp only [State.toRest]; simp

@[simp] theorem State.judgeRest_frame :
    (s.judgeRest).pending = s.pending ∧ (s.judgeRest).backup = s.backup ∧ (s.judgeRest).store = s.store ∧
    (s.judgeRest).reg = s.reg ∧ (s.judgeRest).cal = s.cal ∧ (s.judgeRest).acct = s.acct ∧
    (s.judgeRest).code = s.code ∧ (s.judgeRest).sup = s.sup ∧ (s.judgeRest).life = s.life ∧
    (s.judgeRest).fresh = s.fresh := by
  simp only [State.judgeRest]; (repeat' split) <;> simp

@[simp] theorem State.handHold_frame (r : Hold) (b : Bool) :
    (s.handHold r b).pending = s.pending ∧ (s.handHold r b).backup = s.backup ∧ (s.handHold r b).reg = s.reg ∧
    (s.handHold r b).cal = s.cal ∧ (s.handHold r b).acct = s.acct ∧ (s.handHold r b).code = s.code ∧
    (s.handHold r b).sup = s.sup ∧ (s.handHold r b).life = s.life ∧ (s.handHold r b).fresh = s.fresh := by
  simp only [State.handHold]; (repeat' split) <;> simp
@[simp] theorem State.handHold_keeps (r : Hold) (b : Bool) :
    (s.handHold r b).store.recs = s.store.recs ∧ (s.handHold r b).store.bad = s.store.bad ∧
    (s.handHold r b).store.unsound = s.store.unsound := by
  simp only [State.handHold]; (repeat' split) <;> simp

@[simp] theorem State.judgeTamper_frame :
    (s.judgeTamper).pending = s.pending ∧ (s.judgeTamper).backup = s.backup ∧ (s.judgeTamper).reg = s.reg ∧
    (s.judgeTamper).cal = s.cal ∧ (s.judgeTamper).acct = s.acct ∧ (s.judgeTamper).code = s.code ∧
    (s.judgeTamper).sup = s.sup ∧ (s.judgeTamper).life = s.life ∧ (s.judgeTamper).fresh = s.fresh := by
  simp only [State.judgeTamper]; (repeat' split) <;> simp
@[simp] theorem State.judgeTamper_keeps :
    (s.judgeTamper).store.recs = s.store.recs ∧ (s.judgeTamper).store.bad = s.store.bad ∧
    (s.judgeTamper).store.unsound = s.store.unsound := by
  simp only [State.judgeTamper]; (repeat' split) <;> simp

@[simp] theorem State.notifyEvidence_frame (c : EvClass) :
    (s.notifyEvidence c).pending = s.pending ∧ (s.notifyEvidence c).backup = s.backup ∧
    (s.notifyEvidence c).store = s.store ∧ (s.notifyEvidence c).reg = s.reg ∧ (s.notifyEvidence c).cal = s.cal ∧
    (s.notifyEvidence c).acct = s.acct ∧ (s.notifyEvidence c).code = s.code ∧ (s.notifyEvidence c).sw = s.sw ∧
    (s.notifyEvidence c).sup = s.sup ∧ (s.notifyEvidence c).tam = s.tam ∧ (s.notifyEvidence c).life = s.life ∧
    (s.notifyEvidence c).fresh = s.fresh := by
  simp only [State.notifyEvidence]; (repeat' split) <;> simp

@[simp] theorem State.appendRecord_frame (r : EvRecord) :
    (s.appendRecord r).pending = s.pending ∧ (s.appendRecord r).backup = s.backup ∧ (s.appendRecord r).reg = s.reg ∧
    (s.appendRecord r).cal = s.cal ∧ (s.appendRecord r).acct = s.acct ∧ (s.appendRecord r).code = s.code ∧
    (s.appendRecord r).sw = s.sw ∧ (s.appendRecord r).sup = s.sup ∧ (s.appendRecord r).life = s.life ∧
    (s.appendRecord r).fresh = s.fresh := by
  simp only [State.appendRecord]; simp
@[simp] theorem State.appendRecord_keeps (r : EvRecord) :
    (s.appendRecord r).store.recs = s.store.recs ∧ (s.appendRecord r).store.bad = s.store.bad ∧
    (s.appendRecord r).store.unsound = s.store.unsound := by
  simp only [State.appendRecord]; simp

@[simp] theorem State.editLog_frame (f : EvRecord → EvRecord) :
    (s.editLog f).pending = s.pending ∧ (s.editLog f).backup = s.backup ∧ (s.editLog f).reg = s.reg ∧
    (s.editLog f).cal = s.cal ∧ (s.editLog f).acct = s.acct ∧ (s.editLog f).code = s.code ∧ (s.editLog f).sw = s.sw ∧
    (s.editLog f).sup = s.sup ∧ (s.editLog f).life = s.life ∧ (s.editLog f).link = s.link ∧
    (s.editLog f).fresh = s.fresh := by
  simp only [State.editLog]; simp
@[simp] theorem State.editLog_keeps (f : EvRecord → EvRecord) :
    (s.editLog f).store.recs = s.store.recs ∧ (s.editLog f).store.bad = s.store.bad ∧
    (s.editLog f).store.unsound = s.store.unsound := by
  simp only [State.editLog]; simp

@[simp] theorem State.recordExcused_frame (a : Arrival) :
    (s.recordExcused a).pending = s.pending ∧ (s.recordExcused a).backup = s.backup ∧
    (s.recordExcused a).reg = s.reg ∧ (s.recordExcused a).cal = s.cal ∧ (s.recordExcused a).acct = s.acct ∧
    (s.recordExcused a).code = s.code ∧ (s.recordExcused a).sw = s.sw ∧ (s.recordExcused a).sup = s.sup ∧
    (s.recordExcused a).life = s.life ∧ (s.recordExcused a).fresh = s.fresh := by
  simp only [State.recordExcused]; simp
@[simp] theorem State.recordExcused_keeps (a : Arrival) :
    (s.recordExcused a).store.recs = s.store.recs ∧ (s.recordExcused a).store.bad = s.store.bad ∧
    (s.recordExcused a).store.unsound = s.store.unsound := by
  simp only [State.recordExcused]; simp

@[simp] theorem State.recordOnset_frame (a : Arrival) :
    (s.recordOnset a).pending = s.pending ∧ (s.recordOnset a).backup = s.backup ∧ (s.recordOnset a).reg = s.reg ∧
    (s.recordOnset a).cal = s.cal ∧ (s.recordOnset a).acct = s.acct ∧ (s.recordOnset a).code = s.code ∧
    (s.recordOnset a).sup = s.sup ∧ (s.recordOnset a).life = s.life ∧ (s.recordOnset a).fresh = s.fresh := by
  simp only [State.recordOnset]; (repeat' split) <;> simp
@[simp] theorem State.recordOnset_keeps (a : Arrival) :
    (s.recordOnset a).store.recs = s.store.recs ∧ (s.recordOnset a).store.bad = s.store.bad ∧
    (s.recordOnset a).store.unsound = s.store.unsound := by
  simp only [State.recordOnset]; (repeat' split) <;> simp

@[simp] theorem State.recordEnd_frame (a : Arrival) :
    (s.recordEnd a).pending = s.pending ∧ (s.recordEnd a).backup = s.backup ∧ (s.recordEnd a).reg = s.reg ∧
    (s.recordEnd a).cal = s.cal ∧ (s.recordEnd a).acct = s.acct ∧ (s.recordEnd a).code = s.code ∧
    (s.recordEnd a).sw = s.sw ∧ (s.recordEnd a).sup = s.sup ∧ (s.recordEnd a).life = s.life ∧
    (s.recordEnd a).link = s.link ∧ (s.recordEnd a).fresh = s.fresh := by
  simp only [State.recordEnd]; (repeat' split) <;> simp
@[simp] theorem State.recordEnd_keeps (a : Arrival) :
    (s.recordEnd a).store.recs = s.store.recs ∧ (s.recordEnd a).store.bad = s.store.bad ∧
    (s.recordEnd a).store.unsound = s.store.unsound := by
  simp only [State.recordEnd]; (repeat' split) <;> simp

@[simp] theorem State.takeArrival_frame (a : Arrival) :
    (s.takeArrival a).pending = s.pending ∧ (s.takeArrival a).backup = s.backup ∧ (s.takeArrival a).reg = s.reg ∧
    (s.takeArrival a).cal = s.cal ∧ (s.takeArrival a).acct = s.acct ∧ (s.takeArrival a).code = s.code ∧
    (s.takeArrival a).sup = s.sup ∧ (s.takeArrival a).life = s.life ∧ (s.takeArrival a).fresh = s.fresh := by
  simp only [State.takeArrival]; (repeat' split) <;> simp
@[simp] theorem State.takeArrival_keeps (a : Arrival) :
    (s.takeArrival a).store.recs = s.store.recs ∧ (s.takeArrival a).store.bad = s.store.bad ∧
    (s.takeArrival a).store.unsound = s.store.unsound := by
  simp only [State.takeArrival]; (repeat' split) <;> simp

@[simp] theorem State.arrive_frame (a : Arrival) :
    (s.arrive a).pending = s.pending ∧ (s.arrive a).backup = s.backup ∧ (s.arrive a).reg = s.reg ∧
    (s.arrive a).cal = s.cal ∧ (s.arrive a).acct = s.acct ∧ (s.arrive a).code = s.code ∧ (s.arrive a).sup = s.sup ∧
    (s.arrive a).life = s.life ∧ (s.arrive a).fresh = s.fresh := by
  simp only [State.arrive]; (repeat' split) <;> simp
@[simp] theorem State.arrive_keeps (a : Arrival) :
    (s.arrive a).store.recs = s.store.recs ∧ (s.arrive a).store.bad = s.store.bad ∧
    (s.arrive a).store.unsound = s.store.unsound := by
  simp only [State.arrive]; (repeat' split) <;> simp

@[simp] theorem State.latchOnset_frame (c : EvClass) (ph : Option Nat) (v : Option Int) :
    (s.latchOnset c ph v).pending = s.pending ∧ (s.latchOnset c ph v).backup = s.backup ∧
    (s.latchOnset c ph v).reg = s.reg ∧ (s.latchOnset c ph v).cal = s.cal ∧ (s.latchOnset c ph v).acct = s.acct ∧
    (s.latchOnset c ph v).code = s.code ∧ (s.latchOnset c ph v).sup = s.sup ∧ (s.latchOnset c ph v).life = s.life ∧
    (s.latchOnset c ph v).fresh = s.fresh := by
  simp only [State.latchOnset]; simp
@[simp] theorem State.latchOnset_keeps (c : EvClass) (ph : Option Nat) (v : Option Int) :
    (s.latchOnset c ph v).store.recs = s.store.recs ∧ (s.latchOnset c ph v).store.bad = s.store.bad ∧
    (s.latchOnset c ph v).store.unsound = s.store.unsound := by
  simp only [State.latchOnset]; simp

@[simp] theorem State.latchEnd_frame (c : EvClass) :
    (s.latchEnd c).pending = s.pending ∧ (s.latchEnd c).backup = s.backup ∧ (s.latchEnd c).reg = s.reg ∧
    (s.latchEnd c).cal = s.cal ∧ (s.latchEnd c).acct = s.acct ∧ (s.latchEnd c).code = s.code ∧
    (s.latchEnd c).sup = s.sup ∧ (s.latchEnd c).life = s.life ∧ (s.latchEnd c).fresh = s.fresh := by
  simp only [State.latchEnd]; simp
@[simp] theorem State.latchEnd_keeps (c : EvClass) :
    (s.latchEnd c).store.recs = s.store.recs ∧ (s.latchEnd c).store.bad = s.store.bad ∧
    (s.latchEnd c).store.unsound = s.store.unsound := by
  simp only [State.latchEnd]; simp

@[simp] theorem State.followOnset_frame (c : EvClass) (v : Option Int) :
    (s.followOnset c v).pending = s.pending ∧ (s.followOnset c v).backup = s.backup ∧
    (s.followOnset c v).reg = s.reg ∧ (s.followOnset c v).cal = s.cal ∧ (s.followOnset c v).acct = s.acct ∧
    (s.followOnset c v).code = s.code ∧ (s.followOnset c v).sw = s.sw ∧ (s.followOnset c v).sup = s.sup ∧
    (s.followOnset c v).life = s.life ∧ (s.followOnset c v).fresh = s.fresh := by
  simp only [State.followOnset]; (repeat' split) <;> simp
@[simp] theorem State.followOnset_keeps (c : EvClass) (v : Option Int) :
    (s.followOnset c v).store.recs = s.store.recs ∧ (s.followOnset c v).store.bad = s.store.bad ∧
    (s.followOnset c v).store.unsound = s.store.unsound := by
  simp only [State.followOnset]; (repeat' split) <;> simp

@[simp] theorem State.followEnd_frame (c : EvClass) :
    (s.followEnd c).pending = s.pending ∧ (s.followEnd c).backup = s.backup ∧ (s.followEnd c).reg = s.reg ∧
    (s.followEnd c).cal = s.cal ∧ (s.followEnd c).acct = s.acct ∧ (s.followEnd c).code = s.code ∧
    (s.followEnd c).sw = s.sw ∧ (s.followEnd c).sup = s.sup ∧ (s.followEnd c).life = s.life ∧
    (s.followEnd c).fresh = s.fresh := by
  simp only [State.followEnd]; (repeat' split) <;> simp
@[simp] theorem State.followEnd_keeps (c : EvClass) :
    (s.followEnd c).store.recs = s.store.recs ∧ (s.followEnd c).store.bad = s.store.bad ∧
    (s.followEnd c).store.unsound = s.store.unsound := by
  simp only [State.followEnd]; (repeat' split) <;> simp

@[simp] theorem State.clockStep_frame (prior : Option Nat) (requested outcome : Nat) :
    (s.clockStep prior requested outcome).pending = s.pending ∧
    (s.clockStep prior requested outcome).backup = s.backup ∧ (s.clockStep prior requested outcome).reg = s.reg ∧
    (s.clockStep prior requested outcome).cal = s.cal ∧ (s.clockStep prior requested outcome).acct = s.acct ∧
    (s.clockStep prior requested outcome).code = s.code ∧ (s.clockStep prior requested outcome).sw = s.sw ∧
    (s.clockStep prior requested outcome).sup = s.sup ∧ (s.clockStep prior requested outcome).life = s.life ∧
    (s.clockStep prior requested outcome).fresh = s.fresh := by
  simp only [State.clockStep]; simp
@[simp] theorem State.clockStep_keeps (prior : Option Nat) (requested outcome : Nat) :
    (s.clockStep prior requested outcome).store.recs = s.store.recs ∧
    (s.clockStep prior requested outcome).store.bad = s.store.bad ∧
    (s.clockStep prior requested outcome).store.unsound = s.store.unsound := by
  simp only [State.clockStep]; simp

@[simp] theorem State.classChange_frame (c : EvClass) (b a : Bool) (ph : Option Nat) (v : Int) :
    (s.classChange c b a ph v).pending = s.pending ∧ (s.classChange c b a ph v).backup = s.backup ∧
    (s.classChange c b a ph v).reg = s.reg ∧ (s.classChange c b a ph v).cal = s.cal ∧
    (s.classChange c b a ph v).acct = s.acct ∧ (s.classChange c b a ph v).code = s.code ∧
    (s.classChange c b a ph v).sup = s.sup ∧ (s.classChange c b a ph v).life = s.life ∧
    (s.classChange c b a ph v).fresh = s.fresh := by
  simp only [State.classChange]; (repeat' split) <;> simp
@[simp] theorem State.classChange_keeps (c : EvClass) (b a : Bool) (ph : Option Nat) (v : Int) :
    (s.classChange c b a ph v).store.recs = s.store.recs ∧ (s.classChange c b a ph v).store.bad = s.store.bad ∧
    (s.classChange c b a ph v).store.unsound = s.store.unsound := by
  simp only [State.classChange]; (repeat' split) <;> simp

@[simp] theorem State.judgeReverse_frame (m : Summary) :
    (s.judgeReverse m).pending = s.pending ∧ (s.judgeReverse m).backup = s.backup ∧ (s.judgeReverse m).reg = s.reg ∧
    (s.judgeReverse m).cal = s.cal ∧ (s.judgeReverse m).acct = s.acct ∧ (s.judgeReverse m).code = s.code ∧
    (s.judgeReverse m).sup = s.sup ∧ (s.judgeReverse m).life = s.life ∧ (s.judgeReverse m).fresh = s.fresh := by
  simp only [State.judgeReverse]; simp
@[simp] theorem State.judgeReverse_keeps (m : Summary) :
    (s.judgeReverse m).store.recs = s.store.recs ∧ (s.judgeReverse m).store.bad = s.store.bad ∧
    (s.judgeReverse m).store.unsound = s.store.unsound := by
  simp only [State.judgeReverse]; simp

@[simp] theorem State.judgeResidual_frame (m : Summary) :
    (s.judgeResidual m).pending = s.pending ∧ (s.judgeResidual m).backup = s.backup ∧
    (s.judgeResidual m).reg = s.reg ∧ (s.judgeResidual m).cal = s.cal ∧ (s.judgeResidual m).acct = s.acct ∧
    (s.judgeResidual m).code = s.code ∧ (s.judgeResidual m).sup = s.sup ∧ (s.judgeResidual m).life = s.life ∧
    (s.judgeResidual m).fresh = s.fresh := by
  simp only [State.judgeResidual]; simp
@[simp] theorem State.judgeResidual_keeps (m : Summary) :
    (s.judgeResidual m).store.recs = s.store.recs ∧ (s.judgeResidual m).store.bad = s.store.bad ∧
    (s.judgeResidual m).store.unsound = s.store.unsound := by
  simp only [State.judgeResidual]; simp

@[simp] theorem State.judgeCut_frame (m : Summary) :
    (s.judgeCut m).pending = s.pending ∧ (s.judgeCut m).backup = s.backup ∧ (s.judgeCut m).reg = s.reg ∧
    (s.judgeCut m).cal = s.cal ∧ (s.judgeCut m).acct = s.acct ∧ (s.judgeCut m).code = s.code ∧
    (s.judgeCut m).sup = s.sup ∧ (s.judgeCut m).life = s.life ∧ (s.judgeCut m).fresh = s.fresh := by
  simp only [State.judgeCut]; simp
@[simp] theorem State.judgeCut_keeps (m : Summary) :
    (s.judgeCut m).store.recs = s.store.recs ∧ (s.judgeCut m).store.bad = s.store.bad ∧
    (s.judgeCut m).store.unsound = s.store.unsound := by
  simp only [State.judgeCut]; simp

@[simp] theorem State.judgeBypass_frame (m : Summary) :
    (s.judgeBypass m).pending = s.pending ∧ (s.judgeBypass m).backup = s.backup ∧ (s.judgeBypass m).reg = s.reg ∧
    (s.judgeBypass m).cal = s.cal ∧ (s.judgeBypass m).acct = s.acct ∧ (s.judgeBypass m).code = s.code ∧
    (s.judgeBypass m).sup = s.sup ∧ (s.judgeBypass m).life = s.life ∧ (s.judgeBypass m).fresh = s.fresh := by
  simp only [State.judgeBypass]; (repeat' split) <;> simp
@[simp] theorem State.judgeBypass_keeps (m : Summary) :
    (s.judgeBypass m).store.recs = s.store.recs ∧ (s.judgeBypass m).store.bad = s.store.bad ∧
    (s.judgeBypass m).store.unsound = s.store.unsound := by
  simp only [State.judgeBypass]; (repeat' split) <;> simp

@[simp] theorem State.collectPost_frame (m : Summary) :
    (s.collectPost m).pending = s.pending ∧ (s.collectPost m).backup = s.backup ∧ (s.collectPost m).reg = s.reg ∧
    (s.collectPost m).cal = s.cal ∧ (s.collectPost m).acct = s.acct ∧ (s.collectPost m).code = s.code ∧
    (s.collectPost m).sw = s.sw ∧ (s.collectPost m).sup = s.sup ∧ (s.collectPost m).life = s.life ∧
    (s.collectPost m).link = s.link ∧ (s.collectPost m).fresh = s.fresh := by
  simp only [State.collectPost]; (repeat' split) <;> simp
@[simp] theorem State.collectPost_keeps (m : Summary) :
    (s.collectPost m).store.recs = s.store.recs ∧ (s.collectPost m).store.bad = s.store.bad ∧
    (s.collectPost m).store.unsound = s.store.unsound := by
  simp only [State.collectPost]; (repeat' split) <;> simp

@[simp] theorem State.tamperTakes_frame (m : Summary) :
    (s.tamperTakes m).pending = s.pending ∧ (s.tamperTakes m).backup = s.backup ∧ (s.tamperTakes m).reg = s.reg ∧
    (s.tamperTakes m).cal = s.cal ∧ (s.tamperTakes m).acct = s.acct ∧ (s.tamperTakes m).code = s.code ∧
    (s.tamperTakes m).sup = s.sup ∧ (s.tamperTakes m).life = s.life ∧ (s.tamperTakes m).fresh = s.fresh := by
  simp only [State.tamperTakes]; simp
@[simp] theorem State.tamperTakes_keeps (m : Summary) :
    (s.tamperTakes m).store.recs = s.store.recs ∧ (s.tamperTakes m).store.bad = s.store.bad ∧
    (s.tamperTakes m).store.unsound = s.store.unsound := by
  simp only [State.tamperTakes]; simp

@[simp] theorem State.leaveJammed_frame :
    (s.leaveJammed).pending = s.pending ∧ (s.leaveJammed).backup = s.backup ∧ (s.leaveJammed).reg = s.reg ∧
    (s.leaveJammed).cal = s.cal ∧ (s.leaveJammed).acct = s.acct ∧ (s.leaveJammed).code = s.code ∧
    (s.leaveJammed).sw = s.sw ∧ (s.leaveJammed).sup = s.sup ∧ (s.leaveJammed).fresh = s.fresh := by
  simp only [State.leaveJammed]; simp
@[simp] theorem State.leaveJammed_keeps :
    (s.leaveJammed).life.state = s.life.state ∧ (s.leaveJammed).life.window = s.life.window ∧
    (s.leaveJammed).store.recs = s.store.recs ∧ (s.leaveJammed).store.bad = s.store.bad ∧
    (s.leaveJammed).store.unsound = s.store.unsound := by
  simp only [State.leaveJammed]; simp

@[simp] theorem State.enterJammed_frame :
    (s.enterJammed).pending = s.pending ∧ (s.enterJammed).backup = s.backup ∧ (s.enterJammed).reg = s.reg ∧
    (s.enterJammed).cal = s.cal ∧ (s.enterJammed).acct = s.acct ∧ (s.enterJammed).code = s.code ∧
    (s.enterJammed).sup = s.sup ∧ (s.enterJammed).fresh = s.fresh := by
  simp only [State.enterJammed]; simp
@[simp] theorem State.enterJammed_keeps :
    (s.enterJammed).life.state = s.life.state ∧ (s.enterJammed).life.window = s.life.window ∧
    (s.enterJammed).store.recs = s.store.recs ∧ (s.enterJammed).store.bad = s.store.bad ∧
    (s.enterJammed).store.unsound = s.store.unsound := by
  simp only [State.enterJammed]; simp

@[simp] theorem State.attemptFails_frame :
    (s.attemptFails).pending = s.pending ∧ (s.attemptFails).backup = s.backup ∧ (s.attemptFails).reg = s.reg ∧
    (s.attemptFails).cal = s.cal ∧ (s.attemptFails).acct = s.acct ∧ (s.attemptFails).code = s.code ∧
    (s.attemptFails).sup = s.sup ∧ (s.attemptFails).fresh = s.fresh := by
  simp only [State.attemptFails]; (repeat' split) <;> simp
@[simp] theorem State.attemptFails_keeps :
    (s.attemptFails).life.state = s.life.state ∧ (s.attemptFails).life.window = s.life.window ∧
    (s.attemptFails).store.recs = s.store.recs ∧ (s.attemptFails).store.bad = s.store.bad ∧
    (s.attemptFails).store.unsound = s.store.unsound := by
  simp only [State.attemptFails]; (repeat' split) <;> simp

@[simp] theorem State.judgeCompletion_frame (o : Bool) :
    (s.judgeCompletion o).pending = s.pending ∧ (s.judgeCompletion o).backup = s.backup ∧
    (s.judgeCompletion o).store = s.store ∧ (s.judgeCompletion o).reg = s.reg ∧ (s.judgeCompletion o).cal = s.cal ∧
    (s.judgeCompletion o).acct = s.acct ∧ (s.judgeCompletion o).code = s.code ∧ (s.judgeCompletion o).sup = s.sup ∧
    (s.judgeCompletion o).life = s.life ∧ (s.judgeCompletion o).fresh = s.fresh := by
  simp only [State.judgeCompletion]; (repeat' split) <;> simp

@[simp] theorem State.completeOperation_frame (t : Nat) :
    (s.completeOperation t).pending = s.pending ∧ (s.completeOperation t).backup = s.backup ∧
    (s.completeOperation t).reg = s.reg ∧ (s.completeOperation t).cal = s.cal ∧
    (s.completeOperation t).acct = s.acct ∧ (s.completeOperation t).code = s.code ∧
    (s.completeOperation t).sup = s.sup ∧ (s.completeOperation t).life = s.life ∧
    (s.completeOperation t).fresh = s.fresh := by
  simp only [State.completeOperation]; simp
@[simp] theorem State.completeOperation_keeps (t : Nat) :
    (s.completeOperation t).store.recs = s.store.recs ∧ (s.completeOperation t).store.bad = s.store.bad ∧
    (s.completeOperation t).store.unsound = s.store.unsound := by
  simp only [State.completeOperation]; simp

@[simp] theorem State.setSensed_frame :
    (s.setSensed).pending = s.pending ∧ (s.setSensed).backup = s.backup ∧ (s.setSensed).store = s.store ∧
    (s.setSensed).reg = s.reg ∧ (s.setSensed).cal = s.cal ∧ (s.setSensed).acct = s.acct ∧
    (s.setSensed).code = s.code ∧ (s.setSensed).sup = s.sup ∧ (s.setSensed).life = s.life ∧
    (s.setSensed).fresh = s.fresh := by
  simp only [State.setSensed]; (repeat' split) <;> simp

@[simp] theorem State.switchHoldup_frame :
    (s.switchHoldup).pending = s.pending ∧ (s.switchHoldup).backup = s.backup ∧ (s.switchHoldup).store = s.store ∧
    (s.switchHoldup).reg = s.reg ∧ (s.switchHoldup).cal = s.cal ∧ (s.switchHoldup).acct = s.acct ∧
    (s.switchHoldup).code = s.code ∧ (s.switchHoldup).sup = s.sup ∧ (s.switchHoldup).tam = s.tam ∧
    (s.switchHoldup).life = s.life := by
  simp only [State.switchHoldup]; (repeat' split) <;> simp

@[simp] theorem State.switchDip_frame :
    (s.switchDip).pending = s.pending ∧ (s.switchDip).backup = s.backup ∧ (s.switchDip).store = s.store ∧
    (s.switchDip).reg = s.reg ∧ (s.switchDip).cal = s.cal ∧ (s.switchDip).acct = s.acct ∧
    (s.switchDip).code = s.code ∧ (s.switchDip).sup = s.sup ∧ (s.switchDip).life = s.life ∧
    (s.switchDip).fresh = s.fresh := by
  simp only [State.switchDip]; (repeat' split) <;> simp

@[simp] theorem State.judgeCondition_frame (a : Bool) :
    (s.judgeCondition a).pending = s.pending ∧ (s.judgeCondition a).backup = s.backup ∧
    (s.judgeCondition a).store = s.store ∧ (s.judgeCondition a).reg = s.reg ∧ (s.judgeCondition a).cal = s.cal ∧
    (s.judgeCondition a).code = s.code ∧ (s.judgeCondition a).sw = s.sw ∧ (s.judgeCondition a).sup = s.sup ∧
    (s.judgeCondition a).tam = s.tam ∧ (s.judgeCondition a).life = s.life ∧ (s.judgeCondition a).fresh = s.fresh := by
  simp only [State.judgeCondition]; (repeat' split) <;> simp

@[simp] theorem State.creditTest_frame (a : Bool) :
    (s.creditTest a).pending = s.pending ∧ (s.creditTest a).backup = s.backup ∧ (s.creditTest a).reg = s.reg ∧
    (s.creditTest a).cal = s.cal ∧ (s.creditTest a).code = s.code ∧ (s.creditTest a).sup = s.sup ∧
    (s.creditTest a).life = s.life ∧ (s.creditTest a).fresh = s.fresh := by
  simp only [State.creditTest]; (repeat' split) <;> simp
@[simp] theorem State.creditTest_keeps (a : Bool) :
    (s.creditTest a).store.recs = s.store.recs ∧ (s.creditTest a).store.bad = s.store.bad ∧
    (s.creditTest a).store.unsound = s.store.unsound := by
  simp only [State.creditTest]; (repeat' split) <;> simp

@[simp] theorem State.evalFriendly_frame :
    (s.evalFriendly).pending = s.pending ∧ (s.evalFriendly).backup = s.backup ∧ (s.evalFriendly).reg = s.reg ∧
    (s.evalFriendly).code = s.code ∧ (s.evalFriendly).sup = s.sup ∧ (s.evalFriendly).life = s.life ∧
    (s.evalFriendly).fresh = s.fresh := by
  simp only [State.evalFriendly]; (repeat' split) <;> simp
@[simp] theorem State.evalFriendly_keeps :
    (s.evalFriendly).store.recs = s.store.recs ∧ (s.evalFriendly).store.bad = s.store.bad ∧
    (s.evalFriendly).store.unsound = s.store.unsound := by
  simp only [State.evalFriendly]; (repeat' split) <;> simp

@[simp] theorem State.compareDay_frame :
    (s.compareDay).pending = s.pending ∧ (s.compareDay).backup = s.backup ∧ (s.compareDay).store = s.store ∧
    (s.compareDay).reg = s.reg ∧ (s.compareDay).code = s.code ∧ (s.compareDay).sw = s.sw ∧
    (s.compareDay).sup = s.sup ∧ (s.compareDay).tam = s.tam ∧ (s.compareDay).life = s.life ∧
    (s.compareDay).link = s.link ∧ (s.compareDay).fresh = s.fresh := by
  simp only [State.compareDay]; (repeat' split) <;> simp

@[simp] theorem State.bringInBackoff_frame :
    (s.bringInBackoff).pending = s.pending ∧ (s.bringInBackoff).backup = s.backup ∧ (s.bringInBackoff).reg = s.reg ∧
    (s.bringInBackoff).cal = s.cal ∧ (s.bringInBackoff).acct = s.acct ∧ (s.bringInBackoff).code = s.code ∧
    (s.bringInBackoff).sw = s.sw ∧ (s.bringInBackoff).tam = s.tam ∧ (s.bringInBackoff).life = s.life ∧
    (s.bringInBackoff).link = s.link ∧ (s.bringInBackoff).fresh = s.fresh := by
  simp only [State.bringInBackoff]; (repeat' split) <;> simp
@[simp] theorem State.bringInBackoff_keeps :
    (s.bringInBackoff).store.recs = s.store.recs ∧ (s.bringInBackoff).store.bad = s.store.bad ∧
    (s.bringInBackoff).store.unsound = s.store.unsound := by
  simp only [State.bringInBackoff]; (repeat' split) <;> simp

@[simp] theorem State.countTaken_frame (a : Arrival) :
    (s.countTaken a).pending = s.pending ∧ (s.countTaken a).store = s.store ∧ (s.countTaken a).reg = s.reg ∧
    (s.countTaken a).cal = s.cal ∧ (s.countTaken a).acct = s.acct ∧ (s.countTaken a).code = s.code ∧
    (s.countTaken a).sw = s.sw ∧ (s.countTaken a).sup = s.sup ∧ (s.countTaken a).tam = s.tam ∧
    (s.countTaken a).life = s.life ∧ (s.countTaken a).link = s.link ∧ (s.countTaken a).fresh = s.fresh := by
  simp only [State.countTaken]; (repeat' split) <;> simp
@[simp] theorem State.countTaken_keeps (a : Arrival) :
    (s.countTaken a).backup.power = s.backup.power ∧ (s.countTaken a).backup.domain = s.backup.domain ∧
    (s.countTaken a).backup.retained.clock = s.backup.retained.clock ∧
    (s.countTaken a).backup.retained.valid = s.backup.retained.valid := by
  simp only [State.countTaken]; (repeat' split) <;> simp

@[simp] theorem State.coverOnset_frame (w : Cover) :
    (s.coverOnset w).pending = s.pending ∧ (s.coverOnset w).reg = s.reg ∧ (s.coverOnset w).cal = s.cal ∧
    (s.coverOnset w).acct = s.acct ∧ (s.coverOnset w).code = s.code ∧ (s.coverOnset w).sup = s.sup ∧
    (s.coverOnset w).life = s.life ∧ (s.coverOnset w).fresh = s.fresh := by
  simp only [State.coverOnset]; (repeat' split) <;> simp
@[simp] theorem State.coverOnset_keeps (w : Cover) :
    (s.coverOnset w).backup.power = s.backup.power ∧ (s.coverOnset w).backup.domain = s.backup.domain ∧
    (s.coverOnset w).backup.retained.clock = s.backup.retained.clock ∧
    (s.coverOnset w).backup.retained.valid = s.backup.retained.valid ∧ (s.coverOnset w).store.recs = s.store.recs ∧
    (s.coverOnset w).store.bad = s.store.bad ∧ (s.coverOnset w).store.unsound = s.store.unsound := by
  simp only [State.coverOnset]; (repeat' split) <;> simp

@[simp] theorem State.endWindow_frame :
    (s.endWindow).pending = s.pending ∧ (s.endWindow).reg = s.reg ∧ (s.endWindow).cal = s.cal ∧
    (s.endWindow).acct = s.acct ∧ (s.endWindow).code = s.code ∧ (s.endWindow).sup = s.sup ∧
    (s.endWindow).fresh = s.fresh := by
  simp only [State.endWindow]; (repeat' split) <;> simp
@[simp] theorem State.endWindow_keeps :
    (s.endWindow).backup.power = s.backup.power ∧ (s.endWindow).backup.domain = s.backup.domain ∧
    (s.endWindow).backup.retained.clock = s.backup.retained.clock ∧
    (s.endWindow).backup.retained.valid = s.backup.retained.valid ∧ (s.endWindow).store.recs = s.store.recs ∧
    (s.endWindow).store.bad = s.store.bad ∧ (s.endWindow).store.unsound = s.store.unsound := by
  simp only [State.endWindow]; (repeat' split) <;> simp

@[simp] theorem State.restartSilence_frame :
    (s.restartSilence).pending = s.pending ∧ (s.restartSilence).backup = s.backup ∧
    (s.restartSilence).store = s.store ∧ (s.restartSilence).reg = s.reg ∧ (s.restartSilence).cal = s.cal ∧
    (s.restartSilence).acct = s.acct ∧ (s.restartSilence).code = s.code ∧ (s.restartSilence).sw = s.sw ∧
    (s.restartSilence).sup = s.sup ∧ (s.restartSilence).tam = s.tam ∧ (s.restartSilence).life = s.life ∧
    (s.restartSilence).fresh = s.fresh := by
  simp only [State.restartSilence]; simp

@[simp] theorem State.endSilence_frame :
    (s.endSilence).pending = s.pending ∧ (s.endSilence).backup = s.backup ∧ (s.endSilence).reg = s.reg ∧
    (s.endSilence).cal = s.cal ∧ (s.endSilence).acct = s.acct ∧ (s.endSilence).code = s.code ∧
    (s.endSilence).sup = s.sup ∧ (s.endSilence).life = s.life ∧ (s.endSilence).fresh = s.fresh := by
  simp only [State.endSilence]; (repeat' split) <;> simp
@[simp] theorem State.endSilence_keeps :
    (s.endSilence).store.recs = s.store.recs ∧ (s.endSilence).store.bad = s.store.bad ∧
    (s.endSilence).store.unsound = s.store.unsound := by
  simp only [State.endSilence]; (repeat' split) <;> simp

@[simp] theorem State.validFrame_frame (k : Byte) (p : List Byte) :
    (s.validFrame k p).pending = s.pending ∧ (s.validFrame k p).backup = s.backup ∧ (s.validFrame k p).reg = s.reg ∧
    (s.validFrame k p).cal = s.cal ∧ (s.validFrame k p).acct = s.acct ∧ (s.validFrame k p).code = s.code ∧
    (s.validFrame k p).sup = s.sup ∧ (s.validFrame k p).life = s.life ∧ (s.validFrame k p).fresh = s.fresh := by
  simp only [State.validFrame]; simp
@[simp] theorem State.validFrame_keeps (k : Byte) (p : List Byte) :
    (s.validFrame k p).store.recs = s.store.recs ∧ (s.validFrame k p).store.bad = s.store.bad ∧
    (s.validFrame k p).store.unsound = s.store.unsound := by
  simp only [State.validFrame]; simp

@[simp] theorem State.requestResidue_frame (v r : Bool) :
    (s.requestResidue v r).pending = s.pending ∧ (s.requestResidue v r).backup = s.backup ∧
    (s.requestResidue v r).reg = s.reg ∧ (s.requestResidue v r).cal = s.cal ∧ (s.requestResidue v r).acct = s.acct ∧
    (s.requestResidue v r).code = s.code ∧ (s.requestResidue v r).sw = s.sw ∧ (s.requestResidue v r).sup = s.sup ∧
    (s.requestResidue v r).tam = s.tam ∧ (s.requestResidue v r).life = s.life ∧ (s.requestResidue v r).link = s.link ∧
    (s.requestResidue v r).fresh = s.fresh := by
  simp only [State.requestResidue]; simp
@[simp] theorem State.requestResidue_keeps (v r : Bool) :
    (s.requestResidue v r).store.recs = s.store.recs ∧ (s.requestResidue v r).store.bad = s.store.bad ∧
    (s.requestResidue v r).store.unsound = s.store.unsound := by
  simp only [State.requestResidue]; simp

@[simp] theorem State.setResult_frame (r : CodeResult) :
    (s.setResult r).pending = s.pending ∧ (s.setResult r).backup = s.backup ∧ (s.setResult r).store = s.store ∧
    (s.setResult r).reg = s.reg ∧ (s.setResult r).cal = s.cal ∧ (s.setResult r).acct = s.acct ∧
    (s.setResult r).sw = s.sw ∧ (s.setResult r).sup = s.sup ∧ (s.setResult r).tam = s.tam ∧
    (s.setResult r).life = s.life ∧ (s.setResult r).link = s.link ∧ (s.setResult r).fresh = s.fresh := by
  simp only [State.setResult]; simp

@[simp] theorem State.endCode_frame (st : Status) (r : CodeResult) :
    (s.endCode st r).pending = s.pending ∧ (s.endCode st r).backup = s.backup ∧ (s.endCode st r).store = s.store ∧
    (s.endCode st r).reg = s.reg ∧ (s.endCode st r).cal = s.cal ∧ (s.endCode st r).acct = s.acct ∧
    (s.endCode st r).sw = s.sw ∧ (s.endCode st r).sup = s.sup ∧ (s.endCode st r).tam = s.tam ∧
    (s.endCode st r).life = s.life := by
  simp only [State.endCode]; simp

@[simp] theorem State.refuseCode_frame (st : Status) (k q : Option Nat) :
    (s.refuseCode st k q).pending = s.pending ∧ (s.refuseCode st k q).backup = s.backup ∧
    (s.refuseCode st k q).store = s.store ∧ (s.refuseCode st k q).reg = s.reg ∧ (s.refuseCode st k q).cal = s.cal ∧
    (s.refuseCode st k q).acct = s.acct ∧ (s.refuseCode st k q).sw = s.sw ∧ (s.refuseCode st k q).sup = s.sup ∧
    (s.refuseCode st k q).tam = s.tam ∧ (s.refuseCode st k q).life = s.life := by
  simp only [State.refuseCode]; simp

@[simp] theorem State.countCode_frame (st : Status) (k q : Option Nat) :
    (s.countCode st k q).pending = s.pending ∧ (s.countCode st k q).backup = s.backup ∧
    (s.countCode st k q).reg = s.reg ∧ (s.countCode st k q).cal = s.cal ∧ (s.countCode st k q).acct = s.acct ∧
    (s.countCode st k q).code = s.code ∧ (s.countCode st k q).sw = s.sw ∧ (s.countCode st k q).sup = s.sup ∧
    (s.countCode st k q).tam = s.tam ∧ (s.countCode st k q).life = s.life ∧ (s.countCode st k q).fresh = s.fresh := by
  simp only [State.countCode]; simp
@[simp] theorem State.countCode_keeps (st : Status) (k q : Option Nat) :
    (s.countCode st k q).store.recs = s.store.recs ∧ (s.countCode st k q).store.bad = s.store.bad ∧
    (s.countCode st k q).store.unsound = s.store.unsound := by
  simp only [State.countCode]; simp

@[simp] theorem State.setDigits_frame (l : List Byte) :
    (s.setDigits l).pending = s.pending ∧ (s.setDigits l).backup = s.backup ∧ (s.setDigits l).store = s.store ∧
    (s.setDigits l).reg = s.reg ∧ (s.setDigits l).cal = s.cal ∧ (s.setDigits l).acct = s.acct ∧
    (s.setDigits l).sw = s.sw ∧ (s.setDigits l).sup = s.sup ∧ (s.setDigits l).tam = s.tam ∧
    (s.setDigits l).life = s.life ∧ (s.setDigits l).link = s.link ∧ (s.setDigits l).fresh = s.fresh := by
  simp only [State.setDigits]; simp

@[simp] theorem State.judgeStuck_frame (b a : List Nat) :
    (s.judgeStuck b a).pending = s.pending ∧ (s.judgeStuck b a).backup = s.backup ∧
    (s.judgeStuck b a).store = s.store ∧ (s.judgeStuck b a).reg = s.reg ∧ (s.judgeStuck b a).cal = s.cal ∧
    (s.judgeStuck b a).acct = s.acct ∧ (s.judgeStuck b a).code = s.code ∧ (s.judgeStuck b a).sw = s.sw ∧
    (s.judgeStuck b a).sup = s.sup ∧ (s.judgeStuck b a).tam = s.tam ∧ (s.judgeStuck b a).fresh = s.fresh := by
  simp only [State.judgeStuck]; (repeat' split) <;> simp
@[simp] theorem State.judgeStuck_keeps (b a : List Nat) :
    (s.judgeStuck b a).life.state = s.life.state ∧ (s.judgeStuck b a).life.window = s.life.window := by
  simp only [State.judgeStuck]; (repeat' split) <;> simp

@[simp] theorem State.acctTakes_frame (r : Registered) :
    (s.acctTakes r).pending = s.pending ∧ (s.acctTakes r).backup = s.backup ∧ (s.acctTakes r).store = s.store ∧
    (s.acctTakes r).reg = s.reg ∧ (s.acctTakes r).cal = s.cal ∧ (s.acctTakes r).code = s.code ∧
    (s.acctTakes r).sw = s.sw ∧ (s.acctTakes r).sup = s.sup ∧ (s.acctTakes r).tam = s.tam ∧
    (s.acctTakes r).life = s.life ∧ (s.acctTakes r).link = s.link ∧ (s.acctTakes r).fresh = s.fresh := by
  simp only [State.acctTakes]; (repeat' split) <;> simp

@[simp] theorem State.trip_frame :
    (s.trip).pending = s.pending ∧ (s.trip).backup = s.backup ∧ (s.trip).reg = s.reg ∧ (s.trip).cal = s.cal ∧
    (s.trip).acct = s.acct ∧ (s.trip).code = s.code ∧ (s.trip).life = s.life ∧ (s.trip).fresh = s.fresh := by
  simp only [State.trip]; simp
@[simp] theorem State.trip_keeps :
    (s.trip).store.recs = s.store.recs ∧ (s.trip).store.bad = s.store.bad ∧
    (s.trip).store.unsound = s.store.unsound := by
  simp only [State.trip]; simp

@[simp] theorem State.superviseBlock_frame (w : SwitchState) (n : Nat) :
    (s.superviseBlock w n).pending = s.pending ∧ (s.superviseBlock w n).backup = s.backup ∧
    (s.superviseBlock w n).reg = s.reg ∧ (s.superviseBlock w n).cal = s.cal ∧ (s.superviseBlock w n).acct = s.acct ∧
    (s.superviseBlock w n).code = s.code ∧ (s.superviseBlock w n).life = s.life ∧
    (s.superviseBlock w n).fresh = s.fresh := by
  simp only [State.superviseBlock]; (repeat' split) <;> simp
@[simp] theorem State.superviseBlock_keeps (w : SwitchState) (n : Nat) :
    (s.superviseBlock w n).store.recs = s.store.recs ∧ (s.superviseBlock w n).store.bad = s.store.bad ∧
    (s.superviseBlock w n).store.unsound = s.store.unsound := by
  simp only [State.superviseBlock]; (repeat' split) <;> simp

@[simp] theorem State.newMinute_frame :
    (s.newMinute).pending = s.pending ∧ (s.newMinute).backup = s.backup ∧ (s.newMinute).reg = s.reg ∧
    (s.newMinute).code = s.code ∧ (s.newMinute).sup = s.sup ∧ (s.newMinute).life = s.life ∧
    (s.newMinute).fresh = s.fresh := by
  simp only [State.newMinute]; (repeat' split) <;> simp
@[simp] theorem State.newMinute_keeps :
    (s.newMinute).store.recs = s.store.recs ∧ (s.newMinute).store.bad = s.store.bad ∧
    (s.newMinute).store.unsound = s.store.unsound := by
  simp only [State.newMinute]; (repeat' split) <;> simp

@[simp] theorem State.takeInto_frame (rest : List Entry) (p : Purpose) :
    (s.takeInto rest p).pending = s.pending ∧ (s.takeInto rest p).backup = s.backup ∧
    (s.takeInto rest p).reg = s.reg ∧ (s.takeInto rest p).cal = s.cal ∧ (s.takeInto rest p).code = s.code ∧
    (s.takeInto rest p).sw = s.sw ∧ (s.takeInto rest p).sup = s.sup ∧ (s.takeInto rest p).tam = s.tam ∧
    (s.takeInto rest p).life = s.life ∧ (s.takeInto rest p).link = s.link ∧ (s.takeInto rest p).fresh = s.fresh := by
  simp only [State.takeInto]; simp
@[simp] theorem State.takeInto_keeps (rest : List Entry) (p : Purpose) :
    (s.takeInto rest p).store.recs = s.store.recs ∧ (s.takeInto rest p).store.bad = s.store.bad ∧
    (s.takeInto rest p).store.unsound = s.store.unsound := by
  simp only [State.takeInto]; simp

@[simp] theorem State.activate_frame :
    (s.activate).pending = s.pending ∧ (s.activate).backup = s.backup ∧ (s.activate).reg = s.reg ∧
    (s.activate).cal = s.cal ∧ (s.activate).acct = s.acct ∧ (s.activate).code = s.code ∧ (s.activate).sw = s.sw ∧
    (s.activate).sup = s.sup ∧ (s.activate).tam = s.tam ∧ (s.activate).life = s.life ∧ (s.activate).link = s.link ∧
    (s.activate).fresh = s.fresh := by
  simp only [State.activate]; (repeat' split) <;> simp
@[simp] theorem State.activate_keeps :
    (s.activate).store.recs = s.store.recs ∧ (s.activate).store.bad = s.store.bad ∧
    (s.activate).store.unsound = s.store.unsound := by
  simp only [State.activate]; (repeat' split) <;> simp

@[simp] theorem State.lockoutReached_frame :
    (s.lockoutReached).pending = s.pending ∧ (s.lockoutReached).backup = s.backup ∧ (s.lockoutReached).reg = s.reg ∧
    (s.lockoutReached).cal = s.cal ∧ (s.lockoutReached).acct = s.acct ∧ (s.lockoutReached).code = s.code ∧
    (s.lockoutReached).sw = s.sw ∧ (s.lockoutReached).sup = s.sup ∧ (s.lockoutReached).tam = s.tam ∧
    (s.lockoutReached).life = s.life ∧ (s.lockoutReached).link = s.link ∧ (s.lockoutReached).fresh = s.fresh := by
  simp only [State.lockoutReached]; (repeat' split) <;> simp
@[simp] theorem State.lockoutReached_keeps :
    (s.lockoutReached).store.recs = s.store.recs ∧ (s.lockoutReached).store.bad = s.store.bad ∧
    (s.lockoutReached).store.unsound = s.store.unsound := by
  simp only [State.lockoutReached]; (repeat' split) <;> simp

@[simp] theorem State.backoffTest_frame :
    (s.backoffTest).pending = s.pending ∧ (s.backoffTest).backup = s.backup ∧ (s.backoffTest).reg = s.reg ∧
    (s.backoffTest).cal = s.cal ∧ (s.backoffTest).acct = s.acct ∧ (s.backoffTest).code = s.code ∧
    (s.backoffTest).life = s.life ∧ (s.backoffTest).fresh = s.fresh := by
  simp only [State.backoffTest]; (repeat' split) <;> simp
@[simp] theorem State.backoffTest_keeps :
    (s.backoffTest).store.recs = s.store.recs ∧ (s.backoffTest).store.bad = s.store.bad ∧
    (s.backoffTest).store.unsound = s.store.unsound := by
  simp only [State.backoffTest]; (repeat' split) <;> simp

@[simp] theorem State.backoffReached_frame :
    (s.backoffReached).pending = s.pending ∧ (s.backoffReached).backup = s.backup ∧ (s.backoffReached).reg = s.reg ∧
    (s.backoffReached).cal = s.cal ∧ (s.backoffReached).acct = s.acct ∧ (s.backoffReached).code = s.code ∧
    (s.backoffReached).life = s.life ∧ (s.backoffReached).fresh = s.fresh := by
  simp only [State.backoffReached]; (repeat' split) <;> simp
@[simp] theorem State.backoffReached_keeps :
    (s.backoffReached).store.recs = s.store.recs ∧ (s.backoffReached).store.bad = s.store.bad ∧
    (s.backoffReached).store.unsound = s.store.unsound := by
  simp only [State.backoffReached]; (repeat' split) <;> simp

@[simp] theorem State.clockTests_frame :
    (s.clockTests).pending = s.pending ∧ (s.clockTests).backup = s.backup ∧ (s.clockTests).reg = s.reg ∧
    (s.clockTests).code = s.code ∧ (s.clockTests).life = s.life ∧ (s.clockTests).fresh = s.fresh := by
  simp only [State.clockTests]; simp
@[simp] theorem State.clockTests_keeps :
    (s.clockTests).store.recs = s.store.recs ∧ (s.clockTests).store.bad = s.store.bad ∧
    (s.clockTests).store.unsound = s.store.unsound := by
  simp only [State.clockTests]; simp

/-- Notices of evidence made pending one after the other. -/
@[simp] theorem State.notifyAll_frame {α : Type} (g : α → EvClass) (l : List α) :
    (l.foldl (fun x a => x.notifyEvidence (g a)) s).pending = s.pending ∧
    (l.foldl (fun x a => x.notifyEvidence (g a)) s).backup = s.backup ∧
    (l.foldl (fun x a => x.notifyEvidence (g a)) s).store = s.store ∧
    (l.foldl (fun x a => x.notifyEvidence (g a)) s).reg = s.reg ∧
    (l.foldl (fun x a => x.notifyEvidence (g a)) s).cal = s.cal ∧
    (l.foldl (fun x a => x.notifyEvidence (g a)) s).acct = s.acct ∧
    (l.foldl (fun x a => x.notifyEvidence (g a)) s).code = s.code ∧
    (l.foldl (fun x a => x.notifyEvidence (g a)) s).sw = s.sw ∧
    (l.foldl (fun x a => x.notifyEvidence (g a)) s).sup = s.sup ∧
    (l.foldl (fun x a => x.notifyEvidence (g a)) s).tam = s.tam ∧
    (l.foldl (fun x a => x.notifyEvidence (g a)) s).life = s.life ∧
    (l.foldl (fun x a => x.notifyEvidence (g a)) s).fresh = s.fresh := by
  induction l generalizing s with
  | nil => simp
  | cons a l ih => simpa using ih (s.notifyEvidence (g a))

/-- In MAINS no cover slot counts (R171). -/
theorem State.countTaken_mains (a : Arrival) (h : s.holdup = false) : s.countTaken a = s := by simp [State.countTaken, h]

/-- What taking the arrivals held back leaves as it was. -/
theorem State.takeAll_frame (l : List Arrival) :
    let t := l.foldl (fun x a => (x.countTaken a).takeArrival a) s
    t.pending = s.pending ∧ t.reg = s.reg ∧ t.cal = s.cal ∧ t.acct = s.acct ∧ t.code = s.code ∧ t.sup = s.sup ∧
    t.life = s.life ∧ t.fresh = s.fresh ∧ t.store.recs = s.store.recs ∧ t.store.bad = s.store.bad ∧
    t.store.unsound = s.store.unsound ∧ t.backup.power = s.backup.power ∧ t.backup.domain = s.backup.domain ∧
    t.backup.retained.clock = s.backup.retained.clock ∧ t.backup.retained.valid = s.backup.retained.valid ∧
    (s.holdup = false → t.backup = s.backup) := by
  induction l generalizing s with
  | nil => simp
  | cons a l ih =>
    have h := ih ((s.countTaken a).takeArrival a)
    refine ⟨?_, ?_, ?_, ?_, ?_, ?_, ?_, ?_, ?_, ?_, ?_, ?_, ?_, ?_, ?_, fun hm => ?_⟩
    case refine_16 =>
      rw [State.countTaken_mains s a hm] at h
      simpa [State.countTaken_mains s a hm] using h.2.2.2.2.2.2.2.2.2.2.2.2.2.2.2 (by simpa [State.holdup] using hm)
    all_goals simp_all

@[simp] theorem State.releaseHeld_frame :
    s.releaseHeld.pending = s.pending ∧ s.releaseHeld.reg = s.reg ∧ s.releaseHeld.cal = s.cal ∧
    s.releaseHeld.acct = s.acct ∧ s.releaseHeld.code = s.code ∧ s.releaseHeld.sup = s.sup ∧
    s.releaseHeld.life = s.life ∧ s.releaseHeld.fresh = s.fresh := by
  have h := State.takeAll_frame (s.onTam fun t => { t with clearing := [], entryHold := false, heldBack := [] }) s.tam.heldBack
  simp_all [State.releaseHeld]
@[simp] theorem State.releaseHeld_keeps :
    s.releaseHeld.store.recs = s.store.recs ∧ s.releaseHeld.store.bad = s.store.bad ∧
    s.releaseHeld.store.unsound = s.store.unsound ∧ s.releaseHeld.backup.power = s.backup.power ∧
    s.releaseHeld.backup.domain = s.backup.domain ∧
    s.releaseHeld.backup.retained.clock = s.backup.retained.clock ∧
    s.releaseHeld.backup.retained.valid = s.backup.retained.valid := by
  have h := State.takeAll_frame (s.onTam fun t => { t with clearing := [], entryHold := false, heldBack := [] }) s.tam.heldBack
  simp_all [State.releaseHeld]
theorem State.releaseHeld_mains (h : s.holdup = false) : s.releaseHeld.backup = s.backup := by
  have k := State.takeAll_frame (s.onTam fun t => { t with clearing := [], entryHold := false, heldBack := [] }) s.tam.heldBack
  simpa [State.releaseHeld] using k.2.2.2.2.2.2.2.2.2.2.2.2.2.2.2 (by simpa [State.holdup] using h)

end Sys2Proof.Machine
end

