-- ==== Sys2Proof/Laws/Steps.lean ====
section
/-! SUPPORT. What each command's own operation leaves as it was (op_frame), and what it keeps of the parts it touches (op_keeps).
The same for what each completed write brings about. -/

namespace Sys2Proof.Machine

variable (s : State)

@[simp] theorem State.register_frame (b : BlockResult) (mag : Bool) :
    (s.register b mag).pending = s.pending ∧ (s.register b mag).backup = s.backup ∧ (s.register b mag).cal = s.cal ∧
    (s.register b mag).code = s.code ∧ (s.register b mag).fresh = s.fresh := by
  simp only [State.register]; simp
@[simp] theorem State.register_keeps (b : BlockResult) (mag : Bool) :
    (s.register b mag).life.state = s.life.state ∧ (s.register b mag).life.window = s.life.window ∧
    (s.register b mag).store.recs = s.store.recs ∧ (s.register b mag).store.bad = s.store.bad ∧
    (s.register b mag).store.unsound = s.store.unsound := by
  simp only [State.register]; simp

@[simp] theorem State.blockDone_frame (l : List SampleSet) (mag : Bool) :
    (s.blockDone l mag).pending = s.pending ∧ (s.blockDone l mag).backup = s.backup ∧
    (s.blockDone l mag).cal = s.cal ∧ (s.blockDone l mag).code = s.code ∧ (s.blockDone l mag).fresh = s.fresh := by
  simp only [State.blockDone]; (repeat' split) <;> simp
@[simp] theorem State.blockDone_keeps (l : List SampleSet) (mag : Bool) :
    (s.blockDone l mag).life.state = s.life.state ∧ (s.blockDone l mag).life.window = s.life.window ∧
    (s.blockDone l mag).store.recs = s.store.recs ∧ (s.blockDone l mag).store.bad = s.store.bad ∧
    (s.blockDone l mag).store.unsound = s.store.unsound := by
  simp only [State.blockDone]; (repeat' split) <;> simp

@[simp] theorem State.chargeHead_frame :
    (s.chargeHead).pending = s.pending ∧ (s.chargeHead).backup = s.backup ∧ (s.chargeHead).reg = s.reg ∧
    (s.chargeHead).cal = s.cal ∧ (s.chargeHead).code = s.code ∧ (s.chargeHead).sw = s.sw ∧
    (s.chargeHead).sup = s.sup ∧ (s.chargeHead).tam = s.tam ∧ (s.chargeHead).life = s.life ∧
    (s.chargeHead).link = s.link ∧ (s.chargeHead).fresh = s.fresh := by
  simp only [State.chargeHead]; (repeat' split) <;> simp
@[simp] theorem State.chargeHead_keeps :
    (s.chargeHead).store.recs = s.store.recs ∧ (s.chargeHead).store.bad = s.store.bad ∧
    (s.chargeHead).store.unsound = s.store.unsound := by
  simp only [State.chargeHead]; (repeat' split) <;> simp

@[simp] theorem State.writePending_frame :
    (s.writePending).pending = s.pending ∧ (s.writePending).backup = s.backup ∧ (s.writePending).reg = s.reg ∧
    (s.writePending).cal = s.cal ∧ (s.writePending).code = s.code ∧ (s.writePending).sw = s.sw ∧
    (s.writePending).sup = s.sup ∧ (s.writePending).tam = s.tam ∧ (s.writePending).life = s.life ∧
    (s.writePending).link = s.link ∧ (s.writePending).fresh = s.fresh := by
  simp only [State.writePending]; (repeat' split) <;> simp
@[simp] theorem State.writePending_keeps :
    (s.writePending).store.recs = s.store.recs ∧ (s.writePending).store.bad = s.store.bad ∧
    (s.writePending).store.unsound = s.store.unsound := by
  simp only [State.writePending]; (repeat' split) <;> simp

@[simp] theorem State.takeBoundary_frame :
    (s.takeBoundary).pending = s.pending ∧ (s.takeBoundary).backup = s.backup ∧ (s.takeBoundary).reg = s.reg ∧
    (s.takeBoundary).cal = s.cal ∧ (s.takeBoundary).code = s.code ∧ (s.takeBoundary).sw = s.sw ∧
    (s.takeBoundary).sup = s.sup ∧ (s.takeBoundary).tam = s.tam ∧ (s.takeBoundary).life = s.life ∧
    (s.takeBoundary).link = s.link ∧ (s.takeBoundary).fresh = s.fresh := by
  simp only [State.takeBoundary]; (repeat' split) <;> simp
@[simp] theorem State.takeBoundary_keeps :
    (s.takeBoundary).store.recs = s.store.recs ∧ (s.takeBoundary).store.bad = s.store.bad ∧
    (s.takeBoundary).store.unsound = s.store.unsound := by
  simp only [State.takeBoundary]; (repeat' split) <;> simp

@[simp] theorem State.takeAdoption_frame :
    (s.takeAdoption).pending = s.pending ∧ (s.takeAdoption).backup = s.backup ∧ (s.takeAdoption).reg = s.reg ∧
    (s.takeAdoption).cal = s.cal ∧ (s.takeAdoption).code = s.code ∧ (s.takeAdoption).sw = s.sw ∧
    (s.takeAdoption).sup = s.sup ∧ (s.takeAdoption).tam = s.tam ∧ (s.takeAdoption).life = s.life ∧
    (s.takeAdoption).link = s.link ∧ (s.takeAdoption).fresh = s.fresh := by
  simp only [State.takeAdoption]; (repeat' split) <;> simp
@[simp] theorem State.takeAdoption_keeps :
    (s.takeAdoption).store.recs = s.store.recs ∧ (s.takeAdoption).store.bad = s.store.bad ∧
    (s.takeAdoption).store.unsound = s.store.unsound := by
  simp only [State.takeAdoption]; (repeat' split) <;> simp

@[simp] theorem State.takeCode_frame :
    (s.takeCode).pending = s.pending ∧ (s.takeCode).backup = s.backup ∧ (s.takeCode).reg = s.reg ∧
    (s.takeCode).cal = s.cal ∧ (s.takeCode).sw = s.sw ∧ (s.takeCode).sup = s.sup ∧ (s.takeCode).tam = s.tam ∧
    (s.takeCode).life = s.life := by
  simp only [State.takeCode]; (repeat' split) <;> simp
@[simp] theorem State.takeCode_keeps :
    (s.takeCode).store.recs = s.store.recs ∧ (s.takeCode).store.bad = s.store.bad ∧
    (s.takeCode).store.unsound = s.store.unsound := by
  simp only [State.takeCode]; (repeat' split) <;> simp

@[simp] theorem State.examineEmergency_frame :
    (s.examineEmergency).pending = s.pending ∧ (s.examineEmergency).backup = s.backup ∧
    (s.examineEmergency).store = s.store ∧ (s.examineEmergency).reg = s.reg ∧ (s.examineEmergency).cal = s.cal ∧
    (s.examineEmergency).code = s.code ∧ (s.examineEmergency).sw = s.sw ∧ (s.examineEmergency).sup = s.sup ∧
    (s.examineEmergency).tam = s.tam ∧ (s.examineEmergency).life = s.life := by
  simp only [State.examineEmergency]; (repeat' split) <;> simp

@[simp] theorem State.takeEmergency_frame :
    (s.takeEmergency).pending = s.pending ∧ (s.takeEmergency).backup = s.backup ∧ (s.takeEmergency).reg = s.reg ∧
    (s.takeEmergency).cal = s.cal ∧ (s.takeEmergency).code = s.code ∧ (s.takeEmergency).sw = s.sw ∧
    (s.takeEmergency).sup = s.sup ∧ (s.takeEmergency).tam = s.tam ∧ (s.takeEmergency).life = s.life := by
  simp only [State.takeEmergency]; (repeat' split) <;> simp
@[simp] theorem State.takeEmergency_keeps :
    (s.takeEmergency).store.recs = s.store.recs ∧ (s.takeEmergency).store.bad = s.store.bad ∧
    (s.takeEmergency).store.unsound = s.store.unsound := by
  simp only [State.takeEmergency]; (repeat' split) <;> simp

@[simp] theorem State.takeEntry_frame :
    (s.takeEntry).pending = s.pending ∧ (s.takeEntry).backup = s.backup ∧ (s.takeEntry).reg = s.reg ∧
    (s.takeEntry).cal = s.cal ∧ (s.takeEntry).code = s.code ∧ (s.takeEntry).sw = s.sw ∧ (s.takeEntry).sup = s.sup ∧
    (s.takeEntry).tam = s.tam ∧ (s.takeEntry).life = s.life ∧ (s.takeEntry).link = s.link ∧
    (s.takeEntry).fresh = s.fresh := by
  simp only [State.takeEntry]; (repeat' split) <;> simp
@[simp] theorem State.takeEntry_keeps :
    (s.takeEntry).store.recs = s.store.recs ∧ (s.takeEntry).store.bad = s.store.bad ∧
    (s.takeEntry).store.unsound = s.store.unsound := by
  simp only [State.takeEntry]; (repeat' split) <;> simp

@[simp] theorem State.setClock_frame (n : Nat) :
    (s.setClock n).pending = s.pending ∧ (s.setClock n).store = s.store ∧ (s.setClock n).reg = s.reg ∧
    (s.setClock n).cal = s.cal ∧ (s.setClock n).acct = s.acct ∧ (s.setClock n).code = s.code ∧
    (s.setClock n).sw = s.sw ∧ (s.setClock n).sup = s.sup ∧ (s.setClock n).tam = s.tam ∧
    (s.setClock n).life = s.life ∧ (s.setClock n).link = s.link ∧ (s.setClock n).fresh = s.fresh := by
  simp only [State.setClock]; simp

@[simp] theorem State.secondPasses_frame :
    (s.secondPasses).pending = s.pending ∧ (s.secondPasses).reg = s.reg ∧ (s.secondPasses).code = s.code ∧
    (s.secondPasses).life = s.life ∧ (s.secondPasses).fresh = s.fresh := by
  simp only [State.secondPasses]; (repeat' split) <;> simp
@[simp] theorem State.secondPasses_keeps :
    (s.secondPasses).store.recs = s.store.recs ∧ (s.secondPasses).store.bad = s.store.bad ∧
    (s.secondPasses).store.unsound = s.store.unsound := by
  simp only [State.secondPasses]; (repeat' split) <;> simp

@[simp] theorem State.takeSetTime_frame (v : Nat) (d : Option Nat) :
    (s.takeSetTime v d).pending = s.pending ∧ (s.takeSetTime v d).backup = s.backup ∧
    (s.takeSetTime v d).reg = s.reg ∧ (s.takeSetTime v d).cal = s.cal ∧ (s.takeSetTime v d).acct = s.acct ∧
    (s.takeSetTime v d).code = s.code ∧ (s.takeSetTime v d).sw = s.sw ∧ (s.takeSetTime v d).sup = s.sup ∧
    (s.takeSetTime v d).tam = s.tam ∧ (s.takeSetTime v d).life = s.life ∧ (s.takeSetTime v d).fresh = s.fresh := by
  simp only [State.takeSetTime]; simp
@[simp] theorem State.takeSetTime_keeps (v : Nat) (d : Option Nat) :
    (s.takeSetTime v d).store.recs = s.store.recs ∧ (s.takeSetTime v d).store.bad = s.store.bad ∧
    (s.takeSetTime v d).store.unsound = s.store.unsound := by
  simp only [State.takeSetTime]; simp

@[simp] theorem State.refuseSetTime_frame (v : Nat) :
    (s.refuseSetTime v).pending = s.pending ∧ (s.refuseSetTime v).backup = s.backup ∧
    (s.refuseSetTime v).reg = s.reg ∧ (s.refuseSetTime v).cal = s.cal ∧ (s.refuseSetTime v).acct = s.acct ∧
    (s.refuseSetTime v).code = s.code ∧ (s.refuseSetTime v).sw = s.sw ∧ (s.refuseSetTime v).sup = s.sup ∧
    (s.refuseSetTime v).life = s.life := by
  simp only [State.refuseSetTime]; simp
@[simp] theorem State.refuseSetTime_keeps (v : Nat) :
    (s.refuseSetTime v).store.recs = s.store.recs ∧ (s.refuseSetTime v).store.bad = s.store.bad ∧
    (s.refuseSetTime v).store.unsound = s.store.unsound := by
  simp only [State.refuseSetTime]; simp

@[simp] theorem State.examineSetTime_frame (v : Nat) :
    (s.examineSetTime v).pending = s.pending ∧ (s.examineSetTime v).backup = s.backup ∧
    (s.examineSetTime v).reg = s.reg ∧ (s.examineSetTime v).cal = s.cal ∧ (s.examineSetTime v).acct = s.acct ∧
    (s.examineSetTime v).code = s.code ∧ (s.examineSetTime v).sw = s.sw ∧ (s.examineSetTime v).sup = s.sup ∧
    (s.examineSetTime v).life = s.life := by
  simp only [State.examineSetTime]; (repeat' split) <;> simp
@[simp] theorem State.examineSetTime_keeps (v : Nat) :
    (s.examineSetTime v).store.recs = s.store.recs ∧ (s.examineSetTime v).store.bad = s.store.bad ∧
    (s.examineSetTime v).store.unsound = s.store.unsound := by
  simp only [State.examineSetTime]; (repeat' split) <;> simp

@[simp] theorem State.clockSet_frame (v : Nat) :
    (s.clockSet v).pending = s.pending ∧ (s.clockSet v).store = s.store ∧ (s.clockSet v).reg = s.reg ∧
    (s.clockSet v).cal = s.cal ∧ (s.clockSet v).acct = s.acct ∧ (s.clockSet v).code = s.code ∧
    (s.clockSet v).sw = s.sw ∧ (s.clockSet v).sup = s.sup ∧ (s.clockSet v).tam = s.tam ∧
    (s.clockSet v).fresh = s.fresh := by
  simp only [State.clockSet]; simp
@[simp] theorem State.clockSet_keeps (v : Nat) :
    (s.clockSet v).life.state = s.life.state ∧ (s.clockSet v).life.window = s.life.window := by
  simp only [State.clockSet]; simp

@[simp] theorem State.takeClearTamper_frame (m q : Nat) :
    (s.takeClearTamper m q).pending = s.pending ∧ (s.takeClearTamper m q).backup = s.backup ∧
    (s.takeClearTamper m q).reg = s.reg ∧ (s.takeClearTamper m q).cal = s.cal ∧
    (s.takeClearTamper m q).acct = s.acct ∧ (s.takeClearTamper m q).code = s.code ∧
    (s.takeClearTamper m q).sw = s.sw ∧ (s.takeClearTamper m q).sup = s.sup ∧ (s.takeClearTamper m q).life = s.life ∧
    (s.takeClearTamper m q).fresh = s.fresh := by
  simp only [State.takeClearTamper]; simp
@[simp] theorem State.takeClearTamper_keeps (m q : Nat) :
    (s.takeClearTamper m q).store.recs = s.store.recs ∧ (s.takeClearTamper m q).store.bad = s.store.bad ∧
    (s.takeClearTamper m q).store.unsound = s.store.unsound := by
  simp only [State.takeClearTamper]; simp

@[simp] theorem State.handEffect_frame (k q a : Nat) :
    (s.handEffect k q a).pending = s.pending ∧ (s.handEffect k q a).backup = s.backup ∧
    (s.handEffect k q a).reg = s.reg ∧ (s.handEffect k q a).cal = s.cal ∧ (s.handEffect k q a).code = s.code ∧
    (s.handEffect k q a).sw = s.sw ∧ (s.handEffect k q a).sup = s.sup ∧ (s.handEffect k q a).life = s.life ∧
    (s.handEffect k q a).fresh = s.fresh := by
  simp only [State.handEffect]; (repeat' split) <;> simp
@[simp] theorem State.handEffect_keeps (k q a : Nat) :
    (s.handEffect k q a).store.recs = s.store.recs ∧ (s.handEffect k q a).store.bad = s.store.bad ∧
    (s.handEffect k q a).store.unsound = s.store.unsound := by
  simp only [State.handEffect]; (repeat' split) <;> simp

@[simp] theorem State.examineWord_frame (u : Nat) :
    (s.examineWord u).pending = s.pending ∧ (s.examineWord u).backup = s.backup ∧ (s.examineWord u).reg = s.reg ∧
    (s.examineWord u).cal = s.cal ∧ (s.examineWord u).sw = s.sw ∧ (s.examineWord u).sup = s.sup ∧
    (s.examineWord u).life = s.life := by
  simp only [State.examineWord]; (repeat' split) <;> simp
@[simp] theorem State.examineWord_keeps (u : Nat) :
    (s.examineWord u).store.recs = s.store.recs ∧ (s.examineWord u).store.bad = s.store.bad ∧
    (s.examineWord u).store.unsound = s.store.unsound := by
  simp only [State.examineWord]; (repeat' split) <;> simp

@[simp] theorem State.submit_frame (l : List Byte) :
    (s.submit l).pending = s.pending ∧ (s.submit l).backup = s.backup ∧ (s.submit l).reg = s.reg ∧
    (s.submit l).cal = s.cal ∧ (s.submit l).sw = s.sw ∧ (s.submit l).sup = s.sup ∧ (s.submit l).life = s.life := by
  simp only [State.submit]; (repeat' split) <;> simp
@[simp] theorem State.submit_keeps (l : List Byte) :
    (s.submit l).store.recs = s.store.recs ∧ (s.submit l).store.bad = s.store.bad ∧
    (s.submit l).store.unsound = s.store.unsound := by
  simp only [State.submit]; (repeat' split) <;> simp

@[simp] theorem State.answerDigits_frame (st : Status) :
    (s.answerDigits st).pending = s.pending ∧ (s.answerDigits st).backup = s.backup ∧
    (s.answerDigits st).store = s.store ∧ (s.answerDigits st).reg = s.reg ∧ (s.answerDigits st).cal = s.cal ∧
    (s.answerDigits st).acct = s.acct ∧ (s.answerDigits st).code = s.code ∧ (s.answerDigits st).sw = s.sw ∧
    (s.answerDigits st).sup = s.sup ∧ (s.answerDigits st).tam = s.tam ∧ (s.answerDigits st).life = s.life := by
  simp only [State.answerDigits]; simp

@[simp] theorem State.keyDigit_frame (k : Byte) :
    (s.keyDigit k).pending = s.pending ∧ (s.keyDigit k).backup = s.backup ∧ (s.keyDigit k).store = s.store ∧
    (s.keyDigit k).reg = s.reg ∧ (s.keyDigit k).cal = s.cal ∧ (s.keyDigit k).acct = s.acct ∧
    (s.keyDigit k).sw = s.sw ∧ (s.keyDigit k).sup = s.sup ∧ (s.keyDigit k).tam = s.tam ∧
    (s.keyDigit k).life = s.life := by
  simp only [State.keyDigit]; (repeat' split) <;> simp

@[simp] theorem State.keyClear_frame :
    (s.keyClear).pending = s.pending ∧ (s.keyClear).backup = s.backup ∧ (s.keyClear).store = s.store ∧
    (s.keyClear).reg = s.reg ∧ (s.keyClear).cal = s.cal ∧ (s.keyClear).acct = s.acct ∧ (s.keyClear).sw = s.sw ∧
    (s.keyClear).sup = s.sup ∧ (s.keyClear).tam = s.tam ∧ (s.keyClear).life = s.life := by
  simp only [State.keyClear]; simp

@[simp] theorem State.keyBack_frame :
    (s.keyBack).pending = s.pending ∧ (s.keyBack).backup = s.backup ∧ (s.keyBack).store = s.store ∧
    (s.keyBack).reg = s.reg ∧ (s.keyBack).cal = s.cal ∧ (s.keyBack).acct = s.acct ∧ (s.keyBack).sw = s.sw ∧
    (s.keyBack).sup = s.sup ∧ (s.keyBack).tam = s.tam ∧ (s.keyBack).life = s.life := by
  simp only [State.keyBack]; simp

@[simp] theorem State.keyEnter_frame :
    (s.keyEnter).pending = s.pending ∧ (s.keyEnter).backup = s.backup ∧ (s.keyEnter).reg = s.reg ∧
    (s.keyEnter).cal = s.cal ∧ (s.keyEnter).sw = s.sw ∧ (s.keyEnter).sup = s.sup ∧ (s.keyEnter).life = s.life := by
  simp only [State.keyEnter]; (repeat' split) <;> simp
@[simp] theorem State.keyEnter_keeps :
    (s.keyEnter).store.recs = s.store.recs ∧ (s.keyEnter).store.bad = s.store.bad ∧
    (s.keyEnter).store.unsound = s.store.unsound := by
  simp only [State.keyEnter]; (repeat' split) <;> simp

@[simp] theorem State.examineKey_frame (k : Byte) :
    (s.examineKey k).pending = s.pending ∧ (s.examineKey k).backup = s.backup ∧ (s.examineKey k).reg = s.reg ∧
    (s.examineKey k).cal = s.cal ∧ (s.examineKey k).sw = s.sw ∧ (s.examineKey k).sup = s.sup ∧
    (s.examineKey k).life = s.life := by
  simp only [State.examineKey]; (repeat' split) <;> simp
@[simp] theorem State.examineKey_keeps (k : Byte) :
    (s.examineKey k).store.recs = s.store.recs ∧ (s.examineKey k).store.bad = s.store.bad ∧
    (s.examineKey k).store.unsound = s.store.unsound := by
  simp only [State.examineKey]; (repeat' split) <;> simp

@[simp] theorem State.pauseExpires_frame :
    (s.pauseExpires).pending = s.pending ∧ (s.pauseExpires).backup = s.backup ∧ (s.pauseExpires).store = s.store ∧
    (s.pauseExpires).reg = s.reg ∧ (s.pauseExpires).cal = s.cal ∧ (s.pauseExpires).acct = s.acct ∧
    (s.pauseExpires).sw = s.sw ∧ (s.pauseExpires).sup = s.sup ∧ (s.pauseExpires).tam = s.tam ∧
    (s.pauseExpires).life = s.life ∧ (s.pauseExpires).fresh = s.fresh := by
  simp only [State.pauseExpires]; (repeat' split) <;> simp

@[simp] theorem State.examineEnter_frame (l : List Byte) :
    (s.examineEnter l).pending = s.pending ∧ (s.examineEnter l).backup = s.backup ∧ (s.examineEnter l).reg = s.reg ∧
    (s.examineEnter l).cal = s.cal ∧ (s.examineEnter l).sw = s.sw ∧ (s.examineEnter l).sup = s.sup ∧
    (s.examineEnter l).life = s.life := by
  simp only [State.examineEnter]; (repeat' split) <;> simp
@[simp] theorem State.examineEnter_keeps (l : List Byte) :
    (s.examineEnter l).store.recs = s.store.recs ∧ (s.examineEnter l).store.bad = s.store.bad ∧
    (s.examineEnter l).store.unsound = s.store.unsound := by
  simp only [State.examineEnter]; (repeat' split) <;> simp

@[simp] theorem State.attackBegins_frame :
    (s.attackBegins).pending = s.pending ∧ (s.attackBegins).backup = s.backup ∧ (s.attackBegins).reg = s.reg ∧
    (s.attackBegins).cal = s.cal ∧ (s.attackBegins).acct = s.acct ∧ (s.attackBegins).code = s.code ∧
    (s.attackBegins).sup = s.sup ∧ (s.attackBegins).life = s.life ∧ (s.attackBegins).fresh = s.fresh := by
  simp only [State.attackBegins]; (repeat' split) <;> simp
@[simp] theorem State.attackBegins_keeps :
    (s.attackBegins).store.recs = s.store.recs ∧ (s.attackBegins).store.bad = s.store.bad ∧
    (s.attackBegins).store.unsound = s.store.unsound := by
  simp only [State.attackBegins]; (repeat' split) <;> simp

@[simp] theorem State.openWindow_frame (m q : Nat) :
    (s.openWindow m q).pending = s.pending ∧ (s.openWindow m q).backup = s.backup ∧
    (s.openWindow m q).store = s.store ∧ (s.openWindow m q).reg = s.reg ∧ (s.openWindow m q).cal = s.cal ∧
    (s.openWindow m q).acct = s.acct ∧ (s.openWindow m q).code = s.code ∧ (s.openWindow m q).sw = s.sw ∧
    (s.openWindow m q).sup = s.sup ∧ (s.openWindow m q).tam = s.tam ∧ (s.openWindow m q).fresh = s.fresh := by
  simp only [State.openWindow]; (repeat' split) <;> simp

@[simp] theorem State.startPulse_frame :
    (s.startPulse).pending = s.pending ∧ (s.startPulse).backup = s.backup ∧ (s.startPulse).store = s.store ∧
    (s.startPulse).reg = s.reg ∧ (s.startPulse).cal = s.cal ∧ (s.startPulse).acct = s.acct ∧
    (s.startPulse).code = s.code ∧ (s.startPulse).sup = s.sup ∧ (s.startPulse).tam = s.tam ∧
    (s.startPulse).life = s.life ∧ (s.startPulse).link = s.link ∧ (s.startPulse).fresh = s.fresh := by
  simp only [State.startPulse]; (repeat' split) <;> simp

@[simp] theorem State.endBlanking_frame :
    (s.endBlanking).pending = s.pending ∧ (s.endBlanking).backup = s.backup ∧ (s.endBlanking).store = s.store ∧
    (s.endBlanking).reg = s.reg ∧ (s.endBlanking).cal = s.cal ∧ (s.endBlanking).acct = s.acct ∧
    (s.endBlanking).code = s.code ∧ (s.endBlanking).sup = s.sup ∧ (s.endBlanking).tam = s.tam ∧
    (s.endBlanking).life = s.life ∧ (s.endBlanking).link = s.link ∧ (s.endBlanking).fresh = s.fresh := by
  simp only [State.endBlanking]; (repeat' split) <;> simp

@[simp] theorem State.lsChanges_frame (ls : Tri Bool) (ms : Nat) :
    (s.lsChanges ls ms).pending = s.pending ∧ (s.lsChanges ls ms).backup = s.backup ∧
    (s.lsChanges ls ms).reg = s.reg ∧ (s.lsChanges ls ms).cal = s.cal ∧ (s.lsChanges ls ms).acct = s.acct ∧
    (s.lsChanges ls ms).code = s.code ∧ (s.lsChanges ls ms).sup = s.sup ∧ (s.lsChanges ls ms).fresh = s.fresh := by
  simp only [State.lsChanges]; (repeat' split) <;> simp
@[simp] theorem State.lsChanges_keeps (ls : Tri Bool) (ms : Nat) :
    (s.lsChanges ls ms).life.state = s.life.state ∧ (s.lsChanges ls ms).life.window = s.life.window ∧
    (s.lsChanges ls ms).store.recs = s.store.recs ∧ (s.lsChanges ls ms).store.bad = s.store.bad ∧
    (s.lsChanges ls ms).store.unsound = s.store.unsound := by
  simp only [State.lsChanges]; (repeat' split) <;> simp

@[simp] theorem State.confirm_frame :
    (s.confirm).pending = s.pending ∧ (s.confirm).backup = s.backup ∧ (s.confirm).reg = s.reg ∧
    (s.confirm).cal = s.cal ∧ (s.confirm).acct = s.acct ∧ (s.confirm).code = s.code ∧ (s.confirm).sup = s.sup ∧
    (s.confirm).life = s.life ∧ (s.confirm).fresh = s.fresh := by
  simp only [State.confirm]; (repeat' split) <;> simp
@[simp] theorem State.confirm_keeps :
    (s.confirm).store.recs = s.store.recs ∧ (s.confirm).store.bad = s.store.bad ∧
    (s.confirm).store.unsound = s.store.unsound := by
  simp only [State.confirm]; (repeat' split) <;> simp

@[simp] theorem State.endPulse_frame :
    (s.endPulse).pending = s.pending ∧ (s.endPulse).backup = s.backup ∧ (s.endPulse).reg = s.reg ∧
    (s.endPulse).cal = s.cal ∧ (s.endPulse).acct = s.acct ∧ (s.endPulse).code = s.code ∧ (s.endPulse).sup = s.sup ∧
    (s.endPulse).life = s.life ∧ (s.endPulse).fresh = s.fresh := by
  simp only [State.endPulse]; (repeat' split) <;> simp
@[simp] theorem State.endPulse_keeps :
    (s.endPulse).store.recs = s.store.recs ∧ (s.endPulse).store.bad = s.store.bad ∧
    (s.endPulse).store.unsound = s.store.unsound := by
  simp only [State.endPulse]; (repeat' split) <;> simp

@[simp] theorem State.endWatch_frame :
    (s.endWatch).pending = s.pending ∧ (s.endWatch).backup = s.backup ∧ (s.endWatch).reg = s.reg ∧
    (s.endWatch).cal = s.cal ∧ (s.endWatch).acct = s.acct ∧ (s.endWatch).code = s.code ∧ (s.endWatch).sup = s.sup ∧
    (s.endWatch).fresh = s.fresh := by
  simp only [State.endWatch]; (repeat' split) <;> simp
@[simp] theorem State.endWatch_keeps :
    (s.endWatch).life.state = s.life.state ∧ (s.endWatch).life.window = s.life.window ∧
    (s.endWatch).store.recs = s.store.recs ∧ (s.endWatch).store.bad = s.store.bad ∧
    (s.endWatch).store.unsound = s.store.unsound := by
  simp only [State.endWatch]; (repeat' split) <;> simp

@[simp] theorem State.endSuspension_frame :
    (s.endSuspension).pending = s.pending ∧ (s.endSuspension).backup = s.backup ∧ (s.endSuspension).store = s.store ∧
    (s.endSuspension).reg = s.reg ∧ (s.endSuspension).cal = s.cal ∧ (s.endSuspension).acct = s.acct ∧
    (s.endSuspension).code = s.code ∧ (s.endSuspension).sw = s.sw ∧ (s.endSuspension).sup = s.sup ∧
    (s.endSuspension).life = s.life ∧ (s.endSuspension).link = s.link ∧ (s.endSuspension).fresh = s.fresh := by
  simp only [State.endSuspension]; (repeat' split) <;> simp

@[simp] theorem State.press_frame :
    (s.press).pending = s.pending ∧ (s.press).backup = s.backup ∧ (s.press).store = s.store ∧ (s.press).reg = s.reg ∧
    (s.press).cal = s.cal ∧ (s.press).acct = s.acct ∧ (s.press).code = s.code ∧ (s.press).sup = s.sup ∧
    (s.press).life = s.life ∧ (s.press).fresh = s.fresh := by
  simp only [State.press]; (repeat' split) <;> simp

@[simp] theorem State.examineReconnect_frame :
    (s.examineReconnect).pending = s.pending ∧ (s.examineReconnect).backup = s.backup ∧
    (s.examineReconnect).store = s.store ∧ (s.examineReconnect).reg = s.reg ∧ (s.examineReconnect).cal = s.cal ∧
    (s.examineReconnect).acct = s.acct ∧ (s.examineReconnect).code = s.code ∧ (s.examineReconnect).sup = s.sup ∧
    (s.examineReconnect).life = s.life := by
  simp only [State.examineReconnect]; (repeat' split) <;> simp

@[simp] theorem State.examineRemote_frame (c : Byte) :
    (s.examineRemote c).pending = s.pending ∧ (s.examineRemote c).backup = s.backup ∧
    (s.examineRemote c).reg = s.reg ∧ (s.examineRemote c).cal = s.cal ∧ (s.examineRemote c).acct = s.acct ∧
    (s.examineRemote c).code = s.code ∧ (s.examineRemote c).sup = s.sup ∧ (s.examineRemote c).life = s.life := by
  simp only [State.examineRemote]; (repeat' split) <;> simp
@[simp] theorem State.examineRemote_keeps (c : Byte) :
    (s.examineRemote c).store.recs = s.store.recs ∧ (s.examineRemote c).store.bad = s.store.bad ∧
    (s.examineRemote c).store.unsound = s.store.unsound := by
  simp only [State.examineRemote]; (repeat' split) <;> simp

@[simp] theorem State.retryInto_frame (w : SwitchState) :
    (s.retryInto w).pending = s.pending ∧ (s.retryInto w).backup = s.backup ∧ (s.retryInto w).reg = s.reg ∧
    (s.retryInto w).cal = s.cal ∧ (s.retryInto w).acct = s.acct ∧ (s.retryInto w).code = s.code ∧
    (s.retryInto w).sup = s.sup := by
  simp only [State.retryInto]; simp
@[simp] theorem State.retryInto_keeps (w : SwitchState) :
    (s.retryInto w).life.state = s.life.state ∧ (s.retryInto w).life.window = s.life.window ∧
    (s.retryInto w).store.recs = s.store.recs ∧ (s.retryInto w).store.bad = s.store.bad ∧
    (s.retryInto w).store.unsound = s.store.unsound := by
  simp only [State.retryInto]; simp

@[simp] theorem State.examineRetry_frame :
    (s.examineRetry).pending = s.pending ∧ (s.examineRetry).backup = s.backup ∧ (s.examineRetry).reg = s.reg ∧
    (s.examineRetry).cal = s.cal ∧ (s.examineRetry).acct = s.acct ∧ (s.examineRetry).code = s.code ∧
    (s.examineRetry).sup = s.sup := by
  simp only [State.examineRetry]; (repeat' split) <;> simp
@[simp] theorem State.examineRetry_keeps :
    (s.examineRetry).life.state = s.life.state ∧ (s.examineRetry).life.window = s.life.window ∧
    (s.examineRetry).store.recs = s.store.recs ∧ (s.examineRetry).store.bad = s.store.bad ∧
    (s.examineRetry).store.unsound = s.store.unsound := by
  simp only [State.examineRetry]; (repeat' split) <;> simp

@[simp] theorem State.endCalendar_frame :
    (s.endCalendar).pending = s.pending ∧ (s.endCalendar).backup = s.backup ∧ (s.endCalendar).reg = s.reg ∧
    (s.endCalendar).code = s.code ∧ (s.endCalendar).sup = s.sup ∧ (s.endCalendar).life = s.life ∧
    (s.endCalendar).fresh = s.fresh := by
  simp only [State.endCalendar]; simp
@[simp] theorem State.endCalendar_keeps :
    (s.endCalendar).store.recs = s.store.recs ∧ (s.endCalendar).store.bad = s.store.bad ∧
    (s.endCalendar).store.unsound = s.store.unsound := by
  simp only [State.endCalendar]; simp

@[simp] theorem State.finishStart_frame :
    (s.finishStart).pending = s.pending ∧ (s.finishStart).reg = s.reg ∧ (s.finishStart).code = s.code ∧
    (s.finishStart).life = s.life ∧ (s.finishStart).fresh = s.fresh := by
  simp only [State.finishStart]; simp
@[simp] theorem State.finishStart_keeps :
    (s.finishStart).store.recs = s.store.recs ∧ (s.finishStart).store.bad = s.store.bad ∧
    (s.finishStart).store.unsound = s.store.unsound := by
  simp only [State.finishStart]; simp

@[simp] theorem State.tryEndStart_frame :
    (s.tryEndStart).pending = s.pending ∧ (s.tryEndStart).reg = s.reg ∧ (s.tryEndStart).code = s.code ∧
    (s.tryEndStart).life = s.life ∧ (s.tryEndStart).fresh = s.fresh := by
  simp only [State.tryEndStart]; (repeat' split) <;> simp
@[simp] theorem State.tryEndStart_keeps :
    (s.tryEndStart).store.recs = s.store.recs ∧ (s.tryEndStart).store.bad = s.store.bad ∧
    (s.tryEndStart).store.unsound = s.store.unsound := by
  simp only [State.tryEndStart]; (repeat' split) <;> simp

@[simp] theorem State.sensed_frame :
    (s.sensed).pending = s.pending ∧ (s.sensed).reg = s.reg ∧ (s.sensed).code = s.code := by
  simp only [State.sensed]; (repeat' split) <;> simp
@[simp] theorem State.sensed_keeps :
    (s.sensed).life.state = s.life.state ∧ (s.sensed).life.window = s.life.window ∧
    (s.sensed).store.recs = s.store.recs ∧ (s.sensed).store.bad = s.store.bad ∧
    (s.sensed).store.unsound = s.store.unsound := by
  simp only [State.sensed]; (repeat' split) <;> simp

@[simp] theorem State.setCover_frame (w : Cover) (b : Bool) :
    (s.setCover w b).pending = s.pending ∧ (s.setCover w b).backup = s.backup ∧ (s.setCover w b).store = s.store ∧
    (s.setCover w b).reg = s.reg ∧ (s.setCover w b).cal = s.cal ∧ (s.setCover w b).acct = s.acct ∧
    (s.setCover w b).code = s.code ∧ (s.setCover w b).sw = s.sw ∧ (s.setCover w b).sup = s.sup ∧
    (s.setCover w b).life = s.life ∧ (s.setCover w b).link = s.link ∧ (s.setCover w b).fresh = s.fresh := by
  simp only [State.setCover]; (repeat' split) <;> simp

@[simp] theorem State.coverOpens_frame (w : Cover) :
    (s.coverOpens w).pending = s.pending ∧ (s.coverOpens w).reg = s.reg ∧ (s.coverOpens w).cal = s.cal ∧
    (s.coverOpens w).acct = s.acct ∧ (s.coverOpens w).code = s.code ∧ (s.coverOpens w).sup = s.sup ∧
    (s.coverOpens w).life = s.life ∧ (s.coverOpens w).fresh = s.fresh := by
  simp only [State.coverOpens]; (repeat' split) <;> simp
@[simp] theorem State.coverOpens_keeps (w : Cover) :
    (s.coverOpens w).store.recs = s.store.recs ∧ (s.coverOpens w).store.bad = s.store.bad ∧
    (s.coverOpens w).store.unsound = s.store.unsound := by
  simp only [State.coverOpens]; (repeat' split) <;> simp

@[simp] theorem State.coverCloses_frame (w : Cover) :
    (s.coverCloses w).pending = s.pending ∧ (s.coverCloses w).backup = s.backup ∧ (s.coverCloses w).reg = s.reg ∧
    (s.coverCloses w).cal = s.cal ∧ (s.coverCloses w).acct = s.acct ∧ (s.coverCloses w).code = s.code ∧
    (s.coverCloses w).sup = s.sup ∧ (s.coverCloses w).life = s.life ∧ (s.coverCloses w).fresh = s.fresh := by
  simp only [State.coverCloses]; (repeat' split) <;> simp
@[simp] theorem State.coverCloses_keeps (w : Cover) :
    (s.coverCloses w).store.recs = s.store.recs ∧ (s.coverCloses w).store.bad = s.store.bad ∧
    (s.coverCloses w).store.unsound = s.store.unsound := by
  simp only [State.coverCloses]; (repeat' split) <;> simp

@[simp] theorem State.magnetSeen_frame :
    (s.magnetSeen).pending = s.pending ∧ (s.magnetSeen).backup = s.backup ∧ (s.magnetSeen).reg = s.reg ∧
    (s.magnetSeen).cal = s.cal ∧ (s.magnetSeen).acct = s.acct ∧ (s.magnetSeen).code = s.code ∧
    (s.magnetSeen).sup = s.sup ∧ (s.magnetSeen).life = s.life ∧ (s.magnetSeen).fresh = s.fresh := by
  simp only [State.magnetSeen]; (repeat' split) <;> simp
@[simp] theorem State.magnetSeen_keeps :
    (s.magnetSeen).store.recs = s.store.recs ∧ (s.magnetSeen).store.bad = s.store.bad ∧
    (s.magnetSeen).store.unsound = s.store.unsound := by
  simp only [State.magnetSeen]; (repeat' split) <;> simp

@[simp] theorem State.magnetGone_frame :
    (s.magnetGone).pending = s.pending ∧ (s.magnetGone).backup = s.backup ∧ (s.magnetGone).reg = s.reg ∧
    (s.magnetGone).cal = s.cal ∧ (s.magnetGone).acct = s.acct ∧ (s.magnetGone).code = s.code ∧
    (s.magnetGone).sup = s.sup ∧ (s.magnetGone).life = s.life ∧ (s.magnetGone).fresh = s.fresh := by
  simp only [State.magnetGone]; (repeat' split) <;> simp
@[simp] theorem State.magnetGone_keeps :
    (s.magnetGone).store.recs = s.store.recs ∧ (s.magnetGone).store.bad = s.store.bad ∧
    (s.magnetGone).store.unsound = s.store.unsound := by
  simp only [State.magnetGone]; (repeat' split) <;> simp

@[simp] theorem State.scanSensors_frame (a b c : Nat) :
    (s.scanSensors a b c).pending = s.pending ∧ (s.scanSensors a b c).backup = s.backup ∧
    (s.scanSensors a b c).store = s.store ∧ (s.scanSensors a b c).reg = s.reg ∧ (s.scanSensors a b c).cal = s.cal ∧
    (s.scanSensors a b c).acct = s.acct ∧ (s.scanSensors a b c).code = s.code ∧ (s.scanSensors a b c).sw = s.sw ∧
    (s.scanSensors a b c).tam = s.tam ∧ (s.scanSensors a b c).fresh = s.fresh := by
  simp only [State.scanSensors]; (repeat' split) <;> simp
@[simp] theorem State.scanSensors_keeps (a b c : Nat) :
    (s.scanSensors a b c).life.state = s.life.state ∧ (s.scanSensors a b c).life.window = s.life.window := by
  simp only [State.scanSensors]; (repeat' split) <;> simp

@[simp] theorem State.judgeOverheat_frame :
    (s.judgeOverheat).pending = s.pending ∧ (s.judgeOverheat).backup = s.backup ∧ (s.judgeOverheat).reg = s.reg ∧
    (s.judgeOverheat).cal = s.cal ∧ (s.judgeOverheat).acct = s.acct ∧ (s.judgeOverheat).code = s.code ∧
    (s.judgeOverheat).sw = s.sw ∧ (s.judgeOverheat).life = s.life ∧ (s.judgeOverheat).fresh = s.fresh := by
  simp only [State.judgeOverheat]; (repeat' split) <;> simp
@[simp] theorem State.judgeOverheat_keeps :
    (s.judgeOverheat).store.recs = s.store.recs ∧ (s.judgeOverheat).store.bad = s.store.bad ∧
    (s.judgeOverheat).store.unsound = s.store.unsound := by
  simp only [State.judgeOverheat]; (repeat' split) <;> simp

@[simp] theorem State.judgeThermal_frame :
    (s.judgeThermal).pending = s.pending ∧ (s.judgeThermal).backup = s.backup ∧ (s.judgeThermal).reg = s.reg ∧
    (s.judgeThermal).cal = s.cal ∧ (s.judgeThermal).acct = s.acct ∧ (s.judgeThermal).code = s.code ∧
    (s.judgeThermal).life = s.life ∧ (s.judgeThermal).fresh = s.fresh := by
  simp only [State.judgeThermal]; (repeat' split) <;> simp
@[simp] theorem State.judgeThermal_keeps :
    (s.judgeThermal).store.recs = s.store.recs ∧ (s.judgeThermal).store.bad = s.store.bad ∧
    (s.judgeThermal).store.unsound = s.store.unsound := by
  simp only [State.judgeThermal]; (repeat' split) <;> simp

@[simp] theorem State.judgeCell_frame :
    (s.judgeCell).pending = s.pending ∧ (s.judgeCell).backup = s.backup ∧ (s.judgeCell).store = s.store ∧
    (s.judgeCell).reg = s.reg ∧ (s.judgeCell).cal = s.cal ∧ (s.judgeCell).acct = s.acct ∧
    (s.judgeCell).code = s.code ∧ (s.judgeCell).sw = s.sw ∧ (s.judgeCell).tam = s.tam ∧
    (s.judgeCell).fresh = s.fresh := by
  simp only [State.judgeCell]; (repeat' split) <;> simp
@[simp] theorem State.judgeCell_keeps :
    (s.judgeCell).life.state = s.life.state ∧ (s.judgeCell).life.window = s.life.window := by
  simp only [State.judgeCell]; (repeat' split) <;> simp

@[simp] theorem State.scan_frame (a b c : List Nat) :
    (s.scan a b c).pending = s.pending ∧ (s.scan a b c).backup = s.backup ∧ (s.scan a b c).reg = s.reg ∧
    (s.scan a b c).cal = s.cal ∧ (s.scan a b c).acct = s.acct ∧ (s.scan a b c).code = s.code ∧
    (s.scan a b c).fresh = s.fresh := by
  simp only [State.scan]; (repeat' split) <;> simp
@[simp] theorem State.scan_keeps (a b c : List Nat) :
    (s.scan a b c).life.state = s.life.state ∧ (s.scan a b c).life.window = s.life.window ∧
    (s.scan a b c).store.recs = s.store.recs ∧ (s.scan a b c).store.bad = s.store.bad ∧
    (s.scan a b c).store.unsound = s.store.unsound := by
  simp only [State.scan]; (repeat' split) <;> simp

@[simp] theorem State.batteryCover_frame (w : Cover) (b : Bool) :
    (s.batteryCover w b).pending = s.pending ∧ (s.batteryCover w b).store = s.store ∧
    (s.batteryCover w b).reg = s.reg ∧ (s.batteryCover w b).cal = s.cal ∧ (s.batteryCover w b).acct = s.acct ∧
    (s.batteryCover w b).code = s.code ∧ (s.batteryCover w b).sw = s.sw ∧ (s.batteryCover w b).sup = s.sup ∧
    (s.batteryCover w b).tam = s.tam ∧ (s.batteryCover w b).life = s.life ∧ (s.batteryCover w b).link = s.link ∧
    (s.batteryCover w b).fresh = s.fresh := by
  simp only [State.batteryCover]; (repeat' split) <;> simp

@[simp] theorem State.enterHoldup_frame :
    (s.enterHoldup).pending = s.pending ∧ (s.enterHoldup).store = s.store ∧ (s.enterHoldup).reg = s.reg ∧
    (s.enterHoldup).cal = s.cal ∧ (s.enterHoldup).acct = s.acct ∧ (s.enterHoldup).code = s.code ∧
    (s.enterHoldup).sw = s.sw ∧ (s.enterHoldup).sup = s.sup ∧ (s.enterHoldup).tam = s.tam ∧
    (s.enterHoldup).life = s.life ∧ (s.enterHoldup).link = s.link ∧ (s.enterHoldup).fresh = s.fresh := by
  simp only [State.enterHoldup]; simp

@[simp] theorem State.refuseDropped_frame (d : Option (InHand × Dropped)) :
    (s.refuseDropped d).pending = s.pending ∧ (s.refuseDropped d).backup = s.backup ∧
    (s.refuseDropped d).store = s.store ∧ (s.refuseDropped d).reg = s.reg ∧ (s.refuseDropped d).cal = s.cal ∧
    (s.refuseDropped d).acct = s.acct ∧ (s.refuseDropped d).sw = s.sw ∧ (s.refuseDropped d).sup = s.sup ∧
    (s.refuseDropped d).tam = s.tam ∧ (s.refuseDropped d).life = s.life := by
  simp only [State.refuseDropped]; (repeat' split) <;> simp

@[simp] theorem State.dropQueue_frame :
    (s.dropQueue).pending = s.pending ∧ (s.dropQueue).backup = s.backup ∧ (s.dropQueue).store = s.store ∧
    (s.dropQueue).reg = s.reg ∧ (s.dropQueue).code = s.code ∧ (s.dropQueue).sw = s.sw ∧ (s.dropQueue).sup = s.sup ∧
    (s.dropQueue).tam = s.tam ∧ (s.dropQueue).life = s.life ∧ (s.dropQueue).link = s.link ∧
    (s.dropQueue).fresh = s.fresh := by
  simp only [State.dropQueue]; simp

@[simp] theorem State.completeSlots_frame :
    (s.completeSlots).pending = s.pending ∧ (s.completeSlots).backup = s.backup ∧ (s.completeSlots).reg = s.reg ∧
    (s.completeSlots).cal = s.cal ∧ (s.completeSlots).acct = s.acct ∧ (s.completeSlots).code = s.code ∧
    (s.completeSlots).sw = s.sw ∧ (s.completeSlots).sup = s.sup ∧ (s.completeSlots).life = s.life ∧
    (s.completeSlots).link = s.link ∧ (s.completeSlots).fresh = s.fresh := by
  simp only [State.completeSlots]; (repeat' split) <;> simp
@[simp] theorem State.completeSlots_keeps :
    (s.completeSlots).store.recs = s.store.recs ∧ (s.completeSlots).store.bad = s.store.bad ∧
    (s.completeSlots).store.unsound = s.store.unsound := by
  simp only [State.completeSlots]; (repeat' split) <;> simp

@[simp] theorem State.releaseDropped_frame :
    (s.releaseDropped).pending = s.pending ∧ (s.releaseDropped).reg = s.reg ∧ (s.releaseDropped).cal = s.cal ∧
    (s.releaseDropped).acct = s.acct ∧ (s.releaseDropped).code = s.code ∧ (s.releaseDropped).sup = s.sup ∧
    (s.releaseDropped).life = s.life ∧ (s.releaseDropped).fresh = s.fresh := by
  simp only [State.releaseDropped]; (repeat' split) <;> simp
@[simp] theorem State.releaseDropped_keeps :
    (s.releaseDropped).store.recs = s.store.recs ∧ (s.releaseDropped).store.bad = s.store.bad ∧
    (s.releaseDropped).store.unsound = s.store.unsound ∧ (s.releaseDropped).backup.power = s.backup.power ∧
    (s.releaseDropped).backup.domain = s.backup.domain ∧
    (s.releaseDropped).backup.retained.clock = s.backup.retained.clock ∧
    (s.releaseDropped).backup.retained.valid = s.backup.retained.valid := by
  simp only [State.releaseDropped]; (repeat' split) <;> simp

@[simp] theorem State.windowHoldup_frame :
    (s.windowHoldup).pending = s.pending ∧ (s.windowHoldup).reg = s.reg ∧ (s.windowHoldup).cal = s.cal ∧
    (s.windowHoldup).acct = s.acct ∧ (s.windowHoldup).code = s.code ∧ (s.windowHoldup).sup = s.sup ∧
    (s.windowHoldup).fresh = s.fresh := by
  simp only [State.windowHoldup]; (repeat' split) <;> simp
@[simp] theorem State.windowHoldup_keeps :
    (s.windowHoldup).store.recs = s.store.recs ∧ (s.windowHoldup).store.bad = s.store.bad ∧
    (s.windowHoldup).store.unsound = s.store.unsound := by
  simp only [State.windowHoldup]; (repeat' split) <;> simp

@[simp] theorem State.abandonStart_frame :
    (s.abandonStart).pending = s.pending ∧ (s.abandonStart).store = s.store ∧ (s.abandonStart).reg = s.reg ∧
    (s.abandonStart).cal = s.cal ∧ (s.abandonStart).acct = s.acct ∧ (s.abandonStart).code = s.code ∧
    (s.abandonStart).sw = s.sw ∧ (s.abandonStart).sup = s.sup ∧ (s.abandonStart).tam = s.tam ∧
    (s.abandonStart).life = s.life ∧ (s.abandonStart).link = s.link ∧ (s.abandonStart).fresh = s.fresh := by
  simp only [State.abandonStart]; simp

@[simp] theorem State.backupLost_frame :
    (s.backupLost).pending = s.pending ∧ (s.backupLost).store = s.store ∧ (s.backupLost).reg = s.reg ∧
    (s.backupLost).cal = s.cal ∧ (s.backupLost).acct = s.acct ∧ (s.backupLost).code = s.code ∧
    (s.backupLost).sw = s.sw ∧ (s.backupLost).sup = s.sup ∧ (s.backupLost).tam = s.tam ∧
    (s.backupLost).life = s.life ∧ (s.backupLost).link = s.link ∧ (s.backupLost).fresh = s.fresh := by
  simp only [State.backupLost]; (repeat' split) <;> simp

@[simp] theorem State.resetReleased_frame :
    (s.resetReleased).pending = s.pending ∧ (s.resetReleased).store = s.store ∧ (s.resetReleased).reg = s.reg ∧
    (s.resetReleased).cal = s.cal ∧ (s.resetReleased).acct = s.acct ∧ (s.resetReleased).code = s.code ∧
    (s.resetReleased).sw = s.sw ∧ (s.resetReleased).sup = s.sup ∧ (s.resetReleased).tam = s.tam ∧
    (s.resetReleased).life = s.life ∧ (s.resetReleased).link = s.link ∧ (s.resetReleased).fresh = s.fresh := by
  simp only [State.resetReleased]; (repeat' split) <;> simp

@[simp] theorem State.deferredSwitch_frame :
    (s.deferredSwitch).pending = s.pending ∧ (s.deferredSwitch).backup = s.backup ∧ (s.deferredSwitch).reg = s.reg ∧
    (s.deferredSwitch).cal = s.cal ∧ (s.deferredSwitch).acct = s.acct ∧ (s.deferredSwitch).code = s.code ∧
    (s.deferredSwitch).sup = s.sup ∧ (s.deferredSwitch).tam = s.tam ∧ (s.deferredSwitch).life = s.life := by
  simp only [State.deferredSwitch]; (repeat' split) <;> simp
@[simp] theorem State.deferredSwitch_keeps :
    (s.deferredSwitch).store.recs = s.store.recs ∧ (s.deferredSwitch).store.bad = s.store.bad ∧
    (s.deferredSwitch).store.unsound = s.store.unsound := by
  simp only [State.deferredSwitch]; (repeat' split) <;> simp

@[simp] theorem State.windowExpires_frame :
    (s.windowExpires).pending = s.pending ∧ (s.windowExpires).reg = s.reg ∧ (s.windowExpires).cal = s.cal ∧
    (s.windowExpires).acct = s.acct ∧ (s.windowExpires).code = s.code ∧ (s.windowExpires).sup = s.sup ∧
    (s.windowExpires).fresh = s.fresh := by
  simp only [State.windowExpires]; (repeat' split) <;> simp
@[simp] theorem State.windowExpires_keeps :
    (s.windowExpires).store.recs = s.store.recs ∧ (s.windowExpires).store.bad = s.store.bad ∧
    (s.windowExpires).store.unsound = s.store.unsound := by
  simp only [State.windowExpires]; (repeat' split) <;> simp

@[simp] theorem State.examineCloseService_frame :
    (s.examineCloseService).pending = s.pending ∧ (s.examineCloseService).reg = s.reg ∧
    (s.examineCloseService).cal = s.cal ∧ (s.examineCloseService).acct = s.acct ∧
    (s.examineCloseService).code = s.code ∧ (s.examineCloseService).sup = s.sup := by
  simp only [State.examineCloseService]; (repeat' split) <;> simp
@[simp] theorem State.examineCloseService_keeps :
    (s.examineCloseService).store.recs = s.store.recs ∧ (s.examineCloseService).store.bad = s.store.bad ∧
    (s.examineCloseService).store.unsound = s.store.unsound := by
  simp only [State.examineCloseService]; (repeat' split) <;> simp

@[simp] theorem State.takeCommission_frame :
    (s.takeCommission).pending = s.pending ∧ (s.takeCommission).backup = s.backup ∧
    (s.takeCommission).store = s.store ∧ (s.takeCommission).cal = s.cal ∧ (s.takeCommission).sw = s.sw ∧
    (s.takeCommission).life = s.life ∧ (s.takeCommission).fresh = s.fresh := by
  simp only [State.takeCommission]; simp

@[simp] theorem State.examineCommission_frame :
    (s.examineCommission).pending = s.pending ∧ (s.examineCommission).backup = s.backup ∧
    (s.examineCommission).store = s.store ∧ (s.examineCommission).cal = s.cal ∧ (s.examineCommission).sw = s.sw ∧
    (s.examineCommission).life = s.life := by
  simp only [State.examineCommission]; (repeat' split) <;> simp

@[simp] theorem State.examineInstall_frame (a : BitVec 32) (k : BitVec 120) :
    (s.examineInstall a k).pending = s.pending ∧ (s.examineInstall a k).backup = s.backup ∧
    (s.examineInstall a k).reg = s.reg ∧ (s.examineInstall a k).cal = s.cal ∧ (s.examineInstall a k).acct = s.acct ∧
    (s.examineInstall a k).code = s.code ∧ (s.examineInstall a k).sw = s.sw ∧ (s.examineInstall a k).sup = s.sup ∧
    (s.examineInstall a k).tam = s.tam ∧ (s.examineInstall a k).life = s.life := by
  simp only [State.examineInstall]; (repeat' split) <;> simp
@[simp] theorem State.examineInstall_keeps (a : BitVec 32) (k : BitVec 120) :
    (s.examineInstall a k).store.recs = s.store.recs ∧ (s.examineInstall a k).store.bad = s.store.bad ∧
    (s.examineInstall a k).store.unsound = s.store.unsound := by
  simp only [State.examineInstall]; (repeat' split) <;> simp

@[simp] theorem State.takeConfig_frame (v : SectionValue) :
    (s.takeConfig v).pending = s.pending ∧ (s.takeConfig v).backup = s.backup ∧ (s.takeConfig v).reg = s.reg ∧
    (s.takeConfig v).cal = s.cal ∧ (s.takeConfig v).acct = s.acct ∧ (s.takeConfig v).code = s.code ∧
    (s.takeConfig v).sw = s.sw ∧ (s.takeConfig v).sup = s.sup ∧ (s.takeConfig v).tam = s.tam ∧
    (s.takeConfig v).life = s.life ∧ (s.takeConfig v).fresh = s.fresh := by
  simp only [State.takeConfig]; simp
@[simp] theorem State.takeConfig_keeps (v : SectionValue) :
    (s.takeConfig v).store.recs = s.store.recs ∧ (s.takeConfig v).store.bad = s.store.bad ∧
    (s.takeConfig v).store.unsound = s.store.unsound := by
  simp only [State.takeConfig]; simp

@[simp] theorem State.examineConfig_frame (b : Byte) (l : List Byte) :
    (s.examineConfig b l).pending = s.pending ∧ (s.examineConfig b l).backup = s.backup ∧
    (s.examineConfig b l).reg = s.reg ∧ (s.examineConfig b l).cal = s.cal ∧ (s.examineConfig b l).acct = s.acct ∧
    (s.examineConfig b l).code = s.code ∧ (s.examineConfig b l).sw = s.sw ∧ (s.examineConfig b l).sup = s.sup ∧
    (s.examineConfig b l).tam = s.tam ∧ (s.examineConfig b l).life = s.life := by
  simp only [State.examineConfig]; (repeat' split) <;> simp
@[simp] theorem State.examineConfig_keeps (b : Byte) (l : List Byte) :
    (s.examineConfig b l).store.recs = s.store.recs ∧ (s.examineConfig b l).store.bad = s.store.bad ∧
    (s.examineConfig b l).store.unsound = s.store.unsound := by
  simp only [State.examineConfig]; (repeat' split) <;> simp

@[simp] theorem State.applyConfig_frame (v : SectionValue) :
    (s.applyConfig v).pending = s.pending ∧ (s.applyConfig v).backup = s.backup ∧ (s.applyConfig v).reg = s.reg ∧
    (s.applyConfig v).cal = s.cal ∧ (s.applyConfig v).code = s.code ∧ (s.applyConfig v).sup = s.sup ∧
    (s.applyConfig v).life = s.life ∧ (s.applyConfig v).fresh = s.fresh := by
  simp only [State.applyConfig]; (repeat' split) <;> simp
@[simp] theorem State.applyConfig_keeps (v : SectionValue) :
    (s.applyConfig v).store.recs = s.store.recs ∧ (s.applyConfig v).store.bad = s.store.bad ∧
    (s.applyConfig v).store.unsound = s.store.unsound := by
  simp only [State.applyConfig]; (repeat' split) <;> simp

@[simp] theorem State.tamperEntry_frame :
    (s.tamperEntry).pending = s.pending ∧ (s.tamperEntry).backup = s.backup ∧ (s.tamperEntry).reg = s.reg ∧
    (s.tamperEntry).cal = s.cal ∧ (s.tamperEntry).acct = s.acct ∧ (s.tamperEntry).code = s.code ∧
    (s.tamperEntry).sw = s.sw ∧ (s.tamperEntry).sup = s.sup ∧ (s.tamperEntry).life = s.life ∧
    (s.tamperEntry).fresh = s.fresh := by
  simp only [State.tamperEntry]; (repeat' split) <;> simp
@[simp] theorem State.tamperEntry_keeps :
    (s.tamperEntry).store.recs = s.store.recs ∧ (s.tamperEntry).store.bad = s.store.bad ∧
    (s.tamperEntry).store.unsound = s.store.unsound := by
  simp only [State.tamperEntry]; (repeat' split) <;> simp

@[simp] theorem State.clearLatches_frame (l : List EvClass) (q : Nat) (time : Option Nat) :
    (s.clearLatches l q time).pending = s.pending ∧ (s.clearLatches l q time).reg = s.reg ∧
    (s.clearLatches l q time).cal = s.cal ∧ (s.clearLatches l q time).acct = s.acct ∧
    (s.clearLatches l q time).code = s.code ∧ (s.clearLatches l q time).sup = s.sup ∧
    (s.clearLatches l q time).life = s.life ∧ (s.clearLatches l q time).fresh = s.fresh := by
  simp only [State.clearLatches]; simp
@[simp] theorem State.clearLatches_keeps (l : List EvClass) (q : Nat) (time : Option Nat) :
    (s.clearLatches l q time).store.recs = s.store.recs ∧ (s.clearLatches l q time).store.bad = s.store.bad ∧
    (s.clearLatches l q time).store.unsound = s.store.unsound ∧
    (s.clearLatches l q time).backup.power = s.backup.power ∧
    (s.clearLatches l q time).backup.domain = s.backup.domain ∧
    (s.clearLatches l q time).backup.retained.clock = s.backup.retained.clock ∧
    (s.clearLatches l q time).backup.retained.valid = s.backup.retained.valid := by
  simp only [State.clearLatches]; simp

@[simp] theorem State.takeTariff_frame (k b : Nat) (p : Pending) (st : Status) :
    (s.takeTariff k b p st).pending = s.pending ∧ (s.takeTariff k b p st).backup = s.backup ∧
    (s.takeTariff k b p st).reg = s.reg ∧ (s.takeTariff k b p st).cal = s.cal ∧
    (s.takeTariff k b p st).acct = s.acct ∧ (s.takeTariff k b p st).code = s.code ∧
    (s.takeTariff k b p st).sw = s.sw ∧ (s.takeTariff k b p st).sup = s.sup ∧ (s.takeTariff k b p st).tam = s.tam ∧
    (s.takeTariff k b p st).life = s.life ∧ (s.takeTariff k b p st).fresh = s.fresh := by
  simp only [State.takeTariff]; simp
@[simp] theorem State.takeTariff_keeps (k b : Nat) (p : Pending) (st : Status) :
    (s.takeTariff k b p st).store.recs = s.store.recs ∧ (s.takeTariff k b p st).store.bad = s.store.bad ∧
    (s.takeTariff k b p st).store.unsound = s.store.unsound := by
  simp only [State.takeTariff]; simp

@[simp] theorem State.examineBegin_frame :
    (s.examineBegin).pending = s.pending ∧ (s.examineBegin).backup = s.backup ∧ (s.examineBegin).reg = s.reg ∧
    (s.examineBegin).cal = s.cal ∧ (s.examineBegin).acct = s.acct ∧ (s.examineBegin).code = s.code ∧
    (s.examineBegin).sw = s.sw ∧ (s.examineBegin).sup = s.sup ∧ (s.examineBegin).tam = s.tam ∧
    (s.examineBegin).life = s.life := by
  simp only [State.examineBegin, State.tariffGuard]; (repeat' split) <;> simp
@[simp] theorem State.examineBegin_keeps :
    (s.examineBegin).store.recs = s.store.recs ∧ (s.examineBegin).store.bad = s.store.bad ∧
    (s.examineBegin).store.unsound = s.store.unsound := by
  simp only [State.examineBegin, State.tariffGuard]; (repeat' split) <;> simp

@[simp] theorem State.storeSection_frame (b : Byte) (l : List Byte) :
    (s.storeSection b l).pending = s.pending ∧ (s.storeSection b l).backup = s.backup ∧
    (s.storeSection b l).reg = s.reg ∧ (s.storeSection b l).cal = s.cal ∧ (s.storeSection b l).acct = s.acct ∧
    (s.storeSection b l).code = s.code ∧ (s.storeSection b l).sw = s.sw ∧ (s.storeSection b l).sup = s.sup ∧
    (s.storeSection b l).tam = s.tam ∧ (s.storeSection b l).life = s.life := by
  simp only [State.storeSection]; (repeat' split) <;> simp
@[simp] theorem State.storeSection_keeps (b : Byte) (l : List Byte) :
    (s.storeSection b l).store.recs = s.store.recs ∧ (s.storeSection b l).store.bad = s.store.bad ∧
    (s.storeSection b l).store.unsound = s.store.unsound := by
  simp only [State.storeSection]; (repeat' split) <;> simp

@[simp] theorem State.examineSection_frame (b : Byte) (l : List Byte) :
    (s.examineSection b l).pending = s.pending ∧ (s.examineSection b l).backup = s.backup ∧
    (s.examineSection b l).reg = s.reg ∧ (s.examineSection b l).cal = s.cal ∧ (s.examineSection b l).acct = s.acct ∧
    (s.examineSection b l).code = s.code ∧ (s.examineSection b l).sw = s.sw ∧ (s.examineSection b l).sup = s.sup ∧
    (s.examineSection b l).tam = s.tam ∧ (s.examineSection b l).life = s.life := by
  simp only [State.examineSection, State.tariffGuard]; (repeat' split) <;> simp
@[simp] theorem State.examineSection_keeps (b : Byte) (l : List Byte) :
    (s.examineSection b l).store.recs = s.store.recs ∧ (s.examineSection b l).store.bad = s.store.bad ∧
    (s.examineSection b l).store.unsound = s.store.unsound := by
  simp only [State.examineSection, State.tariffGuard]; (repeat' split) <;> simp

@[simp] theorem State.commitTariff_frame (t i : Nat) :
    (s.commitTariff t i).pending = s.pending ∧ (s.commitTariff t i).backup = s.backup ∧
    (s.commitTariff t i).reg = s.reg ∧ (s.commitTariff t i).cal = s.cal ∧ (s.commitTariff t i).acct = s.acct ∧
    (s.commitTariff t i).code = s.code ∧ (s.commitTariff t i).sw = s.sw ∧ (s.commitTariff t i).sup = s.sup ∧
    (s.commitTariff t i).tam = s.tam ∧ (s.commitTariff t i).life = s.life := by
  simp only [State.commitTariff]; (repeat' split) <;> simp
@[simp] theorem State.commitTariff_keeps (t i : Nat) :
    (s.commitTariff t i).store.recs = s.store.recs ∧ (s.commitTariff t i).store.bad = s.store.bad ∧
    (s.commitTariff t i).store.unsound = s.store.unsound := by
  simp only [State.commitTariff]; (repeat' split) <;> simp

@[simp] theorem State.examineCommit_frame (t i : Nat) :
    (s.examineCommit t i).pending = s.pending ∧ (s.examineCommit t i).backup = s.backup ∧
    (s.examineCommit t i).reg = s.reg ∧ (s.examineCommit t i).cal = s.cal ∧ (s.examineCommit t i).acct = s.acct ∧
    (s.examineCommit t i).code = s.code ∧ (s.examineCommit t i).sw = s.sw ∧ (s.examineCommit t i).sup = s.sup ∧
    (s.examineCommit t i).tam = s.tam ∧ (s.examineCommit t i).life = s.life := by
  simp only [State.examineCommit, State.tariffGuard]; (repeat' split) <;> simp
@[simp] theorem State.examineCommit_keeps (t i : Nat) :
    (s.examineCommit t i).store.recs = s.store.recs ∧ (s.examineCommit t i).store.bad = s.store.bad ∧
    (s.examineCommit t i).store.unsound = s.store.unsound := by
  simp only [State.examineCommit, State.tariffGuard]; (repeat' split) <;> simp

@[simp] theorem State.discardTariff_frame :
    (s.discardTariff).pending = s.pending ∧ (s.discardTariff).backup = s.backup ∧ (s.discardTariff).reg = s.reg ∧
    (s.discardTariff).cal = s.cal ∧ (s.discardTariff).acct = s.acct ∧ (s.discardTariff).code = s.code ∧
    (s.discardTariff).sw = s.sw ∧ (s.discardTariff).sup = s.sup ∧ (s.discardTariff).tam = s.tam ∧
    (s.discardTariff).life = s.life := by
  simp only [State.discardTariff]; (repeat' split) <;> simp
@[simp] theorem State.discardTariff_keeps :
    (s.discardTariff).store.recs = s.store.recs ∧ (s.discardTariff).store.bad = s.store.bad ∧
    (s.discardTariff).store.unsound = s.store.unsound := by
  simp only [State.discardTariff]; (repeat' split) <;> simp

@[simp] theorem State.examineDiscard_frame :
    (s.examineDiscard).pending = s.pending ∧ (s.examineDiscard).backup = s.backup ∧ (s.examineDiscard).reg = s.reg ∧
    (s.examineDiscard).cal = s.cal ∧ (s.examineDiscard).acct = s.acct ∧ (s.examineDiscard).code = s.code ∧
    (s.examineDiscard).sw = s.sw ∧ (s.examineDiscard).sup = s.sup ∧ (s.examineDiscard).tam = s.tam ∧
    (s.examineDiscard).life = s.life := by
  simp only [State.examineDiscard, State.tariffGuard]; (repeat' split) <;> simp
@[simp] theorem State.examineDiscard_keeps :
    (s.examineDiscard).store.recs = s.store.recs ∧ (s.examineDiscard).store.bad = s.store.bad ∧
    (s.examineDiscard).store.unsound = s.store.unsound := by
  simp only [State.examineDiscard, State.tariffGuard]; (repeat' split) <;> simp

@[simp] theorem State.frameDone_frame (l : List Byte) :
    (s.frameDone l).pending = s.pending ∧ (s.frameDone l).backup = s.backup ∧ (s.frameDone l).reg = s.reg ∧
    (s.frameDone l).cal = s.cal ∧ (s.frameDone l).acct = s.acct ∧ (s.frameDone l).code = s.code ∧
    (s.frameDone l).sup = s.sup ∧ (s.frameDone l).life = s.life ∧ (s.frameDone l).fresh = s.fresh := by
  simp only [State.frameDone]; (repeat' split) <;> simp
@[simp] theorem State.frameDone_keeps (l : List Byte) :
    (s.frameDone l).store.recs = s.store.recs ∧ (s.frameDone l).store.bad = s.store.bad ∧
    (s.frameDone l).store.unsound = s.store.unsound := by
  simp only [State.frameDone]; (repeat' split) <;> simp

@[simp] theorem State.takeByte_frame (b : RxByte) :
    (s.takeByte b).pending = s.pending ∧ (s.takeByte b).backup = s.backup ∧ (s.takeByte b).reg = s.reg ∧
    (s.takeByte b).cal = s.cal ∧ (s.takeByte b).acct = s.acct ∧ (s.takeByte b).code = s.code ∧
    (s.takeByte b).sup = s.sup ∧ (s.takeByte b).life = s.life ∧ (s.takeByte b).fresh = s.fresh := by
  simp only [State.takeByte]; (repeat' split) <;> simp
@[simp] theorem State.takeByte_keeps (b : RxByte) :
    (s.takeByte b).store.recs = s.store.recs ∧ (s.takeByte b).store.bad = s.store.bad ∧
    (s.takeByte b).store.unsound = s.store.unsound := by
  simp only [State.takeByte]; (repeat' split) <;> simp

@[simp] theorem State.gapSeen_frame (b : RxByte) :
    (s.gapSeen b).pending = s.pending ∧ (s.gapSeen b).backup = s.backup ∧ (s.gapSeen b).reg = s.reg ∧
    (s.gapSeen b).cal = s.cal ∧ (s.gapSeen b).acct = s.acct ∧ (s.gapSeen b).code = s.code ∧
    (s.gapSeen b).sup = s.sup ∧ (s.gapSeen b).life = s.life ∧ (s.gapSeen b).fresh = s.fresh := by
  simp only [State.gapSeen]; (repeat' split) <;> simp
@[simp] theorem State.gapSeen_keeps (b : RxByte) :
    (s.gapSeen b).store.recs = s.store.recs ∧ (s.gapSeen b).store.bad = s.store.bad ∧
    (s.gapSeen b).store.unsound = s.store.unsound := by
  simp only [State.gapSeen]; (repeat' split) <;> simp

@[simp] theorem State.breakSeen_frame :
    (s.breakSeen).pending = s.pending ∧ (s.breakSeen).backup = s.backup ∧ (s.breakSeen).store = s.store ∧
    (s.breakSeen).reg = s.reg ∧ (s.breakSeen).cal = s.cal ∧ (s.breakSeen).acct = s.acct ∧
    (s.breakSeen).code = s.code ∧ (s.breakSeen).sw = s.sw ∧ (s.breakSeen).sup = s.sup ∧ (s.breakSeen).tam = s.tam ∧
    (s.breakSeen).life = s.life ∧ (s.breakSeen).fresh = s.fresh := by
  simp only [State.breakSeen]; (repeat' split) <;> simp

@[simp] theorem State.lineHigh_frame :
    (s.lineHigh).pending = s.pending ∧ (s.lineHigh).backup = s.backup ∧ (s.lineHigh).store = s.store ∧
    (s.lineHigh).reg = s.reg ∧ (s.lineHigh).cal = s.cal ∧ (s.lineHigh).acct = s.acct ∧ (s.lineHigh).code = s.code ∧
    (s.lineHigh).sw = s.sw ∧ (s.lineHigh).sup = s.sup ∧ (s.lineHigh).tam = s.tam ∧ (s.lineHigh).life = s.life ∧
    (s.lineHigh).fresh = s.fresh := by
  simp only [State.lineHigh]; (repeat' split) <;> simp

@[simp] theorem State.transmit_frame :
    (s.transmit).pending = s.pending ∧ (s.transmit).backup = s.backup ∧ (s.transmit).store = s.store ∧
    (s.transmit).reg = s.reg ∧ (s.transmit).cal = s.cal ∧ (s.transmit).acct = s.acct ∧ (s.transmit).code = s.code ∧
    (s.transmit).sw = s.sw ∧ (s.transmit).sup = s.sup ∧ (s.transmit).tam = s.tam ∧ (s.transmit).life = s.life := by
  simp only [State.transmit]; (repeat' split) <;> simp

@[simp] theorem State.awaitRestart_frame :
    (s.awaitRestart).pending = s.pending ∧ (s.awaitRestart).store = s.store ∧ (s.awaitRestart).reg = s.reg ∧
    (s.awaitRestart).cal = s.cal ∧ (s.awaitRestart).acct = s.acct ∧ (s.awaitRestart).code = s.code ∧
    (s.awaitRestart).sw = s.sw ∧ (s.awaitRestart).sup = s.sup ∧ (s.awaitRestart).tam = s.tam ∧
    (s.awaitRestart).life = s.life ∧ (s.awaitRestart).link = s.link ∧ (s.awaitRestart).fresh = s.fresh := by
  simp only [State.awaitRestart]; simp

@[simp] theorem State.sent_frame :
    (s.sent).pending = s.pending ∧ (s.sent).store = s.store ∧ (s.sent).reg = s.reg ∧ (s.sent).cal = s.cal ∧
    (s.sent).acct = s.acct ∧ (s.sent).code = s.code ∧ (s.sent).sw = s.sw ∧ (s.sent).sup = s.sup ∧
    (s.sent).tam = s.tam ∧ (s.sent).life = s.life ∧ (s.sent).fresh = s.fresh := by
  simp only [State.sent]; (repeat' split) <;> simp

@[simp] theorem State.silenceExpires_frame :
    (s.silenceExpires).pending = s.pending ∧ (s.silenceExpires).backup = s.backup ∧ (s.silenceExpires).reg = s.reg ∧
    (s.silenceExpires).cal = s.cal ∧ (s.silenceExpires).acct = s.acct ∧ (s.silenceExpires).code = s.code ∧
    (s.silenceExpires).sup = s.sup ∧ (s.silenceExpires).life = s.life ∧ (s.silenceExpires).fresh = s.fresh := by
  simp only [State.silenceExpires]; (repeat' split) <;> simp
@[simp] theorem State.silenceExpires_keeps :
    (s.silenceExpires).store.recs = s.store.recs ∧ (s.silenceExpires).store.bad = s.store.bad ∧
    (s.silenceExpires).store.unsound = s.store.unsound := by
  simp only [State.silenceExpires]; (repeat' split) <;> simp

@[simp] theorem State.examineRestart_frame :
    (s.examineRestart).pending = s.pending ∧ (s.examineRestart).backup = s.backup ∧ (s.examineRestart).cal = s.cal ∧
    (s.examineRestart).acct = s.acct ∧ (s.examineRestart).code = s.code ∧ (s.examineRestart).sw = s.sw ∧
    (s.examineRestart).sup = s.sup ∧ (s.examineRestart).tam = s.tam ∧ (s.examineRestart).life = s.life := by
  simp only [State.examineRestart]; (repeat' split) <;> simp
@[simp] theorem State.examineRestart_keeps :
    (s.examineRestart).store.recs = s.store.recs ∧ (s.examineRestart).store.bad = s.store.bad ∧
    (s.examineRestart).store.unsound = s.store.unsound := by
  simp only [State.examineRestart]; (repeat' split) <;> simp

@[simp] theorem State.examineStatus_frame (b : Byte) :
    (s.examineStatus b).pending = s.pending ∧ (s.examineStatus b).backup = s.backup ∧
    (s.examineStatus b).store = s.store ∧ (s.examineStatus b).reg = s.reg ∧ (s.examineStatus b).cal = s.cal ∧
    (s.examineStatus b).acct = s.acct ∧ (s.examineStatus b).code = s.code ∧ (s.examineStatus b).sw = s.sw ∧
    (s.examineStatus b).sup = s.sup ∧ (s.examineStatus b).tam = s.tam := by
  simp only [State.examineStatus]; (repeat' split) <;> simp
@[simp] theorem State.examineStatus_keeps (b : Byte) :
    (s.examineStatus b).life.state = s.life.state ∧ (s.examineStatus b).life.window = s.life.window := by
  simp only [State.examineStatus]; (repeat' split) <;> simp

@[simp] theorem State.examineDays_frame (i : Nat) :
    (s.examineDays i).pending = s.pending ∧ (s.examineDays i).backup = s.backup ∧ (s.examineDays i).store = s.store ∧
    (s.examineDays i).reg = s.reg ∧ (s.examineDays i).cal = s.cal ∧ (s.examineDays i).acct = s.acct ∧
    (s.examineDays i).code = s.code ∧ (s.examineDays i).sw = s.sw ∧ (s.examineDays i).sup = s.sup ∧
    (s.examineDays i).tam = s.tam ∧ (s.examineDays i).life = s.life := by
  simp only [State.examineDays]; (repeat' split) <;> simp

@[simp] theorem State.examineSnapshot_frame (a b : Nat) :
    (s.examineSnapshot a b).pending = s.pending ∧ (s.examineSnapshot a b).backup = s.backup ∧
    (s.examineSnapshot a b).store = s.store ∧ (s.examineSnapshot a b).reg = s.reg ∧
    (s.examineSnapshot a b).cal = s.cal ∧ (s.examineSnapshot a b).acct = s.acct ∧
    (s.examineSnapshot a b).code = s.code ∧ (s.examineSnapshot a b).sw = s.sw ∧ (s.examineSnapshot a b).sup = s.sup ∧
    (s.examineSnapshot a b).tam = s.tam ∧ (s.examineSnapshot a b).life = s.life := by
  simp only [State.examineSnapshot]; (repeat' split) <;> simp

@[simp] theorem State.examineTariffRead_frame (a b : Nat) :
    (s.examineTariffRead a b).pending = s.pending ∧ (s.examineTariffRead a b).backup = s.backup ∧
    (s.examineTariffRead a b).store = s.store ∧ (s.examineTariffRead a b).reg = s.reg ∧
    (s.examineTariffRead a b).cal = s.cal ∧ (s.examineTariffRead a b).acct = s.acct ∧
    (s.examineTariffRead a b).code = s.code ∧ (s.examineTariffRead a b).sw = s.sw ∧
    (s.examineTariffRead a b).sup = s.sup ∧ (s.examineTariffRead a b).tam = s.tam ∧
    (s.examineTariffRead a b).life = s.life := by
  simp only [State.examineTariffRead]; (repeat' split) <;> simp

@[simp] theorem State.examineLinkStatus_frame :
    (s.examineLinkStatus).pending = s.pending ∧ (s.examineLinkStatus).backup = s.backup ∧
    (s.examineLinkStatus).store = s.store ∧ (s.examineLinkStatus).reg = s.reg ∧ (s.examineLinkStatus).cal = s.cal ∧
    (s.examineLinkStatus).acct = s.acct ∧ (s.examineLinkStatus).code = s.code ∧ (s.examineLinkStatus).sw = s.sw ∧
    (s.examineLinkStatus).sup = s.sup ∧ (s.examineLinkStatus).tam = s.tam ∧ (s.examineLinkStatus).life = s.life := by
  simp only [State.examineLinkStatus]; simp

@[simp] theorem accountWritten_frame (w : Write) :
    (accountWritten w s).pending = s.pending ∧ (accountWritten w s).backup = s.backup ∧
    (accountWritten w s).reg = s.reg ∧ (accountWritten w s).cal = s.cal ∧ (accountWritten w s).code = s.code ∧
    (accountWritten w s).sup = s.sup ∧ (accountWritten w s).life = s.life := by
  simp only [accountWritten]; (repeat' split) <;> simp
@[simp] theorem accountWritten_keeps (w : Write) :
    (accountWritten w s).store.recs = s.store.recs ∧ (accountWritten w s).store.bad = s.store.bad ∧
    (accountWritten w s).store.unsound = s.store.unsound := by
  simp only [accountWritten]; (repeat' split) <;> simp

@[simp] theorem boundaryWritten_frame (w : Write) :
    (boundaryWritten w s).pending = s.pending ∧ (boundaryWritten w s).backup = s.backup ∧
    (boundaryWritten w s).reg = s.reg ∧ (boundaryWritten w s).code = s.code ∧ (boundaryWritten w s).sup = s.sup ∧
    (boundaryWritten w s).life = s.life ∧ (boundaryWritten w s).fresh = s.fresh := by
  simp only [boundaryWritten]; simp
@[simp] theorem boundaryWritten_keeps (w : Write) :
    (boundaryWritten w s).store.recs = s.store.recs ∧ (boundaryWritten w s).store.bad = s.store.bad ∧
    (boundaryWritten w s).store.unsound = s.store.unsound := by
  simp only [boundaryWritten]; simp

@[simp] theorem activationWritten_frame (w : Write) :
    (activationWritten w s).pending = s.pending ∧ (activationWritten w s).backup = s.backup ∧
    (activationWritten w s).reg = s.reg ∧ (activationWritten w s).code = s.code ∧
    (activationWritten w s).sup = s.sup ∧ (activationWritten w s).life = s.life ∧
    (activationWritten w s).fresh = s.fresh := by
  simp only [activationWritten]; simp
@[simp] theorem activationWritten_keeps (w : Write) :
    (activationWritten w s).store.recs = s.store.recs ∧ (activationWritten w s).store.bad = s.store.bad ∧
    (activationWritten w s).store.unsound = s.store.unsound := by
  simp only [activationWritten]; simp

@[simp] theorem lockoutWritten_frame (w : Write) :
    (lockoutWritten w s).pending = s.pending ∧ (lockoutWritten w s).backup = s.backup ∧
    (lockoutWritten w s).reg = s.reg ∧ (lockoutWritten w s).cal = s.cal ∧ (lockoutWritten w s).acct = s.acct ∧
    (lockoutWritten w s).code = s.code ∧ (lockoutWritten w s).sup = s.sup ∧ (lockoutWritten w s).life = s.life ∧
    (lockoutWritten w s).fresh = s.fresh := by
  simp only [lockoutWritten]; (repeat' split) <;> simp
@[simp] theorem lockoutWritten_keeps (w : Write) :
    (lockoutWritten w s).store.recs = s.store.recs ∧ (lockoutWritten w s).store.bad = s.store.bad ∧
    (lockoutWritten w s).store.unsound = s.store.unsound := by
  simp only [lockoutWritten]; (repeat' split) <;> simp

@[simp] theorem setTimeWritten_frame (w : Write) :
    (setTimeWritten w s).pending = s.pending ∧ (setTimeWritten w s).reg = s.reg ∧
    (setTimeWritten w s).code = s.code := by
  simp only [setTimeWritten]; (repeat' split) <;> simp
@[simp] theorem setTimeWritten_keeps (w : Write) :
    (setTimeWritten w s).life.state = s.life.state ∧ (setTimeWritten w s).life.window = s.life.window ∧
    (setTimeWritten w s).store.recs = s.store.recs ∧ (setTimeWritten w s).store.bad = s.store.bad ∧
    (setTimeWritten w s).store.unsound = s.store.unsound := by
  simp only [setTimeWritten]; (repeat' split) <;> simp

@[simp] theorem countedWritten_frame (w : Write) :
    (countedWritten w s).pending = s.pending ∧ (countedWritten w s).backup = s.backup ∧
    (countedWritten w s).reg = s.reg ∧ (countedWritten w s).cal = s.cal ∧ (countedWritten w s).acct = s.acct ∧
    (countedWritten w s).sup = s.sup ∧ (countedWritten w s).life = s.life := by
  simp only [countedWritten]; (repeat' split) <;> simp
@[simp] theorem countedWritten_keeps (w : Write) :
    (countedWritten w s).store.recs = s.store.recs ∧ (countedWritten w s).store.bad = s.store.bad ∧
    (countedWritten w s).store.unsound = s.store.unsound := by
  simp only [countedWritten]; (repeat' split) <;> simp

@[simp] theorem switchWritten_frame (w : Write) :
    (switchWritten w s).pending = s.pending ∧ (switchWritten w s).backup = s.backup ∧
    (switchWritten w s).store = s.store ∧ (switchWritten w s).reg = s.reg ∧ (switchWritten w s).cal = s.cal ∧
    (switchWritten w s).acct = s.acct ∧ (switchWritten w s).code = s.code ∧ (switchWritten w s).sw = s.sw ∧
    (switchWritten w s).sup = s.sup ∧ (switchWritten w s).tam = s.tam ∧ (switchWritten w s).life = s.life := by
  simp only [switchWritten]; (repeat' split) <;> simp

@[simp] theorem startWritten_frame (w : Write) :
    (startWritten w s).pending = s.pending ∧ (startWritten w s).reg = s.reg ∧ (startWritten w s).code = s.code ∧
    (startWritten w s).life = s.life ∧ (startWritten w s).fresh = s.fresh := by
  simp only [startWritten]; simp
@[simp] theorem startWritten_keeps (w : Write) :
    (startWritten w s).store.recs = s.store.recs ∧ (startWritten w s).store.bad = s.store.bad ∧
    (startWritten w s).store.unsound = s.store.unsound := by
  simp only [startWritten]; simp

@[simp] theorem residueWritten_frame (w : Write) :
    (residueWritten w s).pending = s.pending ∧ (residueWritten w s).backup = s.backup ∧
    (residueWritten w s).store = s.store ∧ (residueWritten w s).cal = s.cal ∧ (residueWritten w s).acct = s.acct ∧
    (residueWritten w s).code = s.code ∧ (residueWritten w s).sw = s.sw ∧ (residueWritten w s).sup = s.sup ∧
    (residueWritten w s).tam = s.tam ∧ (residueWritten w s).life = s.life := by
  simp only [residueWritten]; (repeat' split) <;> simp

@[simp] theorem otherWritten_frame (w : Write) :
    (otherWritten w s).pending = s.pending ∧ (otherWritten w s).backup = s.backup ∧
    (otherWritten w s).store = s.store ∧ (otherWritten w s).reg = s.reg ∧ (otherWritten w s).code = s.code ∧
    (otherWritten w s).sw = s.sw ∧ (otherWritten w s).sup = s.sup ∧ (otherWritten w s).tam = s.tam ∧
    (otherWritten w s).life = s.life ∧ (otherWritten w s).link = s.link ∧ (otherWritten w s).fresh = s.fresh := by
  simp only [otherWritten]; (repeat' split) <;> simp

@[simp] theorem lifeWritten_frame (w : Write) :
    (lifeWritten w s).pending = s.pending ∧ (lifeWritten w s).backup = s.backup ∧ (lifeWritten w s).store = s.store ∧
    (lifeWritten w s).reg = s.reg ∧ (lifeWritten w s).cal = s.cal ∧ (lifeWritten w s).acct = s.acct ∧
    (lifeWritten w s).code = s.code ∧ (lifeWritten w s).sw = s.sw ∧ (lifeWritten w s).sup = s.sup ∧
    (lifeWritten w s).tam = s.tam ∧ (lifeWritten w s).life = s.life := by
  simp only [lifeWritten]; (repeat' split) <;> simp

@[simp] theorem identityWritten_frame (w : Write) :
    (identityWritten w s).pending = s.pending ∧ (identityWritten w s).backup = s.backup ∧
    (identityWritten w s).store = s.store ∧ (identityWritten w s).reg = s.reg ∧ (identityWritten w s).cal = s.cal ∧
    (identityWritten w s).acct = s.acct ∧ (identityWritten w s).code = s.code ∧ (identityWritten w s).sw = s.sw ∧
    (identityWritten w s).sup = s.sup ∧ (identityWritten w s).tam = s.tam ∧ (identityWritten w s).life = s.life := by
  simp only [identityWritten]; (repeat' split) <;> simp

@[simp] theorem configWritten_frame (w : Write) :
    (configWritten w s).pending = s.pending ∧ (configWritten w s).backup = s.backup ∧
    (configWritten w s).reg = s.reg ∧ (configWritten w s).cal = s.cal ∧ (configWritten w s).code = s.code ∧
    (configWritten w s).sup = s.sup ∧ (configWritten w s).life = s.life := by
  simp only [configWritten]; (repeat' split) <;> simp
@[simp] theorem configWritten_keeps (w : Write) :
    (configWritten w s).store.recs = s.store.recs ∧ (configWritten w s).store.bad = s.store.bad ∧
    (configWritten w s).store.unsound = s.store.unsound := by
  simp only [configWritten]; (repeat' split) <;> simp

@[simp] theorem tariffWritten_frame (w : Write) :
    (tariffWritten w s).pending = s.pending ∧ (tariffWritten w s).backup = s.backup ∧
    (tariffWritten w s).reg = s.reg ∧ (tariffWritten w s).cal = s.cal ∧ (tariffWritten w s).acct = s.acct ∧
    (tariffWritten w s).code = s.code ∧ (tariffWritten w s).sw = s.sw ∧ (tariffWritten w s).sup = s.sup ∧
    (tariffWritten w s).tam = s.tam ∧ (tariffWritten w s).life = s.life := by
  simp only [tariffWritten]; (repeat' split) <;> simp
@[simp] theorem tariffWritten_keeps (w : Write) :
    (tariffWritten w s).store.recs = s.store.recs ∧ (tariffWritten w s).store.bad = s.store.bad ∧
    (tariffWritten w s).store.unsound = s.store.unsound := by
  simp only [tariffWritten]; (repeat' split) <;> simp

@[simp] theorem entryWritten_frame (w : Write) :
    (entryWritten w s).pending = s.pending ∧ (entryWritten w s).reg = s.reg ∧ (entryWritten w s).cal = s.cal ∧
    (entryWritten w s).code = s.code := by
  simp only [entryWritten]; (repeat' split) <;> simp
@[simp] theorem entryWritten_keeps (w : Write) :
    (entryWritten w s).backup.power = s.backup.power ∧ (entryWritten w s).backup.domain = s.backup.domain ∧
    (entryWritten w s).backup.retained.clock = s.backup.retained.clock ∧
    (entryWritten w s).backup.retained.valid = s.backup.retained.valid ∧
    (entryWritten w s).store.recs = s.store.recs ∧ (entryWritten w s).store.bad = s.store.bad ∧
    (entryWritten w s).store.unsound = s.store.unsound := by
  simp only [entryWritten]; (repeat' split) <;> simp

end Sys2Proof.Machine
end

