-- ==== Sys2Proof/Laws/Writes.lean ====
section
/-! SUPPORT. What starting the waiting writes, requesting one, and completing one can do to the store. -/

namespace Sys2Proof.Machine

variable (s : State)

/-! ### Starting the waiting writes -/

/-- The first of a list to pass a test, and the list without it. -/
theorem find_eraseP_perm {α : Type} {f : α → Bool} {l : List α} {a : α} (h : l.find? f = some a) :
    List.Perm (a :: l.eraseP f) l := by
  induction l with
  | nil => simp at h
  | cons b rest ih =>
    by_cases hb : f b = true
    · simp_all
    · rw [List.find?_cons_of_neg hb] at h
      rw [List.eraseP_cons_of_neg hb]
      exact (List.Perm.swap b a _).trans ((ih h).cons b)

/-- Everything that State.pump can do: nothing, or with nothing in flight it starts one of the writes that wait, with the values as
they stand. -/
theorem State.pump_spec :
    s.pump = s ∨ ∃ p, s.store.flight = [] ∧ s.store.waiting.find? s.startsNext = some p ∧
      (s.mains = true ∨ (s.holdup = true ∧ p.permittedInHoldup = true)) ∧
      s.pump = s.onStore fun st => { st with flight := [⟨p, p.puts s⟩], waiting := st.waiting.eraseP s.startsNext } := by
  unfold State.pump
  split
  · rename_i p h1 h2
    refine .inr ⟨p, h1, h2, ?_, rfl⟩
    have := List.find?_some h2
    simp only [State.startsNext, Bool.or_eq_true, Bool.and_eq_true] at this
    exact this.imp_right fun h => h.1
  · exact .inl rfl

theorem State.pump_flight_prefix : s.store.flight <+: s.pump.store.flight := by
  rcases s.pump_spec with h | ⟨p, h1, _, _, h2⟩
  · rw [h]
  · rw [h2, h1]; exact List.nil_prefix

theorem State.pump_underWay : List.Perm s.pump.underWay s.underWay := by
  rcases s.pump_spec with h | ⟨p, h1, h2, _, h3⟩
  · rw [h]
  · rw [h3]; simpa [State.underWay, h1] using find_eraseP_perm h2

/-- With at most one write in flight there is still at most one after the next has started. -/
theorem State.pump_oneWrite (h : s.oneWrite) : s.pump.oneWrite := by
  rcases s.pump_spec with k | ⟨p, _, _, _, k⟩
  · rwa [k]
  · rw [k]; simp [State.oneWrite]

/-- In MAINS the oldest write that waits starts when nothing is in flight. -/
theorem State.pump_starts (p : Purpose) (rest : List Purpose) (hm : s.mains = true) (h1 : s.store.flight = [])
    (h2 : s.store.waiting = p :: rest) :
    s.pump = s.onStore fun st => { st with flight := [⟨p, p.puts s⟩], waiting := rest } := by
  have : s.startsNext p = true := by simp [State.startsNext, hm]
  simp [State.pump, State.onStore, h1, h2, this]

/-! ### Requesting a write -/

/-- The requests that may be served by one already waiting. -/
def Purpose.merges : Purpose → Bool
  | .switchRecord => true
  | .supplyRecord => true
  | .evidenceLog _ _ => true
  | _ => false

theorem addRequest_of_not_merges (p : Purpose) (l : List Purpose) (h : p.merges = false) : addRequest p l = l ++ [p] := by
  induction l with
  | nil => rfl
  | cons q rest ih => cases p <;> simp_all [Purpose.merges, addRequest]

/-- A request in MAINS of a write that is never merged. -/
theorem State.request_asks (p : Purpose) (h : p.merges = false) (hm : s.holdup = false ∨ p.permittedInHoldup = true) :
    s.asks (s.request p) p := by
  have hreq : s.request p = (s.onStore fun st => { st with waiting := st.waiting ++ [p] }).pump := by
    unfold State.request
    rw [if_neg (by rcases hm with hm | hm <;> simp [hm])]
    simp only [addRequest_of_not_merges p _ h]
  rw [hreq]
  refine ⟨by simp [State.sameRecords], ?_, ?_⟩
  · simpa using State.pump_flight_prefix (s.onStore fun st => { st with waiting := st.waiting ++ [p] })
  · simpa [State.underWay] using
      State.pump_underWay (s.onStore fun st => { st with waiting := st.waiting ++ [p] })

/-- With nothing in flight or waiting, a write requested in MAINS is in flight at once. -/
theorem State.request_starts (p : Purpose) (h : p.merges = false) (hm : s.mains = true)
    (h1 : s.store.flight = []) (h2 : s.store.waiting = []) :
    (⟨p, p.puts (s.onStore fun st => { st with waiting := [p] })⟩ : Write) ∈ (s.request p).store.flight := by
  have hh : s.holdup = false := by
    simp only [State.mains, State.holdup, beq_iff_eq] at hm ⊢
    simp [hm]
  have hreq : s.request p = (s.onStore fun st => { st with waiting := [p] }).pump := by
    unfold State.request
    rw [if_neg (by simp [hh])]
    simp [State.onStore, addRequest_of_not_merges p _ h, h2]
  rw [hreq, State.pump_starts _ p [] (by simpa [State.mains] using hm) (by simpa using h1) rfl]
  simp

/-- The hold-up limit waits exactly for a write in flight or a permitted one that waits (R167, R168). -/
theorem State.drained_iff :
    s.drained = true ↔ s.store.flight = [] ∧ ∀ p ∈ s.store.waiting, p.permittedInHoldup = false := by
  simp [State.drained]

theorem State.dropWaiting_drained : (s.onStore Store.dropWaiting).drained = s.drained := by
  simp [State.drained, State.onStore, Store.dropWaiting, List.any_filter]

/-! ### Completing a write -/

theorem takeFlight_mem {sel : Purpose → Bool} {l : List Write} {w : Write} {rest : List Write}
    (h : takeFlight sel l = some (w, rest)) : sel w.purpose = true ∧ List.Perm l (w :: rest) ∧ rest.Sublist l := by
  induction l generalizing w rest with
  | nil => simp [takeFlight] at h
  | cons a l ih =>
    unfold takeFlight at h
    split at h
    · rename_i hs
      simp only [Option.some.injEq, Prod.mk.injEq] at h
      obtain ⟨rfl, rfl⟩ := h
      exact ⟨hs, .refl _, List.sublist_cons_self _ _⟩
    · simp only [Option.map_eq_some_iff, Prod.exists, Prod.mk.injEq] at h
      obtain ⟨w', r', h', rfl, rfl⟩ := h
      obtain ⟨h1, h2, h3⟩ := ih h'
      exact ⟨h1, (h2.cons a).trans (List.Perm.swap w' a r'), h3.cons_cons a⟩

@[simp] theorem State.settle_of_mains (h : s.mains = true) : s.settle = s := by
  have hh : s.holdup = false := by
    simp only [State.mains, State.holdup, beq_iff_eq] at h ⊢
    simp [h]
  simp [State.settle, hh]

theorem State.complete_eq {sel : Purpose → Bool} {w : Write} {rest : List Write} (effect : Write → State → State)
    (h : s.completes sel w rest) : s.complete sel effect = (effect w (s.stored w rest)).pump.settle := by
  unfold State.completes at h
  simp [State.complete, h, State.stored]

/-- In MAINS a completion is the effect on the stored state, and then what it lets start. -/
theorem State.complete_mains {sel : Purpose → Bool} {w : Write} {rest : List Write} (effect : Write → State → State)
    (h : s.completes sel w rest) (hm : (effect w (s.stored w rest)).mains = true) :
    s.complete sel effect = (effect w (s.stored w rest)).pump := by
  rw [s.complete_eq effect h, State.settle_of_mains]
  simpa [State.mains] using hm

/-- With no such write in flight a completion command changes nothing. -/
theorem State.complete_none {sel : Purpose → Bool} (effect : Write → State → State)
    (h : takeFlight sel s.store.flight = none) : s.complete sel effect = s := by
  simp [State.complete, h]

end Sys2Proof.Machine
end

