-- ==== Sys2Proof/Laws/Power.lean ====
section
/-! SUPPORT. What the operations that touch every part of the state keep: the changes of power state, the starts, and the
handling of a request. -/

namespace Sys2Proof.Machine

variable (s : State)

/-- What a write carries does not depend on what waits. -/
theorem Purpose.puts_waiting (p : Purpose) (l : List Purpose) :
    p.puts (s.onStore fun st => { st with waiting := l }) = p.puts s := by
  rcases p with _|_|_|_|_|_|⟨_,_,_,_,_|_⟩|_|_|_|_|_|_|_|_|_|_|_|⟨_|_|_|⟨_,_|_⟩|_|_|_,_⟩|_|_|_|_|r <;> rfl

@[simp] theorem State.loseWorking_keeps :
    s.loseWorking.pending = s.pending ∧ s.loseWorking.backup = s.backup ∧ s.loseWorking.store.recs = s.store.recs ∧
    s.loseWorking.store.bad = s.store.bad ∧ s.loseWorking.fresh = s.fresh ∧ s.loseWorking.sw.ls = s.sw.ls := by
  simp [State.loseWorking]

@[simp] theorem State.toBattery_keeps :
    s.toBattery.pending = s.pending ∧ s.toBattery.store.recs = s.store.recs ∧ s.toBattery.store.bad = s.store.bad ∧
    s.toBattery.clock = s.clock ∧ s.toBattery.clockValid = s.clockValid := by
  simp [State.toBattery, State.loseWorking, State.onBackup, State.useFree, State.clock, State.clockValid]

theorem State.settle_cases : s.settle = s ∨ (s.holdup = true ∧ s.settle = s.toBattery) := by
  unfold State.settle
  split
  · rename_i h
    simp only [Bool.and_eq_true] at h
    exact .inr ⟨h.1.1, rfl⟩
  · exact .inl rfl

@[simp] theorem State.settle_keeps :
    s.settle.pending = s.pending ∧ s.settle.store.recs = s.store.recs ∧ s.settle.store.bad = s.store.bad ∧
    s.settle.clock = s.clock ∧ s.settle.clockValid = s.clockValid := by
  rcases s.settle_cases with h | ⟨_, h⟩ <;> simp [h]

theorem State.takeBytes_frame (l : List RxByte) :
    (l.foldl State.takeByte s).pending = s.pending ∧ (l.foldl State.takeByte s).backup = s.backup ∧
    (l.foldl State.takeByte s).reg = s.reg ∧ (l.foldl State.takeByte s).cal = s.cal ∧
    (l.foldl State.takeByte s).acct = s.acct ∧ (l.foldl State.takeByte s).code = s.code ∧
    (l.foldl State.takeByte s).sup = s.sup ∧ (l.foldl State.takeByte s).life = s.life ∧
    (l.foldl State.takeByte s).fresh = s.fresh ∧ (l.foldl State.takeByte s).store.recs = s.store.recs ∧
    (l.foldl State.takeByte s).store.bad = s.store.bad ∧
    (l.foldl State.takeByte s).store.unsound = s.store.unsound := by
  induction l generalizing s with
  | nil => simp
  | cons a l ih => simpa using ih (s.takeByte a)

@[simp] theorem State.takeFrame_frame (l : List RxByte) :
    (s.takeFrame l).pending = s.pending ∧ (s.takeFrame l).backup = s.backup ∧ (s.takeFrame l).reg = s.reg ∧
    (s.takeFrame l).cal = s.cal ∧ (s.takeFrame l).acct = s.acct ∧ (s.takeFrame l).code = s.code ∧
    (s.takeFrame l).sup = s.sup ∧ (s.takeFrame l).life = s.life ∧ (s.takeFrame l).fresh = s.fresh ∧
    (s.takeFrame l).store.recs = s.store.recs ∧ (s.takeFrame l).store.bad = s.store.bad ∧
    (s.takeFrame l).store.unsound = s.store.unsound := by
  unfold State.takeFrame
  split
  · exact s.takeBytes_frame l
  · simp

@[simp] theorem State.requestAll_frame (l : List Purpose) :
    (l.foldl (fun x p => x.request p) s).pending = s.pending ∧ (l.foldl (fun x p => x.request p) s).backup = s.backup ∧
    (l.foldl (fun x p => x.request p) s).reg = s.reg ∧ (l.foldl (fun x p => x.request p) s).cal = s.cal ∧
    (l.foldl (fun x p => x.request p) s).acct = s.acct ∧ (l.foldl (fun x p => x.request p) s).code = s.code ∧
    (l.foldl (fun x p => x.request p) s).sw = s.sw ∧ (l.foldl (fun x p => x.request p) s).sup = s.sup ∧
    (l.foldl (fun x p => x.request p) s).tam = s.tam ∧ (l.foldl (fun x p => x.request p) s).life = s.life ∧
    (l.foldl (fun x p => x.request p) s).link = s.link ∧ (l.foldl (fun x p => x.request p) s).fresh = s.fresh ∧
    (l.foldl (fun x p => x.request p) s).store.recs = s.store.recs ∧
    (l.foldl (fun x p => x.request p) s).store.bad = s.store.bad ∧
    (l.foldl (fun x p => x.request p) s).store.unsound = s.store.unsound := by
  induction l generalizing s with
  | nil => simp
  | cons b l ih => simpa using ih (s.request b)

@[simp] theorem State.dip_keeps :
    s.dip.pending = s.pending ∧ s.dip.code = s.code ∧ s.dip.life = s.life ∧ s.dip.store.recs = s.store.recs ∧
    s.dip.store.bad = s.store.bad ∧ s.dip.store.unsound = s.store.unsound ∧ s.dip.backup.power = .mains ∧
    s.dip.backup.domain = s.backup.domain ∧ s.dip.clock = s.clock ∧ s.dip.clockValid = s.clockValid := by
  simp [State.dip, Retained.atDip, State.clock, State.clockValid]

@[simp] theorem State.respondHoldup_keeps :
    s.respondHoldup.pending = s.pending ∧ s.respondHoldup.sup = s.sup ∧
    s.respondHoldup.store.recs = s.store.recs ∧ s.respondHoldup.store.bad = s.store.bad ∧
    s.respondHoldup.store.unsound = s.store.unsound ∧ s.respondHoldup.backup.power = s.backup.power ∧
    s.respondHoldup.backup.domain = s.backup.domain ∧ s.respondHoldup.clock = s.clock ∧
    s.respondHoldup.clockValid = s.clockValid := by
  simp [State.respondHoldup, State.clock, State.clockValid, State.windowHoldup]
  split <;> simp [Store.dropWaiting]

/-- What a request command can do: nothing, take or discard the frame it stands for, or have its owner examine it. -/
theorem State.onRequest_cases (kind : Byte) (payload : List Byte) (examine : State → State) :
    s.onRequest kind payload examine = s ∨ s.onRequest kind payload examine = s.validFrame kind payload ∨
    (s.examines kind payload ∧ s.onRequest kind payload examine = examine s) ∨
    (s.linkUp = true ∧ s.link.inHand = none ∧ lengthOk kind payload = some true ∧
      s.onRequest kind payload examine = examine (s.validFrame kind payload)) := by
  unfold State.onRequest State.examines
  (repeat' split) <;> simp_all

/-- A property that validFrame and the owner's examination keep is kept by the request command. -/
theorem State.onRequest_induct {P : State → Prop} (kind : Byte) (payload : List Byte) (examine : State → State)
    (h : P s) (hv : P s → P (s.validFrame kind payload)) (he : ∀ x, P x → P (examine x)) :
    P (s.onRequest kind payload examine) := by
  rcases s.onRequest_cases kind payload examine with e | e | ⟨_, e⟩ | ⟨_, _, _, e⟩ <;> rw [e]
  · exact h
  · exact hv h
  · exact he _ h
  · exact he _ (hv h)

/-- A request in hand is examined by its owner. -/
theorem State.onRequest_examines {kind : Byte} {payload : List Byte} (examine : State → State)
    (h : s.examines kind payload) : s.onRequest kind payload examine = examine s := by
  obtain ⟨h1, h2⟩ := h
  simp [State.onRequest, h1, h2]

end Sys2Proof.Machine
end

