-- ==== Sys2Proof/Laws/Switch.lean ====
section
/-! SUPPORT. The operations that move the switch change nothing of the tamper unit but the suspension of its bypass counting,
and nothing of the switch's record, inputs and coil lines but what they are for. -/

namespace Sys2Proof.Machine

variable (s : State)

@[simp] theorem State.beginOperation_evidence (target : SwitchState) :
    (s.beginOperation target).tam.evidence = s.tam.evidence ∧ (s.beginOperation target).tam.slots = s.tam.slots ∧
    (s.beginOperation target).tam.coverOpen = s.tam.coverOpen ∧
    (s.beginOperation target).tam.termOpen = s.tam.termOpen ∧ (s.beginOperation target).tam.magnet = s.tam.magnet ∧
    (s.beginOperation target).tam.reverse = s.tam.reverse ∧ (s.beginOperation target).tam.residual = s.tam.residual ∧
    (s.beginOperation target).tam.voltageCut = s.tam.voltageCut ∧
    (s.beginOperation target).tam.bypass = s.tam.bypass ∧
    (s.beginOperation target).tam.codeAttack = s.tam.codeAttack ∧
    (s.beginOperation target).tam.linkSilence = s.tam.linkSilence ∧
    (s.beginOperation target).tam.relayFault = s.tam.relayFault ∧
    (s.beginOperation target).tam.clearing = s.tam.clearing ∧
    (s.beginOperation target).tam.entryHold = s.tam.entryHold ∧
    (s.beginOperation target).tam.heldBack = s.tam.heldBack := by
  simp [State.beginOperation]

@[simp] theorem State.judgeRest_evidence :
    (s.judgeRest).tam.evidence = s.tam.evidence ∧ (s.judgeRest).tam.slots = s.tam.slots ∧
    (s.judgeRest).tam.coverOpen = s.tam.coverOpen ∧ (s.judgeRest).tam.termOpen = s.tam.termOpen ∧
    (s.judgeRest).tam.magnet = s.tam.magnet ∧ (s.judgeRest).tam.reverse = s.tam.reverse ∧
    (s.judgeRest).tam.residual = s.tam.residual ∧ (s.judgeRest).tam.voltageCut = s.tam.voltageCut ∧
    (s.judgeRest).tam.bypass = s.tam.bypass ∧ (s.judgeRest).tam.codeAttack = s.tam.codeAttack ∧
    (s.judgeRest).tam.linkSilence = s.tam.linkSilence ∧ (s.judgeRest).tam.relayFault = s.tam.relayFault ∧
    (s.judgeRest).tam.clearing = s.tam.clearing ∧ (s.judgeRest).tam.entryHold = s.tam.entryHold ∧
    (s.judgeRest).tam.heldBack = s.tam.heldBack := by
  unfold State.judgeRest; (repeat' split) <;> simp

@[simp] theorem State.handHold_evidence (r : Hold) (b : Bool) :
    (s.handHold r b).tam.evidence = s.tam.evidence ∧ (s.handHold r b).tam.slots = s.tam.slots ∧
    (s.handHold r b).tam.coverOpen = s.tam.coverOpen ∧ (s.handHold r b).tam.termOpen = s.tam.termOpen ∧
    (s.handHold r b).tam.magnet = s.tam.magnet ∧ (s.handHold r b).tam.reverse = s.tam.reverse ∧
    (s.handHold r b).tam.residual = s.tam.residual ∧ (s.handHold r b).tam.voltageCut = s.tam.voltageCut ∧
    (s.handHold r b).tam.bypass = s.tam.bypass ∧ (s.handHold r b).tam.codeAttack = s.tam.codeAttack ∧
    (s.handHold r b).tam.linkSilence = s.tam.linkSilence ∧ (s.handHold r b).tam.relayFault = s.tam.relayFault ∧
    (s.handHold r b).tam.clearing = s.tam.clearing ∧ (s.handHold r b).tam.entryHold = s.tam.entryHold ∧
    (s.handHold r b).tam.heldBack = s.tam.heldBack := by
  unfold State.handHold; (repeat' split) <;> simp

@[simp] theorem State.judgeTamper_evidence :
    (s.judgeTamper).tam.evidence = s.tam.evidence ∧ (s.judgeTamper).tam.slots = s.tam.slots ∧
    (s.judgeTamper).tam.coverOpen = s.tam.coverOpen ∧ (s.judgeTamper).tam.termOpen = s.tam.termOpen ∧
    (s.judgeTamper).tam.magnet = s.tam.magnet ∧ (s.judgeTamper).tam.reverse = s.tam.reverse ∧
    (s.judgeTamper).tam.residual = s.tam.residual ∧ (s.judgeTamper).tam.voltageCut = s.tam.voltageCut ∧
    (s.judgeTamper).tam.bypass = s.tam.bypass ∧ (s.judgeTamper).tam.codeAttack = s.tam.codeAttack ∧
    (s.judgeTamper).tam.linkSilence = s.tam.linkSilence ∧ (s.judgeTamper).tam.relayFault = s.tam.relayFault ∧
    (s.judgeTamper).tam.clearing = s.tam.clearing ∧ (s.judgeTamper).tam.entryHold = s.tam.entryHold ∧
    (s.judgeTamper).tam.heldBack = s.tam.heldBack := by
  unfold State.judgeTamper; (repeat' split) <;> simp

@[simp] theorem State.creditTest_evidence (always : Bool) :
    (s.creditTest always).tam.evidence = s.tam.evidence ∧ (s.creditTest always).tam.slots = s.tam.slots ∧
    (s.creditTest always).tam.coverOpen = s.tam.coverOpen ∧ (s.creditTest always).tam.termOpen = s.tam.termOpen ∧
    (s.creditTest always).tam.magnet = s.tam.magnet ∧ (s.creditTest always).tam.reverse = s.tam.reverse ∧
    (s.creditTest always).tam.residual = s.tam.residual ∧ (s.creditTest always).tam.voltageCut = s.tam.voltageCut ∧
    (s.creditTest always).tam.bypass = s.tam.bypass ∧ (s.creditTest always).tam.codeAttack = s.tam.codeAttack ∧
    (s.creditTest always).tam.linkSilence = s.tam.linkSilence ∧
    (s.creditTest always).tam.relayFault = s.tam.relayFault ∧ (s.creditTest always).tam.clearing = s.tam.clearing ∧
    (s.creditTest always).tam.entryHold = s.tam.entryHold ∧ (s.creditTest always).tam.heldBack = s.tam.heldBack := by
  unfold State.creditTest; (repeat' split) <;> simp

@[simp] theorem State.evalFriendly_evidence :
    (s.evalFriendly).tam.evidence = s.tam.evidence ∧ (s.evalFriendly).tam.slots = s.tam.slots ∧
    (s.evalFriendly).tam.coverOpen = s.tam.coverOpen ∧ (s.evalFriendly).tam.termOpen = s.tam.termOpen ∧
    (s.evalFriendly).tam.magnet = s.tam.magnet ∧ (s.evalFriendly).tam.reverse = s.tam.reverse ∧
    (s.evalFriendly).tam.residual = s.tam.residual ∧ (s.evalFriendly).tam.voltageCut = s.tam.voltageCut ∧
    (s.evalFriendly).tam.bypass = s.tam.bypass ∧ (s.evalFriendly).tam.codeAttack = s.tam.codeAttack ∧
    (s.evalFriendly).tam.linkSilence = s.tam.linkSilence ∧ (s.evalFriendly).tam.relayFault = s.tam.relayFault ∧
    (s.evalFriendly).tam.clearing = s.tam.clearing ∧ (s.evalFriendly).tam.entryHold = s.tam.entryHold ∧
    (s.evalFriendly).tam.heldBack = s.tam.heldBack := by
  simp only [State.evalFriendly]; (repeat' split) <;> simp

@[simp] theorem State.newMinute_evidence :
    (s.newMinute).tam.evidence = s.tam.evidence ∧ (s.newMinute).tam.slots = s.tam.slots ∧
    (s.newMinute).tam.coverOpen = s.tam.coverOpen ∧ (s.newMinute).tam.termOpen = s.tam.termOpen ∧
    (s.newMinute).tam.magnet = s.tam.magnet ∧ (s.newMinute).tam.reverse = s.tam.reverse ∧
    (s.newMinute).tam.residual = s.tam.residual ∧ (s.newMinute).tam.voltageCut = s.tam.voltageCut ∧
    (s.newMinute).tam.bypass = s.tam.bypass ∧ (s.newMinute).tam.codeAttack = s.tam.codeAttack ∧
    (s.newMinute).tam.linkSilence = s.tam.linkSilence ∧ (s.newMinute).tam.relayFault = s.tam.relayFault ∧
    (s.newMinute).tam.clearing = s.tam.clearing ∧ (s.newMinute).tam.entryHold = s.tam.entryHold ∧
    (s.newMinute).tam.heldBack = s.tam.heldBack := by
  unfold State.newMinute; (repeat' split) <;> simp

@[simp] theorem State.trip_evidence :
    (s.trip).tam.evidence = s.tam.evidence ∧ (s.trip).tam.slots = s.tam.slots ∧
    (s.trip).tam.coverOpen = s.tam.coverOpen ∧ (s.trip).tam.termOpen = s.tam.termOpen ∧
    (s.trip).tam.magnet = s.tam.magnet ∧ (s.trip).tam.reverse = s.tam.reverse ∧
    (s.trip).tam.residual = s.tam.residual ∧ (s.trip).tam.voltageCut = s.tam.voltageCut ∧
    (s.trip).tam.bypass = s.tam.bypass ∧ (s.trip).tam.codeAttack = s.tam.codeAttack ∧
    (s.trip).tam.linkSilence = s.tam.linkSilence ∧ (s.trip).tam.relayFault = s.tam.relayFault ∧
    (s.trip).tam.clearing = s.tam.clearing ∧ (s.trip).tam.entryHold = s.tam.entryHold ∧
    (s.trip).tam.heldBack = s.tam.heldBack := by
  simp [State.trip]

@[simp] theorem State.superviseBlock_evidence (w : SwitchState) (n : Nat) :
    (s.superviseBlock w n).tam.evidence = s.tam.evidence ∧ (s.superviseBlock w n).tam.slots = s.tam.slots ∧
    (s.superviseBlock w n).tam.coverOpen = s.tam.coverOpen ∧ (s.superviseBlock w n).tam.termOpen = s.tam.termOpen ∧
    (s.superviseBlock w n).tam.magnet = s.tam.magnet ∧ (s.superviseBlock w n).tam.reverse = s.tam.reverse ∧
    (s.superviseBlock w n).tam.residual = s.tam.residual ∧ (s.superviseBlock w n).tam.voltageCut = s.tam.voltageCut ∧
    (s.superviseBlock w n).tam.bypass = s.tam.bypass ∧ (s.superviseBlock w n).tam.codeAttack = s.tam.codeAttack ∧
    (s.superviseBlock w n).tam.linkSilence = s.tam.linkSilence ∧
    (s.superviseBlock w n).tam.relayFault = s.tam.relayFault ∧ (s.superviseBlock w n).tam.clearing = s.tam.clearing ∧
    (s.superviseBlock w n).tam.entryHold = s.tam.entryHold ∧
    (s.superviseBlock w n).tam.heldBack = s.tam.heldBack := by
  unfold State.superviseBlock; (repeat' split) <;> simp

@[simp] theorem State.judgeCompletion_evidence (o : Bool) :
    (s.judgeCompletion o).tam.evidence = s.tam.evidence ∧ (s.judgeCompletion o).tam.slots = s.tam.slots ∧
    (s.judgeCompletion o).tam.coverOpen = s.tam.coverOpen ∧ (s.judgeCompletion o).tam.termOpen = s.tam.termOpen ∧
    (s.judgeCompletion o).tam.magnet = s.tam.magnet ∧ (s.judgeCompletion o).tam.reverse = s.tam.reverse ∧
    (s.judgeCompletion o).tam.residual = s.tam.residual ∧ (s.judgeCompletion o).tam.voltageCut = s.tam.voltageCut ∧
    (s.judgeCompletion o).tam.bypass = s.tam.bypass ∧ (s.judgeCompletion o).tam.codeAttack = s.tam.codeAttack ∧
    (s.judgeCompletion o).tam.linkSilence = s.tam.linkSilence ∧
    (s.judgeCompletion o).tam.relayFault = s.tam.relayFault ∧ (s.judgeCompletion o).tam.clearing = s.tam.clearing ∧
    (s.judgeCompletion o).tam.entryHold = s.tam.entryHold ∧ (s.judgeCompletion o).tam.heldBack = s.tam.heldBack := by
  unfold State.judgeCompletion; (repeat' split) <;> simp

@[simp] theorem State.completeOperation_evidence (t : Nat) :
    (s.completeOperation t).tam.evidence = s.tam.evidence ∧ (s.completeOperation t).tam.slots = s.tam.slots ∧
    (s.completeOperation t).tam.coverOpen = s.tam.coverOpen ∧ (s.completeOperation t).tam.termOpen = s.tam.termOpen ∧
    (s.completeOperation t).tam.magnet = s.tam.magnet ∧ (s.completeOperation t).tam.reverse = s.tam.reverse ∧
    (s.completeOperation t).tam.residual = s.tam.residual ∧
    (s.completeOperation t).tam.voltageCut = s.tam.voltageCut ∧ (s.completeOperation t).tam.bypass = s.tam.bypass ∧
    (s.completeOperation t).tam.codeAttack = s.tam.codeAttack ∧
    (s.completeOperation t).tam.linkSilence = s.tam.linkSilence ∧
    (s.completeOperation t).tam.relayFault = s.tam.relayFault ∧
    (s.completeOperation t).tam.clearing = s.tam.clearing ∧ (s.completeOperation t).tam.entryHold = s.tam.entryHold ∧
    (s.completeOperation t).tam.heldBack = s.tam.heldBack := by
  simp [State.completeOperation]

@[simp] theorem State.setSensed_evidence :
    (s.setSensed).tam.evidence = s.tam.evidence ∧ (s.setSensed).tam.slots = s.tam.slots ∧
    (s.setSensed).tam.coverOpen = s.tam.coverOpen ∧ (s.setSensed).tam.termOpen = s.tam.termOpen ∧
    (s.setSensed).tam.magnet = s.tam.magnet ∧ (s.setSensed).tam.reverse = s.tam.reverse ∧
    (s.setSensed).tam.residual = s.tam.residual ∧ (s.setSensed).tam.voltageCut = s.tam.voltageCut ∧
    (s.setSensed).tam.bypass = s.tam.bypass ∧ (s.setSensed).tam.codeAttack = s.tam.codeAttack ∧
    (s.setSensed).tam.linkSilence = s.tam.linkSilence ∧ (s.setSensed).tam.relayFault = s.tam.relayFault ∧
    (s.setSensed).tam.clearing = s.tam.clearing ∧ (s.setSensed).tam.entryHold = s.tam.entryHold ∧
    (s.setSensed).tam.heldBack = s.tam.heldBack := by
  simp only [State.setSensed]; (repeat' split) <;> simp

@[simp] theorem State.backoffTest_evidence :
    (s.backoffTest).tam.evidence = s.tam.evidence ∧ (s.backoffTest).tam.slots = s.tam.slots ∧
    (s.backoffTest).tam.coverOpen = s.tam.coverOpen ∧ (s.backoffTest).tam.termOpen = s.tam.termOpen ∧
    (s.backoffTest).tam.magnet = s.tam.magnet ∧ (s.backoffTest).tam.reverse = s.tam.reverse ∧
    (s.backoffTest).tam.residual = s.tam.residual ∧ (s.backoffTest).tam.voltageCut = s.tam.voltageCut ∧
    (s.backoffTest).tam.bypass = s.tam.bypass ∧ (s.backoffTest).tam.codeAttack = s.tam.codeAttack ∧
    (s.backoffTest).tam.linkSilence = s.tam.linkSilence ∧ (s.backoffTest).tam.relayFault = s.tam.relayFault ∧
    (s.backoffTest).tam.clearing = s.tam.clearing ∧ (s.backoffTest).tam.entryHold = s.tam.entryHold ∧
    (s.backoffTest).tam.heldBack = s.tam.heldBack := by
  unfold State.backoffTest; (repeat' split) <;> simp

@[simp] theorem State.beginOperation_switch (target : SwitchState) :
    (s.beginOperation target).sw = { s.sw with state := target, attempt := 1, progress := .waiting } := by
  simp [State.beginOperation]

@[simp] theorem State.toRest_switch (target : SwitchState) :
    (s.toRest target).sw = { s.sw with state := target, attempt := 0, progress := .idle } := by
  simp [State.toRest]

@[simp] theorem State.judgeRest_switch :
    s.judgeRest.sw.record = s.sw.record ∧ s.judgeRest.sw.ls = s.sw.ls ∧ s.judgeRest.sw.drive = s.sw.drive ∧
    s.judgeRest.sw.sensing = s.sw.sensing := by
  unfold State.judgeRest; (repeat' split) <;> simp

@[simp] theorem State.handHold_switch (r : Hold) (b : Bool) :
    (s.handHold r b).sw.ls = s.sw.ls ∧ (s.handHold r b).sw.drive = s.sw.drive ∧
    (s.handHold r b).sw.sensing = s.sw.sensing ∧ (s.handHold r b).sw.record.codeLimit = s.sw.record.codeLimit ∧
    (∀ k, k ≠ r → (s.handHold r b).sw.record.holds.has k = s.sw.record.holds.has k) := by
  unfold State.handHold
  (repeat' split) <;> simp
  intro k hk
  cases r <;> cases k <;> simp_all [HoldSet.put, HoldSet.has]

end Sys2Proof.Machine
end

