-- ==== Sys2Proof/Laws/Claims.lean ====
section
/-! SUPPORT. Lemmas about the terms of Safety.lean, and what the most cited operations bring about. -/

namespace Sys2Proof.Machine

variable (s : State)

/-! ### Terms of the claims -/

theorem State.agreeBut_iff (changed : List Part) (t : State) : State.agreeBut changed s t ↔
    ((.pending ∉ changed → t.pending = s.pending) ∧ (.backup ∉ changed → t.backup = s.backup) ∧
    (.store ∉ changed → t.store = s.store) ∧ (.reg ∉ changed → t.reg = s.reg) ∧ (.cal ∉ changed → t.cal = s.cal) ∧
    (.acct ∉ changed → t.acct = s.acct) ∧ (.code ∉ changed → t.code = s.code) ∧ (.sw ∉ changed → t.sw = s.sw) ∧
    (.sup ∉ changed → t.sup = s.sup) ∧ (.tam ∉ changed → t.tam = s.tam) ∧ (.life ∉ changed → t.life = s.life) ∧
    (.link ∉ changed → t.link = s.link) ∧ (.fresh ∉ changed → t.fresh = s.fresh)) := by
  constructor
  · intro h
    exact ⟨h .pending, h .backup, h .store, h .reg, h .cal, h .acct, h .code, h .sw, h .sup, h .tam, h .life, h .link,
      h .fresh⟩
  · rintro ⟨h1, h2, h3, h4, h5, h6, h7, h8, h9, h10, h11, h12, h13⟩ p
    cases p <;> assumption

theorem State.mains_not_holdup (h : s.mains = true) : s.holdup = false := by
  simp only [State.mains, State.holdup, beq_iff_eq] at *
  simp [h]

theorem State.settle_of_not_expired (h : s.backup.limitExpired = false) : s.settle = s := by
  simp [State.settle, h]

theorem State.answer_replied (st : Status) (body : List Byte) : s.replied (s.answer st body) st body := by
  simp [State.replied, State.answer, Link.atStage]

theorem State.answer_onlyReplied (st : Status) (body : List Byte) : s.onlyReplied (s.answer st body) st body :=
  ⟨s.answer_replied st body, by simp [State.agreeBut_iff]⟩

/-- A request that is taken and waits for a write that is never merged. -/
theorem State.await_request_onlyWaits (p : Purpose) (h : p.merges = false)
    (hm : s.holdup = false ∨ p.permittedInHoldup = true) : s.onlyWaits (s.await.request p) p := by
  refine ⟨by simp [State.await, Link.atStage], ?_, by simp [State.agreeBut_iff]⟩
  have := s.await.request_asks p h (by simpa [State.holdup] using hm)
  simpa [State.asks, State.sameRecords, State.underWay] using this

/-! ### Notices -/

theorem State.pend_mem (n : Notice) : n ∈ (s.pend n).link.notices := by
  simp only [State.pend, State.onLink]
  split <;> simp_all

theorem State.pend_keeps_mem (n m : Notice) (h : m ∈ s.link.notices) : m ∈ (s.pend n).link.notices := by
  simp only [State.pend, State.onLink]
  split <;> simp_all

/-! ### Holds -/

/-- After an owner's handover its reason stands as handed over, unless COMMISSIONING ignores the addition (R101, R102). -/
theorem State.handHold_has (r : Hold) (b : Bool)
    (h : (b && s.life.state == .commissioning && Hold.notInCommissioning r) = false) :
    (s.handHold r b).sw.record.holds.has r = b := by
  unfold State.handHold
  rw [if_neg (by simp [h])]
  split
  · assumption
  · cases r <;> simp [HoldSet.put, HoldSet.has]

/-! ### The log -/

/-- An appended record stands at the newest end under the next number (R159). -/
theorem State.appendRecord_last (r : EvRecord) :
    ∃ slot, (s.appendRecord r).tam.evidence.log.getLast? =
      some { r with number := s.tam.evidence.next, slot := slot } := by
  simp only [State.appendRecord]
  generalize ((s.policy r.cls).snapshot && r.cls.snapshotable && s.mains && !r.onBattery) = seek
  simp only [logAppend]
  cases seek
  · exact ⟨none, by simp⟩
  · cases h : chooseSlot (makeRoom s.tam.evidence.log s.tam.slots).1 (makeRoom s.tam.evidence.log s.tam.slots).2 with
    | none => exact ⟨none, by simp⟩
    | some x => exact ⟨some x.1, by simp⟩

theorem State.appendRecord_next (r : EvRecord) :
    (s.appendRecord r).tam.evidence.next = nextNumber s.tam.evidence.next := by
  simp only [State.appendRecord]
  generalize ((s.policy r.cls).snapshot && r.cls.snapshotable && s.mains && !r.onBattery) = seek
  simp only [logAppend]
  cases seek
  · simp
  · cases h : chooseSlot (makeRoom s.tam.evidence.log s.tam.slots).1 (makeRoom s.tam.evidence.log s.tam.slots).2 with
    | none => simp
    | some x => simp

/-! ### What a start finds -/

/-- Committed one after the other, writes store what they carry. -/
theorem Store.commit_recs_foldl (ws : List Write) (st : Store) :
    (ws.foldl Store.commit st).recs = (ws.flatMap Write.puts).foldl Records.put st.recs := by
  induction ws generalizing st with
  | nil => rfl
  | cons w rest ih => simp [ih, Store.commit, List.foldl_append]

theorem Store.commit_flight_foldl (ws : List Write) (st : Store) : (ws.foldl Store.commit st).flight = st.flight := by
  induction ws generalizing st with
  | nil => rfl
  | cons w rest ih => simp [ih, Store.commit]

theorem Store.commit_waiting_foldl (ws : List Write) (st : Store) : (ws.foldl Store.commit st).waiting = st.waiting := by
  induction ws generalizing st with
  | nil => rfl
  | cons w rest ih => simp [ih, Store.commit]

theorem Store.mem_commit_bad_foldl (ws : List Write) (st : Store) (r : Record) :
    r ∈ (ws.foldl Store.commit st).bad ↔ r ∈ st.bad ∧ ∀ w ∈ ws, r ∉ w.purpose.covers := by
  induction ws generalizing st with
  | nil => simp
  | cons w rest ih => simp [ih, Store.commit, and_assoc]

theorem State.absorb_store : s.absorb.store = s.store.completeAll := by
  unfold State.absorb
  split <;> rfl

/-- What a start finds stored, and which records it finds failing (R175, R184). -/
theorem State.absorbAtStart_spec :
    s.absorbAtStart.store.recs = s.recordsFound ∧ s.absorbAtStart.store.flight = [] ∧ s.absorbAtStart.store.waiting = [] ∧
      ∀ r, r ∈ s.absorbAtStart.store.bad ↔
        r ∈ s.store.bad ∧ ∀ w ∈ s.store.flight ++ s.waitingPermitted, r ∉ w.purpose.covers := by
  simp only [State.absorbAtStart, State.onStore, State.absorb_store, Store.completeAll, Store.commit_recs_foldl,
    Store.commit_flight_foldl, Store.commit_waiting_foldl, Store.mem_commit_bad_foldl, State.recordsFound, State.carried,
    List.foldl_append, List.mem_append, and_assoc]
  simp only [true_and]
  refine fun r => and_congr_right fun _ => ?_
  constructor
  · rintro ⟨h1, h2⟩ w (h | h)
    exacts [h1 w h, h2 w h]
  · intro h
    exact ⟨fun w hw => h w (.inl hw), fun w hw => h w (.inr hw)⟩

/-! ### The log at entry -/

/-- The records appended again at entry: their classes and states stay, and they take at most the slots from k on. -/
theorem appendAgain_spec (time : Option Nat) (seeks : EvClass → Bool) (trace : List Summary) (n k : Nat) (l : List EvRecord) :
    (appendAgain time seeks trace n k l).1.map EvRecord.cls = l.map EvRecord.cls ∧
      (appendAgain time seeks trace n k l).1.map EvRecord.state = l.map EvRecord.state ∧
      (appendAgain time seeks trace n k l).2.length ≤ 4 - k := by
  induction l generalizing n k with
  | nil => simp [appendAgain]
  | cons r rest ih =>
    unfold appendAgain
    split
    · rename_i h
      obtain ⟨h1, h2, h3⟩ := ih (n + 1) (k + 1)
      simp at h
      refine ⟨by simp [h1], by simp [h2], by simp; omega⟩
    · obtain ⟨h1, h2, h3⟩ := ih (n + 1) k
      exact ⟨by simp [h1], by simp [h2], h3⟩

end Sys2Proof.Machine
end

