-- ==== Sys2Proof/Laws/Contents.lean ====
section
/-! SUPPORT. What the writes carry, and what the shared operations of registration, of the account's queue, of the log and of the
sections bring about, in the terms of Safety.lean. -/

namespace Sys2Proof.Machine

/-! ### The account's queue -/

theorem quantaJoined_joinQuanta (time : Option Nat) (n : Nat) (q : List Entry) :
    quantaJoined time n q (joinQuanta time n q) := by
  unfold quantaJoined joinQuanta
  refine ⟨fun h => by simp [h], fun h k => by rw [if_neg (by omega), if_neg (by omega)], fun h k => ?_⟩
  rw [if_neg (by omega), if_pos k]
  replace k : q.any Entry.isQuanta = true := by
    by_contra hn
    have : q.filter Entry.isQuanta = [] := by simpa using hn
    simp [this] at k
  clear h
  induction q with
  | nil => simp at k
  | cons e rest ih =>
    by_cases hr : rest.any Entry.isQuanta = true
    · obtain ⟨older, t, m, newer, h1, h2, h3⟩ := ih hr
      refine ⟨e :: older, t, m, newer, by simp [h1], h2, ?_⟩
      cases e <;> simp [mergeNewest, hr, h3]
    · have hn : ∀ x ∈ rest, x.isQuanta = false := by simpa using hr
      cases e with
      | quanta t m => exact ⟨[], t, m, rest, rfl, hn, by simp [mergeNewest, hr]⟩
      | _ => simp [Entry.isQuanta, hr] at k

theorem boundaryPlaced_placeBoundary (e : Entry) (p : Nat) (q : List Entry) :
    boundaryPlaced e p q (placeBoundary e p q) := by
  induction q with
  | nil => exact ⟨[], [], rfl, rfl, by simp, .inl rfl⟩
  | cons x rest ih =>
    obtain ⟨ahead, behind, h1, h2, h3, h4⟩ := ih
    have step : (∀ t n, x = .quanta (some t) n → t / 86400 ≤ p) → placeBoundary e p (x :: rest) = x :: placeBoundary e p rest →
        boundaryPlaced e p (x :: rest) (placeBoundary e p (x :: rest)) := fun hx hp =>
      ⟨x :: ahead, behind, by simp [h1], by rw [hp, h2]; rfl, by
        intro t n hm
        rcases List.mem_cons.1 hm with hm | hm
        exacts [hx t n hm.symm, h3 t n hm], h4⟩
    match x with
    | .quanta (some t) n =>
      by_cases ht : p < dayOf t
      · exact ⟨[], .quanta (some t) n :: rest, rfl, by simp [placeBoundary, ht], by simp, .inr ⟨t, n, rest, rfl, ht⟩⟩
      · refine step (fun t' n' h => ?_) (by simp [placeBoundary, ht])
        cases h
        simpa [dayOf] using ht
    | .quanta none _ => exact step (by simp) rfl
    | .dayBoundary _ _ _ => exact step (by simp) rfl
    | .dayAdoption _ => exact step (by simp) rfl
    | .code _ _ _ => exact step (by simp) rfl
    | .emergency => exact step (by simp) rfl
    | .entry => exact step (by simp) rfl

/-! ### Registration -/

theorem greatestTerm_registeredEnergy (m : MeasureSettings) (energy irms : Nat) (magnet cut : Bool) (l : List Nat) (k : Nat) :
    greatestTerm m magnet cut l[k]? energy irms (registeredEnergy m energy irms (magnet || l.getD k 0 == 16) cut) := by
  have hs : (l.getD k 0 == 16) = decide (l[k]? = some 16) := by
    rw [List.getD_eq_getElem?_getD]
    cases l[k]? <;> simp
    rfl
  rw [hs]
  unfold greatestTerm registeredEnergy estimate
  by_cases hm : magnet = true <;> by_cases hk : l[k]? = some 16 <;> by_cases hc : cut = true <;> simp [hm, hk, hc] <;> omega

theorem Registered.byTerms_registerBlock (cal : CalSettings) (m : MeasureSettings) (inp : BlockInputs) (acc : Accumulators)
    (counts : List Nat) (b : BlockResult) : (registerBlock cal m inp acc counts b).byTerms cal m inp acc b := by
  unfold Registered.byTerms
  refine ⟨greatestTerm_registeredEnergy .., greatestTerm_registeredEnergy .., greatestTerm_registeredEnergy .., ?_, ?_, ?_⟩
  · intro h1 h2
    simp [registerBlock, h1, h2, estimate, Tri.sum]
  · intro h
    rcases h with h | h <;> simp [registerBlock, h, Tri.sum]
  · simp [registerBlock, Tri.map]

theorem identical_iff (f : SampleSet → BitVec 16) (l : List SampleSet) :
    identical f l = true ↔ ∀ x ∈ l, ∀ y ∈ l, f x = f y := by
  cases l with
  | nil => simp [identical]
  | cons a rest =>
    simp only [identical, List.all_eq_true, beq_iff_eq]
    constructor
    · intro h
      have h' : ∀ x ∈ a :: rest, f x = f a := by simpa using h
      exact fun x hx y hy => (h' x hx).trans (h' y hy).symm
    · exact fun h y hy => h y (by simp [hy]) a (by simp)

theorem stuckCounted_zipWith (samples : List SampleSet) (before : List Nat) :
    stuckCounted samples before (List.zipWith stuckAfter before (blockResult samples).same) := by
  have hs : (blockResult samples).same = channels.map fun f => identical f samples := rfl
  unfold stuckCounted
  refine ⟨fun h => by simp [h, hs, channels], fun k f n hf hn => ?_⟩
  rw [hs, List.getElem?_zipWith, hn, List.getElem?_map, hf]
  constructor <;> intro h
  · simp [stuckAfter, (identical_iff f samples).2 h]
  · simp [stuckAfter, mt (identical_iff f samples).1 h]

theorem sumInt_eq (f : SampleSet → Int) (l : List SampleSet) : sumInt f l = (l.map f).sum := by
  have : ∀ (l : List SampleSet) (a : Int), l.foldl (fun acc x => acc + f x) a = a + (l.map f).sum := by
    intro l
    induction l with
    | nil => simp
    | cons x rest ih => intro a; simp [ih, Int.add_assoc]
  simpa [sumInt] using this l 0

theorem square_eq (z : Int) : (square z : Int) = z ^ 2 := by simp [square, pow_two]

theorem sumSquare_eq (f : SampleSet → Int) (l : List SampleSet) : (sumSquare f l : Int) = (l.map fun x => f x ^ 2).sum := by
  have : ∀ (l : List SampleSet) (a : Nat),
      ((l.foldl (fun acc x => acc + square (f x)) a : Nat) : Int) = a + (l.map fun x => f x ^ 2).sum := by
    intro l
    induction l with
    | nil => simp
    | cons x rest ih => intro a; rw [List.foldl_cons, ih]; push_cast; rw [square_eq]; simp [Int.add_assoc]
  simpa [sumSquare] using this l 0

theorem BlockResult.sumsOf_blockResult (samples : List SampleSet) : (blockResult samples).sumsOf samples := by
  unfold BlockResult.sumsOf
  simp [blockResult, sumInt_eq, sumSquare_eq]

/-! ### The log and its slots -/

theorem EvRecord.final_iff (r : EvRecord) : r.final = true ↔ r.isFinal := by
  simp [EvRecord.final, EvRecord.isFinal]

/-- The first of a list to pass a test is unique. -/
theorem first_split {α : Type} {p : α → Prop} {older older' newer newer' : List α} {x y : α}
    (h : older ++ x :: newer = older' ++ y :: newer') (hx : p x) (hy : p y) (ho : ∀ z ∈ older, ¬ p z) (ho' : ∀ z ∈ older', ¬ p z) :
    older = older' ∧ x = y ∧ newer = newer' := by
  induction older generalizing older' with
  | nil =>
    cases older' with
    | nil => simpa using h
    | cons a l => simp only [List.nil_append, List.cons_append, List.cons.injEq] at h; exact absurd (h.1 ▸ hx) (ho' a (by simp))
  | cons a l ih =>
    cases older' with
    | nil => simp only [List.nil_append, List.cons_append, List.cons.injEq] at h; exact absurd (h.1 ▸ hy) (ho a (by simp))
    | cons b l' =>
      simp only [List.cons_append, List.cons.injEq] at h
      obtain ⟨rfl, h2⟩ := h
      obtain ⟨rfl, k2, k3⟩ := ih h2 (fun z hz => ho z (by simp [hz])) (fun z hz => ho' z (by simp [hz]))
      exact ⟨rfl, k2, k3⟩

theorem removeOldestFinal_spec (log : List EvRecord) :
    (removeOldestFinal log = none ∧ ∀ x ∈ log, ¬ x.isFinal) ∨
      ∃ older r newer, removeOldestFinal log = some (r, older ++ newer) ∧ log = older ++ r :: newer ∧ r.isFinal ∧
        ∀ x ∈ older, ¬ x.isFinal := by
  induction log with
  | nil => exact .inl ⟨rfl, by simp⟩
  | cons a l ih =>
    by_cases ha : a.isFinal
    · exact .inr ⟨[], a, l, by simp [removeOldestFinal, a.final_iff.2 ha], rfl, ha, by simp⟩
    · have hf : ¬ a.final = true := fun h => ha (a.final_iff.1 h)
      rcases ih with ⟨h1, h2⟩ | ⟨older, r, newer, h1, h2, h3, h4⟩
      · exact .inl ⟨by simp [removeOldestFinal, hf, h1], by simpa [ha] using h2⟩
      · exact .inr ⟨a :: older, r, newer, by simp [removeOldestFinal, hf, h1], by simp [h2], h3, by simpa [ha] using h4⟩

theorem roomMade_makeRoom (log : List EvRecord) (slots : List (Option Slot)) :
    roomMade log slots (makeRoom log slots).1 (makeRoom log slots).2 := by
  unfold roomMade makeRoom
  rcases removeOldestFinal_spec log with ⟨h1, h2⟩ | ⟨older, r, newer, h1, h2, h3, h4⟩
  · refine ⟨fun _ => by split <;> simp [h1], fun older r newer _ hl hr _ => absurd hr (h2 r (by simp [hl]))⟩
  · refine ⟨?_, ?_⟩
    · rintro (h | h)
      · simp [h]
      · exact absurd h3 (h r (by simp [h2]))
    · intro older' r' newer' hlen hl hr ho
      obtain ⟨rfl, rfl, rfl⟩ := first_split (h2.symm.trans hl) h3 hr h4 ho
      rw [if_neg (by omega), h1]
      refine ⟨rfl, fun k hk => by simp [hk], fun hk => by simp [hk]⟩

theorem takeFromFinal_spec (log : List EvRecord) :
    (takeFromFinal log = none ∧ ∀ x ∈ log, x.isFinal → x.slot = none) ∨
      ∃ older r newer k, takeFromFinal log = some (k, older ++ { r with slot := none } :: newer) ∧ log = older ++ r :: newer ∧
        r.isFinal ∧ r.slot = some k ∧ ∀ x ∈ older, x.isFinal → x.slot = none := by
  induction log with
  | nil => exact .inl ⟨rfl, by simp⟩
  | cons a l ih =>
    by_cases ha : a.isFinal ∧ a.slot ≠ none
    · obtain ⟨k, hk⟩ := Option.ne_none_iff_exists'.1 ha.2
      exact .inr ⟨[], a, l, k, by simp [takeFromFinal, a.final_iff.2 ha.1, hk], rfl, ha.1, hk, by simp⟩
    · have hr : takeFromFinal (a :: l) = (takeFromFinal l).map fun p => (p.1, a :: p.2) := by
        rw [takeFromFinal]
        split
        · rename_i h1 h2; exact absurd ⟨a.final_iff.1 h1, by simp [h2]⟩ ha
        · rfl
      have ha' : a.isFinal → a.slot = none := fun h => by by_contra hn; exact ha ⟨h, hn⟩
      rcases ih with ⟨h1, h2⟩ | ⟨older, r, newer, k, h1, h2, h3, h4, h5⟩
      · exact .inl ⟨by simp [hr, h1], by simpa using ⟨ha', h2⟩⟩
      · exact .inr ⟨a :: older, r, newer, k, by simp [hr, h1], by simp [h2], h3, h4, by simpa using ⟨ha', h5⟩⟩

/-- The slot that is found, and the log then: none changes nothing. -/
theorem slotFound_chooseSlot (log : List EvRecord) (slots : List (Option Slot)) :
    slotFound log slots ((chooseSlot log slots).map Prod.fst) (((chooseSlot log slots).map Prod.snd).getD log) := by
  unfold slotFound chooseSlot freeSlot
  rcases hk : slots.findIdx? Option.isNone with _ | k
  · rw [List.findIdx?_eq_none_iff] at hk
    have hn : ∀ k : Nat, slots[k]? ≠ some none := fun k h => by
      have := hk _ (List.mem_of_getElem? h)
      simp at this
    refine ⟨fun k h => absurd h (hn k), fun _ => ⟨fun older r newer k hl hr hs ho => ?_, fun h => ?_⟩⟩
    · rcases takeFromFinal_spec log with ⟨_, h2⟩ | ⟨older', r', newer', k', h1, h2, h3, h4, h5⟩
      · exact absurd (h2 r (by simp [hl]) hr) (by simp [hs])
      · obtain ⟨rfl, rfl, rfl⟩ := first_split (p := fun x => x.isFinal ∧ x.slot ≠ none) (h2.symm.trans hl)
          ⟨h3, by simp [h4]⟩ ⟨hr, by simp [hs]⟩ (fun z hz k => k.2 (h5 z hz k.1)) (fun z hz k => k.2 (ho z hz k.1))
        rw [h4] at hs
        simp [h1, Option.some.inj hs]
    · rcases takeFromFinal_spec log with ⟨h1, _⟩ | ⟨older', r', newer', k', h1, h2, h3, h4, h5⟩
      · simp [h1]
      · exact absurd (h r' (by simp [h2]) h3) (by simp [h4])
  · rw [List.findIdx?_eq_some_iff_getElem] at hk
    obtain ⟨hlt, h1, h2⟩ := hk
    have hk0 : slots[k]? = some none := by rw [List.getElem?_eq_getElem hlt]; simpa using h1
    have hlow : ∀ j < k, slots[j]? ≠ some none := fun j hj h => by
      have h3 := h2 j hj
      rw [List.getElem?_eq_getElem (hj.trans hlt), Option.some.injEq] at h
      simp [h] at h3
    refine ⟨fun j hj hlo => ?_, fun h => absurd hk0 (h k)⟩
    have : j = k := by
      rcases Nat.lt_trichotomy j k with h | h | h
      · exact absurd hj (hlow j h)
      · exact h
      · exact absurd hk0 (hlo k h)
    simp [this]

theorem logAppend_spec (r : EvRecord) (seek : Bool) (trace : List Summary) (ev : EvidenceRec) (slots : List (Option Slot)) :
    ∃ log1 slots1 slot log2, roomMade ev.log slots log1 slots1 ∧ (seek = true → slotFound log1 slots1 slot log2) ∧
      (seek = false → slot = none ∧ log2 = log1) ∧ logAppend r seek trace ev slots =
        (⟨log2 ++ [{ r with number := ev.next, slot := slot }], nextNumber ev.next⟩,
          slot.elim slots1 fun k => slots1.set k (some ⟨ev.next, trace, [], true⟩), slot.isSome) := by
  have h1 := roomMade_makeRoom ev.log slots
  have h2 := slotFound_chooseSlot (makeRoom ev.log slots).1 (makeRoom ev.log slots).2
  unfold logAppend
  cases seek with
  | false => exact ⟨_, _, none, _, h1, by simp, fun _ => ⟨rfl, rfl⟩, by simp⟩
  | true =>
    refine ⟨_, _, _, _, h1, fun _ => h2, by simp, ?_⟩
    rcases hc : chooseSlot (makeRoom ev.log slots).1 (makeRoom ev.log slots).2 with _ | ⟨k, log⟩ <;> simp [hc]

theorem addRequest_evidence (snap : Bool) (l : List Purpose) :
    ∃ snap', Purpose.evidenceLog true snap' ∈ addRequest (.evidenceLog true snap) l ∧ (snap = true → snap' = true) := by
  induction l with
  | nil => exact ⟨snap, by simp [addRequest]⟩
  | cons q rest ih =>
    obtain ⟨snap', h1, h2⟩ := ih
    cases q
    case evidenceLog ev0 snap0 => exact ⟨snap || snap0, by simp [addRequest], by simp +contextual⟩
    all_goals exact ⟨snap', by simp [addRequest, h1], h2⟩

/-- What appending a record does (R159, R162, R163). -/
theorem State.appends_appendRecord (s : State) (r : EvRecord) : s.appends (s.appendRecord r) r := by
  obtain ⟨log1, slots1, slot, log2, h1, h2, h3, h4⟩ := logAppend_spec r
    ((s.policy r.cls).snapshot && r.cls.snapshotable && s.mains && !r.onBattery) s.reg.trace s.tam.evidence s.tam.slots
  have hseek : ((s.policy r.cls).snapshot && r.cls.snapshotable && s.mains && !r.onBattery) = true ↔
      (s.policy r.cls).snapshot = true ∧ r.cls.number ≤ 11 ∧ s.mains = true ∧ r.onBattery = false := by
    simp [EvClass.snapshotable, and_assoc]
  have hs : s.appendRecord r = State.notifyEvidence r.cls (State.request (.evidenceLog true slot.isSome) (s.onTam fun t => { t with
      evidence := ⟨log2 ++ [{ r with number := s.tam.evidence.next, slot := slot }], nextNumber s.tam.evidence.next⟩
      slots := slot.elim slots1 fun k => slots1.set k (some ⟨s.tam.evidence.next, s.reg.trace, [], true⟩) })) := by
    unfold State.appendRecord
    simp only [h4]
  rw [hs]
  refine ⟨log1, slots1, slot, log2, h1, fun h => h2 (hseek.2 h), fun h => h3 (by simpa using mt hseek.1 h), ?_, ?_, ?_, ?_⟩
  · simp [State.onTam, nextNumber]
  · intro k hk; simp [State.onTam, hk]
  · intro hk; simp [State.onTam, hk]
  · intro hm
    obtain ⟨snap, k1, k2⟩ := addRequest_evidence slot.isSome s.store.waiting
    refine ⟨snap, ?_, fun hn => k2 (Option.isSome_iff_ne_none.2 hn)⟩
    simp only [State.mains, beq_iff_eq] at hm
    simp only [State.underWay, State.notifyEvidence_frame]
    unfold State.request
    rw [if_neg (by simp [State.holdup, hm])]
    refine (State.pump_underWay _).mem_iff.2 ?_
    simp [State.underWay, State.onStore, State.onTam, k1]

/-! ### Sections -/

theorem strictlyAscending_iff (l : List Nat) : strictlyAscending l = true ↔ l.Pairwise (· < ·) := by
  induction l with
  | nil => simp [strictlyAscending]
  | cons a rest ih =>
    cases rest with
    | nil => simp [strictlyAscending]
    | cons b rest =>
      rw [strictlyAscending, Bool.and_eq_true, ih, decide_eq_true_eq, List.pairwise_cons (l := b :: rest)]
      refine ⟨fun ⟨h1, h2⟩ => ⟨fun x hx => ?_, h2⟩, fun ⟨h1, h2⟩ => ⟨h1 b (by simp), h2⟩⟩
      rcases List.mem_cons.1 hx with rfl | hx
      exacts [h1, h1.trans ((List.pairwise_cons.1 h2).1 x hx)]

theorem sectionRelations_iff (balance : Int) (v : SectionValue) : relationsHold balance v = true ↔ sectionRelations balance v := by
  cases v <;> simp [relationsHold, sectionRelations, strictlyAscending_iff]

theorem clampedTo_false (lo hi x : Int) : clampedTo false lo hi x x := by simp [clampedTo]

theorem clampedTo_clampInt (lo hi x : Int) (h : lo ≤ hi) : clampedTo true lo hi x (clampInt lo hi x) := by
  unfold clampedTo clampInt
  refine ⟨fun k => ?_, fun _ k => ?_, fun _ k => ?_⟩ <;> simp_all <;> omega

theorem clampedTo_clampNat (lo hi x : Nat) (h : lo ≤ hi) : clampedTo true lo hi x (clampNat lo hi x) := by
  unfold clampedTo clampNat
  refine ⟨fun k => ?_, fun _ k => ?_, fun _ k => ?_⟩ <;> simp_all <;> omega

theorem sectionHolds_readSection (sec : ConfigSection) (bs : List Byte) : sectionHolds false bs sec (readSection sec bs) := by
  cases sec
  case cal => rfl
  case measure => exact ⟨_, rfl, by simp [clampedTo, flagField]⟩
  case account => exact ⟨_, rfl, by simp [clampedTo]⟩
  case switch =>
    unfold readSection
    by_cases h : bs.length = 10
    · rw [if_pos h]; exact ⟨_, by simp only [h]; rfl, by simp [clampedTo, flagField, h]⟩
    · rw [if_neg h]; exact ⟨_, by simp only [h]; rfl, by simp [clampedTo, flagField, h]⟩
  case thermal =>
    refine ⟨_, rfl, by simp [clampedTo], by simp [tableField], ?_, by simp [clampedTo]⟩
    intro k hk
    have h2 : 1 + 4 * k + 2 = 3 + 4 * k := by omega
    exact ⟨(field bs (1 + 4 * k) 2, signedField bs (3 + 4 * k) 2), by simp [tableField, hk, h2], by simp [clampedTo]⟩
  case tamper =>
    refine ⟨_, rfl, by simp, fun k b h => ⟨policyByte b, by simp [h], by simp [policyByte]⟩⟩
  case link => exact ⟨_, rfl, by simp⟩

theorem fixPolicies_getElem? (l : List ClassPolicy) (n k : Nat) :
    (fixPolicies n l)[k]? = l[k]?.map (fixPolicy (n + k)) := by
  induction l generalizing n k with
  | nil => simp [fixPolicies]
  | cons p rest ih =>
    cases k with
    | zero => simp [fixPolicies]
    | succ k => simp [fixPolicies, ih, Nat.add_assoc, Nat.add_comm 1 k]

theorem fixPolicies_length (l : List ClassPolicy) (n : Nat) : (fixPolicies n l).length = l.length := by
  induction l generalizing n with
  | nil => rfl
  | cons p rest ih => simp [fixPolicies, ih]

theorem sectionHolds_clampSection (sec : ConfigSection) (bs : List Byte) :
    sectionHolds true bs sec (clampSection (readSection sec bs)) := by
  have hN := clampedTo_clampNat
  have hI := clampedTo_clampInt
  cases sec
  case cal => rfl
  case measure =>
    exact ⟨_, rfl, hN _ _ _ (by decide), hN _ _ _ (by decide), by simp [flagField], hN _ _ _ (by decide), hN _ _ _ (by decide),
      hN _ _ _ (by decide), hN _ _ _ (by decide)⟩
  case account =>
    exact ⟨_, rfl, hN _ _ _ (by decide), hN _ _ _ (by decide), hN _ _ _ (by decide), hN _ _ _ (by decide), hN _ _ _ (by decide),
      hN _ _ _ (by decide), hN _ _ _ (by decide)⟩
  case switch =>
    unfold readSection
    by_cases h : bs.length = 10
    · rw [if_pos h, sectionHolds, h]
      exact ⟨_, rfl, by simp [flagField], hN _ _ _ (by decide), hN _ _ _ (by decide), hN _ _ _ (by decide),
        fun _ => ⟨rfl, hN _ _ _ (by decide)⟩, fun k => absurd rfl k⟩
    · rw [if_neg h, sectionHolds, decide_eq_false h]
      exact ⟨_, rfl, by simp [flagField], hN _ _ _ (by decide), hN _ _ _ (by decide), hN _ _ _ (by decide),
        fun k => absurd k h, fun _ => hN _ _ _ (by decide)⟩
  case thermal =>
    refine ⟨_, rfl, hN _ _ _ (by decide), by simp [tableField], ?_, hI _ _ _ (by decide), hI _ _ _ (by decide),
      hN _ _ _ (by decide), hN _ _ _ (by decide)⟩
    intro k hk
    refine ⟨(clampNat 0 1023 (field bs (1 + 4 * k) 2), clampInt (-400) 2000 (signedField bs (3 + 4 * k) 2)), ?_,
      hN _ _ _ (by decide), hI _ _ _ (by decide)⟩
    have h2 : 1 + 4 * k + 2 = 3 + 4 * k := by omega
    simp [tableField, hk, h2]
  case tamper =>
    refine ⟨_, rfl, by simp [fixPolicies_length], fun k b h =>
      ⟨fixPolicy (1 + k) (policyByte b), by simp [fixPolicies_getElem?, h], ?_⟩⟩
    unfold fixPolicy policyByte
    by_cases h1 : 9 ≤ k <;> by_cases h2 : 11 ≤ k <;> simp [h1, h2] <;> (try omega) <;>
      (repeat' split) <;> simp <;> omega
  case link =>
    refine ⟨_, rfl, ?_⟩
    unfold clampSilence
    refine ⟨fun h => ?_, fun _ h k => ?_, fun _ h => ?_⟩ <;> split <;> simp_all <;> omega

theorem Date.valid_iff (d : Date) : d.valid = true ↔ d.isValid := by
  obtain ⟨y, m, n⟩ := d
  simp only [Date.valid, Date.isValid, Bool.and_eq_true, decide_eq_true_eq, and_assoc]
  constructor <;> rintro ⟨h1, h2, h3, h4, h5, h6⟩ <;> refine ⟨h1, h2, h3, h4, h5, ?_⟩ <;> revert h6 <;>
    (have : m = 1 ∨ m = 2 ∨ m = 3 ∨ m = 4 ∨ m = 5 ∨ m = 6 ∨ m = 7 ∨ m = 8 ∨ m = 9 ∨ m = 10 ∨ m = 11 ∨ m = 12 := by omega) <;>
    rcases this with rfl | rfl | rfl | rfl | rfl | rfl | rfl | rfl | rfl | rfl | rfl | rfl <;>
    simp [monthLengths, leapYear]

/-- A list made from an index function ascends strictly exactly when each item is less than the next. -/
theorem strictlyAscending_range_iff (f : Nat → Nat) (n : Nat) :
    strictlyAscending ((List.range n).map f) = true ↔ ∀ k, k + 1 < n → f k < f (k + 1) := by
  rw [strictlyAscending_iff, List.pairwise_map]
  constructor
  · intro h k hk
    have := List.pairwise_iff_getElem.1 h k (k + 1) (by simp; omega) (by simpa using hk) (by omega)
    simpa using this
  · intro h
    rw [List.pairwise_iff_getElem]
    intro i j hi hj hij
    simp only [List.length_range] at hi hj
    simp only [List.getElem_range]
    induction j with
    | zero => omega
    | succ j ih =>
      rcases Nat.lt_or_ge i j with hlt | hge
      · exact (ih (by omega) hlt (by omega)).trans (h j hj)
      · have : i = j := by omega
        exact this ▸ h i (by omega)

theorem windowsOk_iff (l : List (Nat × Nat)) : windowsOk l = true ↔ (∀ w ∈ l, w.1 < w.2) ∧
    ∀ (k : Nat) (w v : Nat × Nat), l[k]? = some w → l[k + 1]? = some v → w.2 ≤ v.1 := by
  induction l with
  | nil => simp [windowsOk]
  | cons a rest ih =>
    cases rest with
    | nil => simp [windowsOk]
    | cons b rest =>
      rw [windowsOk, Bool.and_eq_true, Bool.and_eq_true, ih, decide_eq_true_eq, decide_eq_true_eq]
      constructor
      · rintro ⟨⟨h1, h2⟩, h3, h4⟩
        refine ⟨by simpa [h1] using h3, fun k w v hw hv => ?_⟩
        cases k with
        | zero => simp at hw hv; subst hw hv; exact h2
        | succ k => exact h4 k w v (by simpa using hw) (by simpa using hv)
      · rintro ⟨h1, h2⟩
        exact ⟨⟨h1 a (by simp), h2 0 a b rfl rfl⟩, fun w hw => h1 w (by simp [List.mem_cons.1 hw]),
          fun k w v hw hv => h2 (k + 1) w v (by simpa using hw) (by simpa using hv)⟩

/-- The items of a list made from an index function. -/
theorem range_map_getElem? {α : Type} (f : Nat → α) (n k : Nat) (h : k < n) : ((List.range n).map f)[k]? = some (f k) := by
  simp [h]

theorem range_map_eq_iff {α : Type} (f g : Nat → α) (n : Nat) :
    (List.range n).map f = (List.range n).map g ↔ ∀ k < n, f k = g k := by
  simp [List.map_inj_left]

theorem windowsPass_iff (c : List Byte) (off n : Nat) :
    (((windowsField c off n).map clampWindow).length ≤ 4 ∧ windowsOk ((windowsField c off n).map clampWindow) = true) ↔
      windowsPass c off n := by
  unfold windowsPass
  rw [windowsOk_iff]
  simp only [windowsField, List.map_map, List.length_map, List.length_range, List.mem_map, List.mem_range, clampWindow, clampNat,
    Function.comp_apply, List.getElem?_map]
  refine and_congr_right fun _ => and_congr ⟨?_, ?_⟩ ⟨?_, ?_⟩
  · exact fun h k hk => h _ ⟨k, hk, rfl⟩
  · rintro h w ⟨k, hk, rfl⟩
    exact h k hk
  · intro h k hk
    exact h k _ _ (by rw [List.getElem?_range (by omega)]; rfl) (by rw [List.getElem?_range hk]; rfl)
  · intro h k w v hw hv
    by_cases hk : k + 1 < n
    · rw [List.getElem?_range (by omega)] at hw
      rw [List.getElem?_range hk] at hv
      cases hw; cases hv
      exact h k hk
    · rw [List.getElem?_eq_none (by simpa using hk)] at hv
      cases hv

theorem windowsHold_windowsField (c : List Byte) (off n : Nat) : windowsHold c off n ((windowsField c off n).map clampWindow) :=
  ⟨by simp [windowsField], fun k hk => by simp [windowsField, hk, clampWindow, clampNat]⟩

theorem windowsInRange_iff (c : List Byte) (off n : Nat) :
    (windowsField c off n).map clampWindow = windowsField c off n ↔ windowsInRange c off n := by
  unfold windowsInRange windowsField
  rw [List.map_map, range_map_eq_iff]
  refine forall₂_congr fun k _ => ?_
  simp only [Function.comp_apply, clampWindow, clampNat, Prod.mk.injEq]
  omega

theorem scheduleJudged_read (c : List Byte) (make : List (Nat × Nat) → TariffValue) :
    scheduleJudged c make (if scheduleOk ((pointsField c (field c 0 1)).map clampPoint) = true then
      some (make ((pointsField c (field c 0 1)).map clampPoint),
        (pointsField c (field c 0 1)).map clampPoint != pointsField c (field c 0 1)) else none) := by
  have hok : scheduleOk ((pointsField c (field c 0 1)).map clampPoint) = true ↔ 1 ≤ field c 0 1 ∧ field c 0 1 ≤ 8 ∧
      ∀ k, k + 1 < field c 0 1 → min 1439 (field c (1 + 3 * k) 2) < min 1439 (field c (1 + 3 * (k + 1)) 2) := by
    unfold scheduleOk pointsField
    rw [List.map_map, List.map_map]
    simp only [Bool.and_eq_true, decide_eq_true_eq, List.length_map, List.length_range, strictlyAscending_range_iff, and_assoc]
    rfl
  unfold scheduleJudged
  refine ⟨fun h => if_neg (mt hok.1 h), fun h => ⟨_, _, if_pos (hok.2 h), by simp [pointsField], fun k hk => ?_, ?_⟩⟩
  · simp [pointsField, hk, clampPoint]
  · rw [bne_eq_false_iff_eq]
    unfold pointsField
    rw [List.map_map, range_map_eq_iff]
    refine forall₂_congr fun k _ => ?_
    simp only [Function.comp_apply, clampPoint, Prod.mk.injEq]
    omega

theorem tariffSectionJudged_readTariffSection (sel : Byte) (c : List Byte) :
    tariffSectionJudged sel.toNat c (readTariffSection sel c) := by
  unfold readTariffSection
  generalize sel.toNat = n
  unfold tariffSectionJudged
  match n with
  | 0 =>
    refine ⟨_, _, rfl, by simp, fun k hk => by simp [hk], rfl, rfl, ?_⟩
    simp only [Bool.or_eq_false_iff, bne_eq_false_iff_eq, decide_eq_false_iff_not, List.map_map, range_map_eq_iff]
    simp only [Function.comp_apply, and_assoc, Nat.not_lt, min_eq_right_iff]
  | 1 => exact scheduleJudged_read c .scheduleWorkday
  | 2 => exact scheduleJudged_read c .scheduleRestday
  | 3 =>
    have hok : ((datesField c (field c 1 1)).length ≤ 16 && (datesField c (field c 1 1)).all Date.valid &&
        strictlyAscending ((datesField c (field c 1 1)).map Date.number)) = true ↔ field c 1 1 ≤ 16 ∧
        (∀ k < field c 1 1, (⟨field c (2 + 4 * k) 2, field c (4 + 4 * k) 1, field c (5 + 4 * k) 1⟩ : Date).isValid) ∧
        ∀ k, k + 1 < field c 1 1 →
          (⟨field c (2 + 4 * k) 2, field c (4 + 4 * k) 1, field c (5 + 4 * k) 1⟩ : Date).number <
            (⟨field c (2 + 4 * (k + 1)) 2, field c (4 + 4 * (k + 1)) 1, field c (5 + 4 * (k + 1)) 1⟩ : Date).number := by
      unfold datesField
      rw [List.map_map]
      simp only [Bool.and_eq_true, decide_eq_true_eq, List.length_map, List.length_range, strictlyAscending_range_iff, and_assoc,
        List.all_map, List.all_eq_true, List.mem_range, Function.comp_apply, Date.valid_iff]
    exact ⟨fun h => if_neg (mt hok.1 h), fun h => ⟨_, if_pos (hok.2 h), rfl, by simp [datesField],
      fun k hk => by simp [datesField, hk]⟩⟩
  | 4 =>
    have hW := windowsPass_iff c 1 (field c 0 1)
    have hR := windowsPass_iff c (2 + 4 * field c 0 1) (field c (1 + 4 * field c 0 1) 1)
    refine ⟨fun h => if_neg ?_, fun h => ⟨_, _, if_pos ?_, windowsHold_windowsField .., windowsHold_windowsField .., ?_⟩⟩
    · rw [← hW, ← hR] at h
      simp only [Bool.and_eq_true, decide_eq_true_eq]
      exact fun k => h ⟨⟨k.1.1.1, k.1.2⟩, k.1.1.2, k.2⟩
    · rw [← hW, ← hR] at h
      simp only [Bool.and_eq_true, decide_eq_true_eq]
      exact ⟨⟨⟨h.1.1, h.2.1⟩, h.1.2⟩, h.2.2⟩
    · rw [Bool.or_eq_false_iff, bne_eq_false_iff_eq, bne_eq_false_iff_eq, windowsInRange_iff, windowsInRange_iff]
  | n + 5 => rfl

/-! ### What a write carries -/

theorem insertAscending_spec (n : Nat) (l : List Nat) (h : l.Pairwise (· < ·)) (hn : n ∉ l) :
    (insertAscending n l).Pairwise (· < ·) ∧ List.Perm (insertAscending n l) (n :: l) := by
  induction l with
  | nil => simp [insertAscending]
  | cons m rest ih =>
    rw [List.pairwise_cons] at h
    simp only [List.mem_cons, not_or] at hn
    obtain ⟨h1, h2⟩ := ih h.2 hn.2
    unfold insertAscending
    by_cases hlt : n < m
    · rw [if_pos hlt]
      refine ⟨List.pairwise_cons.2 ⟨fun x hx => ?_, List.pairwise_cons.2 h⟩, .refl _⟩
      rcases List.mem_cons.1 hx with rfl | hx
      exacts [hlt, hlt.trans (h.1 x hx)]
    · rw [if_neg hlt, if_neg hn.1]
      refine ⟨List.pairwise_cons.2 ⟨fun x hx => ?_, h1⟩, (h2.cons m).trans (.swap n m rest)⟩
      rcases List.mem_cons.1 (h2.mem_iff.1 hx) with rfl | hx
      exacts [by omega, h.1 x hx]

theorem CodeRec.acceptedAs_accept (c : CodeRec) (sequence : Nat) : c.acceptedAs sequence (c.accept sequence) := by
  refine ⟨rfl, rfl, rfl, fun h1 h2 => ⟨insertAscending sequence c.accepted, (insertAscending_spec _ _ h1 h2).1,
    (insertAscending_spec _ _ h1 h2).2, ?_⟩⟩
  simp only [CodeRec.accept, acceptSequence, List.drop_one]
  split <;> split <;> first | rfl | omega

theorem CodeRec.failedAs_countFailure (c : CodeRec) (clock : Nat) : c.failedAs clock (c.countFailure clock) := by
  unfold CodeRec.failedAs CodeRec.countFailure
  by_cases h : c.failures + 1 < 5
  · rw [if_pos h]; exact ⟨rfl, fun _ => ⟨rfl, rfl, rfl⟩, fun k => by omega⟩
  · rw [if_neg h]; exact ⟨rfl, fun k => by omega, fun _ => ⟨rfl, rfl, rfl⟩⟩

theorem ConfigRec.writtenAs_put (c : ConfigRec) (v : SectionValue) : c.writtenAs v (c.put v) := by
  have hm : ∀ sec x : ConfigSection,
      (x ∈ if c.written.contains sec then c.written else c.written ++ [sec]) ↔ x ∈ c.written ∨ x = sec := by
    intro sec x
    by_cases h : sec ∈ c.written
    · simp only [List.contains_eq_mem, h, decide_true, if_true]
      exact ⟨.inl, fun k => k.elim id fun e => e ▸ h⟩
    · simp [h]
  refine ⟨fun x => ?_, ?_⟩
  · cases v
    case switch w b => cases b <;> exact hm .switch x
    all_goals exact hm _ x
  · cases v
    case switch w b => cases b <;> rfl
    all_goals rfl

theorem Tariff.madeFrom_toTariff (p : PendingSections) (identifier : Nat) : (p.toTariff identifier).madeFrom p identifier := by
  unfold Tariff.madeFrom PendingSections.toTariff
  simp +contextual

/-- The records appended again are those kept, numbered from n on, each with the time given; those of a class that seeks get the
slots from k on in turn. -/
theorem appendAgain_records (time : Option Nat) (seeks : EvClass → Bool) (trace : List Summary) (l : List EvRecord) (n k : Nat) :
    (appendAgain time seeks trace n k l).1.length = l.length ∧
    ∀ (j : Nat) (x : EvRecord), l[j]? = some x →
      let m := k + ((l.take j).filter fun x => seeks x.cls).length
      (appendAgain time seeks trace n k l).1[j]? =
        some { x with number := n + j, onset := time, slot := if seeks x.cls = true ∧ m < 4 then some m else none } := by
  induction l generalizing n k with
  | nil => simp [appendAgain]
  | cons r rest ih =>
    unfold appendAgain
    split
    · rename_i hs
      simp only [Bool.and_eq_true, decide_eq_true_eq] at hs
      obtain ⟨h1, h2⟩ := ih (n + 1) (k + 1)
      refine ⟨by simp [h1], fun j x hx => ?_⟩
      cases j with
      | zero =>
        simp only [List.getElem?_cons_zero, Option.some.injEq] at hx
        subst hx
        simp [hs.1, hs.2]
      | succ j =>
        have := h2 j x (by simpa using hx)
        simp only [List.getElem?_cons_succ, List.take_succ_cons, List.filter_cons, hs.1, if_true, List.length_cons]
        simpa only [Nat.add_assoc, Nat.add_comm 1] using this
    · rename_i hs
      simp only [Bool.and_eq_true, decide_eq_true_eq] at hs
      obtain ⟨h1, h2⟩ := ih (n + 1) k
      refine ⟨by simp [h1], fun j x hx => ?_⟩
      cases j with
      | zero =>
        simp only [List.getElem?_cons_zero, Option.some.injEq] at hx
        subst hx
        simpa using hs
      | succ j =>
        have := h2 j x (by simpa using hx)
        simp only at this
        simp only [List.getElem?_cons_succ, List.take_succ_cons, List.filter_cons]
        by_cases hc : seeks r.cls = true
        · have h4 : ¬ k < 4 := fun h => hs ⟨hc, h⟩
          rw [if_neg (by omega)] at this
          rw [if_neg (by simp only [hc, if_true, List.length_cons]; omega)]
          simpa only [Nat.add_assoc, Nat.add_comm 1] using this
        · simp only [if_neg hc]
          simpa only [Nat.add_assoc, Nat.add_comm 1] using this

/-- The slots taken from k on: a record names slot k + j exactly where the j-th of them is its own, with the trace. -/
theorem appendAgain_slots (time : Option Nat) (seeks : EvClass → Bool) (trace : List Summary) (l : List EvRecord) (n k : Nat) :
    (∀ x ∈ (appendAgain time seeks trace n k l).1, ∀ m, x.slot = some m →
      k ≤ m ∧ m < 4 ∧ (appendAgain time seeks trace n k l).2[m - k]? = some ⟨x.number, trace, [], true⟩) ∧
    ∀ (j : Nat) (sl : Slot), (appendAgain time seeks trace n k l).2[j]? = some sl →
      ∃ x ∈ (appendAgain time seeks trace n k l).1, x.slot = some (k + j) := by
  induction l generalizing n k with
  | nil => simp [appendAgain]
  | cons r rest ih =>
    unfold appendAgain
    split
    · rename_i hs
      simp only [Bool.and_eq_true, decide_eq_true_eq] at hs
      obtain ⟨h1, h2⟩ := ih (n + 1) (k + 1)
      refine ⟨fun x hx m hm => ?_, fun j sl hsl => ?_⟩
      · rcases List.mem_cons.1 hx with rfl | hx
        · cases hm
          exact ⟨Nat.le_refl _, hs.2, by simp⟩
        · obtain ⟨k1, k2, k3⟩ := h1 x hx m hm
          refine ⟨by omega, k2, ?_⟩
          rw [show m - k = (m - (k + 1)) + 1 by omega]
          simpa using k3
      · cases j with
        | zero => exact ⟨_, List.mem_cons_self .., by simp⟩
        | succ j =>
          obtain ⟨x, hx, k1⟩ := h2 j sl (by simpa using hsl)
          exact ⟨x, List.mem_cons_of_mem _ hx, by rw [k1]; congr 1; omega⟩
    · obtain ⟨h1, h2⟩ := ih (n + 1) k
      refine ⟨fun x hx m hm => ?_, fun j sl hsl => ?_⟩
      · rcases List.mem_cons.1 hx with rfl | hx
        · cases hm
        · exact h1 x hx m hm
      · obtain ⟨x, hx, k1⟩ := h2 j sl hsl
        exact ⟨x, List.mem_cons_of_mem _ hx, k1⟩

/-- The records that an entry write carries (R72, R165). -/
def State.entryRecords (s : State) : Records :=
  { s.store.recs with
    account := .atEntry s.config.account
    days := { s.store.recs.days with history := [], lastDay := some (dayOf s.clock) }
    code := .shipped, evidence := s.entryLog.1, snapshot := s.entryLog.2
    supply := { s.sup.supply with trips := [], backoff := none }
    life := ⟨.inService, none⟩ }

theorem State.entryStores_entryRecords (s : State) : s.entryStores s.entryRecords := by
  obtain ⟨h1, h2⟩ := appendAgain_records s.time (fun c => (s.policy c).snapshot && c.snapshotable) s.reg.trace
    (s.tam.evidence.log.filter fun x => x.state = .active) 1 0
  obtain ⟨h3, h4⟩ := appendAgain_slots s.time (fun c => (s.policy c).snapshot && c.snapshotable) s.reg.trace
    (s.tam.evidence.log.filter fun x => x.state = .active) 1 0
  refine ⟨rfl, rfl, rfl, rfl, h1, fun k x hx => ?_, ?_, fun x hx k hk => ?_, fun k hk hn => ?_, rfl, rfl⟩
  · have := h2 k x hx
    simp only [Nat.zero_add, Nat.add_comm 1 k] at this
    exact this
  · simp [State.entryRecords, State.entryLog, EvidenceRec.atEntry, freeSlots]
  · obtain ⟨_, k2, k3⟩ := h3 x hx k hk
    simp only [State.entryRecords, State.entryLog, EvidenceRec.atEntry]
    rw [List.getElem?_take, if_pos k2, List.getElem?_append_left (by simpa using (List.getElem?_eq_some_iff.1 k3).1),
      List.getElem?_map]
    simpa using congrArg (Option.map some) k3
  · simp only [State.entryRecords, State.entryLog, EvidenceRec.atEntry]
    rw [List.getElem?_take, if_pos hk]
    rcases hg : (appendAgain s.time (fun c => (s.policy c).snapshot && c.snapshotable) s.reg.trace 1 0
      (s.tam.evidence.log.filter fun x => x.state = .active)).2[k]? with _ | sl
    · have hle := List.getElem?_eq_none_iff.1 hg
      rw [List.getElem?_append_right (by simpa using hle)]
      have : k - ((appendAgain s.time (fun c => (s.policy c).snapshot && c.snapshotable) s.reg.trace 1 0
        (s.tam.evidence.log.filter fun x => x.state = .active)).2.map some).length < 4 := by omega
      revert this
      generalize k - _ = m
      intro hm
      match m, hm with
      | 0, _ | 1, _ | 2, _ | 3, _ => rfl
    · obtain ⟨x, hx, k1⟩ := h4 k sl hg
      exact absurd (by simpa using k1) (hn x hx)

/-- A write that starts carries what its purpose says (R54, R66, R72, R89 to R93, R156, R178, R186). -/
theorem Purpose.carries_puts (s : State) (p : Purpose) : p.carries s (p.puts s) := by
  cases p
  case charge => rfl
  case emergencyTaken => rfl
  case dayBoundary a appended target =>
    refine ⟨_, rfl, rfl, rfl, List.drop_suffix .., ?_⟩
    simp only [lastN, List.length_drop, List.length_append]
    omega
  case dayAdoption => rfl
  case codeEffect => exact ⟨_, rfl, CodeRec.acceptedAs_accept ..⟩
  case entry => exact ⟨s.entryRecords, rfl, s.entryStores_entryRecords⟩
  case setTime v a b d carry =>
    cases carry with
    | none => exact ⟨fun _ => rfl, by simp⟩
    | some left =>
      refine ⟨by simp, fun l hl => ⟨_, rfl, rfl, fun h => by simp [h], fun h => ?_⟩⟩
      cases hl
      obtain ⟨e, he⟩ := Option.ne_none_iff_exists'.1 h
      simp [he]
  case counted => exact ⟨_, rfl, CodeRec.failedAs_countFailure ..⟩
  case clearTamper classes sequence time r =>
    refine ⟨_, _, rfl, CodeRec.acceptedAs_accept .., rfl, ?_⟩
    exact List.map_congr_left fun r _ => by simp only [EvRecord.clearedBy, List.contains_eq_mem, decide_eq_true_eq]
  case setLimit => exact ⟨_, rfl, CodeRec.acceptedAs_accept ..⟩
  case openService => exact ⟨_, rfl, CodeRec.acceptedAs_accept ..⟩
  case lockoutEnd => rfl
  case lockoutRearm => rfl
  case switchRecord => rfl
  case supplyRecord => rfl
  case evidenceLog => rfl
  case lifeRecord =>
    refine ⟨_, rfl, fun h => ?_, fun h => ?_⟩
    · unfold State.lifeRecord
      split
      · exact absurd (by assumption) h
      · rfl
    · simp [State.lifeRecord, h]
  case identity => rfl
  case config x b =>
    refine ⟨_, ConfigRec.writtenAs_put _ x, fun h => ?_, fun w h => ?_⟩
    · cases x
      case switch w hasLimit =>
        cases hasLimit
        · rfl
        · exact absurd rfl (h w)
      all_goals rfl
    · subst h; rfl
  case tariffRequest => rfl
  case tariffActivation =>
    refine ⟨_, rfl, fun parts time identifier h => ?_⟩
    simp [TariffRec.activated, h, Tariff.madeFrom_toTariff]
  case residue => rfl
  case startWrite => rfl
  case reinitialised r => constructor <;> (rintro rfl; rfl)

/-! ### The penalty state -/

theorem State.penalty_iff (s : State) :
    s.penalty = true ↔ s.inService = true ∧ ∃ x ∈ s.tam.evidence.log, x.state = .opened ∧ (s.policy x.cls).penalty = true := by
  have hall : ∀ c : EvClass, c ∈ allClasses := by intro c; cases c <;> decide
  simp only [State.penalty, State.latched, isLatched, Bool.and_eq_true, List.any_eq_true, List.mem_filter, beq_iff_eq]
  refine and_congr_right fun _ => ⟨?_, ?_⟩
  · rintro ⟨c, ⟨_, x, hx, rfl, h1⟩, h2⟩
    exact ⟨x, hx, h1, h2⟩
  · rintro ⟨x, hx, h1, h2⟩
    exact ⟨x.cls, ⟨hall _, x, hx, rfl, h1⟩, h2⟩

end Sys2Proof.Machine
end

