-- ==== Sys2Proof/Laws/Starts.lean ====
section
/-! SUPPORT. The writes that an operation starts: for each operation that touches the store, op_starts says that the records stay,
that at most one write is in flight where at most one was, and that a write in flight was so before or carries what its purpose
puts (State.pump and State.request: pump_starts_if and request_starts_if). -/

namespace Sys2Proof.Machine

/-- The records are as they were; at most one write is in flight where at most one was; each write in flight was so before, or was
started from a state with these records, in MAINS or as one that HOLDUP permits, with what its purpose puts. -/
def Store.starts (a b : Store) : Prop :=
  b.recs = a.recs ∧ (a.flight.length ≤ 1 → b.flight.length ≤ 1) ∧ ∀ w ∈ b.flight, w ∈ a.flight ∨
    ∃ u : State, u.store.recs = b.recs ∧ (u.mains = true ∨ (u.holdup = true ∧ w.purpose.permittedInHoldup = true)) ∧
      w.puts = w.purpose.puts u

theorem Store.starts_refl (a : Store) : a.starts a := ⟨rfl, id, fun _ h => .inl h⟩

theorem Store.starts.of_eq {a b c : Store} (h : a.starts b) (h1 : c.recs = b.recs) (h2 : c.flight = b.flight) : a.starts c := by
  unfold Store.starts
  rw [h1, h2]
  exact h

variable (s : State)

theorem State.pump_starts_if {b0 : Store} (h : b0.starts s.store) : b0.starts s.pump.store := by
  rcases s.pump_spec with k | ⟨p, _, _, hp, k⟩
  · rwa [k]
  · rw [k]
    refine ⟨h.1, fun _ => by simp [State.onStore], fun w hw => .inr ⟨s, rfl, ?_⟩⟩
    simp only [State.onStore, List.mem_singleton] at hw
    subst hw
    exact ⟨hp, rfl⟩

theorem State.request_starts_if {b0 : Store} (p : Purpose) (h : b0.starts s.store) : b0.starts (s.request p).store := by
  unfold State.request
  split
  · exact h
  · exact State.pump_starts_if _ (h.of_eq rfl rfl)

theorem State.handHold_starts {b0 : Store} (r : Hold) (b : Bool) (h : b0.starts s.store) :
    b0.starts (s.handHold r b).store := by
  unfold State.handHold
  with_reducible repeat' first | exact h | apply State.request_starts_if | split | simp

theorem State.judgeTamper_starts {b0 : Store} (h : b0.starts s.store) :
    b0.starts (s.judgeTamper).store := by
  unfold State.judgeTamper
  with_reducible repeat' first | exact h | apply State.handHold_starts | split

theorem State.appendRecord_starts {b0 : Store} (r : EvRecord) (h : b0.starts s.store) :
    b0.starts (s.appendRecord r).store := by
  unfold State.appendRecord
  with_reducible repeat' first | exact h | apply State.request_starts_if | split | simp

theorem State.editLog_starts {b0 : Store} (f : EvRecord → EvRecord) (h : b0.starts s.store) :
    b0.starts (s.editLog f).store := by
  unfold State.editLog
  with_reducible repeat' first | exact h | apply State.request_starts_if | split | simp

theorem State.recordExcused_starts {b0 : Store} (a : Arrival) (h : b0.starts s.store) :
    b0.starts (s.recordExcused a).store := by
  unfold State.recordExcused
  with_reducible repeat' first | exact h | apply State.appendRecord_starts

theorem State.recordOnset_starts {b0 : Store} (a : Arrival) (h : b0.starts s.store) :
    b0.starts (s.recordOnset a).store := by
  unfold State.recordOnset
  with_reducible repeat' first
    | exact h | apply State.judgeTamper_starts | apply State.appendRecord_starts | apply State.editLog_starts
    | apply State.recordExcused_starts | split | simp

theorem State.recordEnd_starts {b0 : Store} (a : Arrival) (h : b0.starts s.store) :
    b0.starts (s.recordEnd a).store := by
  unfold State.recordEnd
  with_reducible repeat' first | exact h | apply State.editLog_starts | split

theorem State.takeArrival_starts {b0 : Store} (a : Arrival) (h : b0.starts s.store) :
    b0.starts (s.takeArrival a).store := by
  unfold State.takeArrival
  with_reducible repeat' first | exact h | apply State.recordOnset_starts | apply State.recordEnd_starts | split

theorem State.arrive_starts {b0 : Store} (a : Arrival) (h : b0.starts s.store) :
    b0.starts (s.arrive a).store := by
  unfold State.arrive
  with_reducible repeat' first | exact h | apply State.takeArrival_starts | split | simp

theorem State.latchOnset_starts {b0 : Store} (c : EvClass) (ph : Option Nat) (v : Option Int) (h : b0.starts s.store) :
    b0.starts (s.latchOnset c ph v).store := by
  unfold State.latchOnset
  with_reducible repeat' first | exact h | apply State.arrive_starts

theorem State.latchEnd_starts {b0 : Store} (c : EvClass) (h : b0.starts s.store) :
    b0.starts (s.latchEnd c).store := by
  unfold State.latchEnd
  with_reducible repeat' first | exact h | apply State.arrive_starts

theorem State.followOnset_starts {b0 : Store} (c : EvClass) (v : Option Int) (h : b0.starts s.store) :
    b0.starts (s.followOnset c v).store := by
  unfold State.followOnset
  with_reducible repeat' first | exact h | apply State.appendRecord_starts | split

theorem State.followEnd_starts {b0 : Store} (c : EvClass) (h : b0.starts s.store) :
    b0.starts (s.followEnd c).store := by
  unfold State.followEnd
  with_reducible repeat' first | exact h | apply State.editLog_starts | split | simp

theorem State.clockStep_starts {b0 : Store} (prior : Option Nat) (requested outcome : Nat) (h : b0.starts s.store) :
    b0.starts (s.clockStep prior requested outcome).store := by
  unfold State.clockStep
  with_reducible repeat' first | exact h | apply State.appendRecord_starts

theorem State.classChange_starts {b0 : Store} (c : EvClass) (b a : Bool) (ph : Option Nat) (v : Int) (h : b0.starts s.store) :
    b0.starts (s.classChange c b a ph v).store := by
  unfold State.classChange
  with_reducible repeat' first | exact h | apply State.latchOnset_starts | apply State.latchEnd_starts | split

theorem State.judgeReverse_starts {b0 : Store} (m : Summary) (h : b0.starts s.store) :
    b0.starts (s.judgeReverse m).store := by
  unfold State.judgeReverse
  with_reducible repeat' first | exact h | apply State.classChange_starts | split | simp

theorem State.judgeResidual_starts {b0 : Store} (m : Summary) (h : b0.starts s.store) :
    b0.starts (s.judgeResidual m).store := by
  unfold State.judgeResidual
  with_reducible repeat' first | exact h | apply State.classChange_starts | split | simp

theorem State.judgeCut_starts {b0 : Store} (m : Summary) (h : b0.starts s.store) :
    b0.starts (s.judgeCut m).store := by
  unfold State.judgeCut
  with_reducible repeat' first | exact h | apply State.classChange_starts | split | simp

theorem State.judgeBypass_starts {b0 : Store} (m : Summary) (h : b0.starts s.store) :
    b0.starts (s.judgeBypass m).store := by
  unfold State.judgeBypass
  with_reducible repeat' first | exact h | apply State.classChange_starts | split | simp

theorem State.collectPost_starts {b0 : Store} (m : Summary) (h : b0.starts s.store) :
    b0.starts (s.collectPost m).store := by
  unfold State.collectPost
  with_reducible repeat' first | exact h | apply State.request_starts_if | split | simp

theorem State.tamperTakes_starts {b0 : Store} (m : Summary) (h : b0.starts s.store) :
    b0.starts (s.tamperTakes m).store := by
  unfold State.tamperTakes
  with_reducible repeat' first
    | exact h | apply State.judgeReverse_starts | apply State.judgeResidual_starts | apply State.judgeCut_starts
    | apply State.judgeBypass_starts | apply State.collectPost_starts

theorem State.leaveJammed_starts {b0 : Store} (h : b0.starts s.store) :
    b0.starts (s.leaveJammed).store := by
  unfold State.leaveJammed
  with_reducible repeat' first | exact h | apply State.followEnd_starts | split | simp

theorem State.enterJammed_starts {b0 : Store} (h : b0.starts s.store) :
    b0.starts (s.enterJammed).store := by
  unfold State.enterJammed
  with_reducible repeat' first | exact h | apply State.followOnset_starts | split | simp

theorem State.attemptFails_starts {b0 : Store} (h : b0.starts s.store) :
    b0.starts (s.attemptFails).store := by
  unfold State.attemptFails
  with_reducible repeat' first | exact h | apply State.enterJammed_starts | split | simp

theorem State.completeOperation_starts {b0 : Store} (t : Nat) (h : b0.starts s.store) :
    b0.starts (s.completeOperation t).store := by
  unfold State.completeOperation
  with_reducible repeat' first | exact h | apply State.request_starts_if | split | simp

theorem State.creditTest_starts {b0 : Store} (a : Bool) (h : b0.starts s.store) :
    b0.starts (s.creditTest a).store := by
  unfold State.creditTest
  with_reducible repeat' first | exact h | apply State.handHold_starts | split | simp

theorem State.evalFriendly_starts {b0 : Store} (h : b0.starts s.store) :
    b0.starts (s.evalFriendly).store := by
  unfold State.evalFriendly
  with_reducible repeat' first | exact h | apply State.creditTest_starts | split | simp

theorem State.bringInBackoff_starts {b0 : Store} (h : b0.starts s.store) :
    b0.starts (s.bringInBackoff).store := by
  unfold State.bringInBackoff
  with_reducible repeat' first | exact h | apply State.request_starts_if | split | simp

theorem State.coverOnset_starts {b0 : Store} (w : Cover) (h : b0.starts s.store) :
    b0.starts (s.coverOnset w).store := by
  unfold State.coverOnset
  with_reducible repeat' first | exact h | apply State.arrive_starts | split | simp

theorem State.endWindow_starts {b0 : Store} (h : b0.starts s.store) :
    b0.starts (s.endWindow).store := by
  unfold State.endWindow
  with_reducible repeat' first | exact h | apply State.request_starts_if | apply State.coverOnset_starts | split | simp

theorem State.endSilence_starts {b0 : Store} (h : b0.starts s.store) :
    b0.starts (s.endSilence).store := by
  unfold State.endSilence
  with_reducible repeat' first | exact h | apply State.latchEnd_starts | split | simp

theorem State.validFrame_starts {b0 : Store} (k : Byte) (p : List Byte) (h : b0.starts s.store) :
    b0.starts (s.validFrame k p).store := by
  unfold State.validFrame
  with_reducible repeat' first | exact h | apply State.endSilence_starts | split | simp

theorem State.requestResidue_starts {b0 : Store} (v r : Bool) (h : b0.starts s.store) :
    b0.starts (s.requestResidue v r).store := by
  unfold State.requestResidue
  exact State.request_starts_if _ _ (h.of_eq rfl rfl)

theorem State.countCode_starts {b0 : Store} (st : Status) (k q : Option Nat) (h : b0.starts s.store) :
    b0.starts (s.countCode st k q).store := by
  unfold State.countCode
  with_reducible repeat' first | exact h | apply State.request_starts_if | split | simp

theorem State.trip_starts {b0 : Store} (h : b0.starts s.store) :
    b0.starts (s.trip).store := by
  unfold State.trip
  with_reducible repeat' first | exact h | apply State.request_starts_if | apply State.handHold_starts | split | simp

theorem State.superviseBlock_starts {b0 : Store} (w : SwitchState) (n : Nat) (h : b0.starts s.store) :
    b0.starts (s.superviseBlock w n).store := by
  unfold State.superviseBlock
  with_reducible repeat' first | exact h | apply State.trip_starts | split | simp

theorem State.newMinute_starts {b0 : Store} (h : b0.starts s.store) :
    b0.starts (s.newMinute).store := by
  unfold State.newMinute
  with_reducible repeat' first | exact h | apply State.evalFriendly_starts | split

theorem State.takeInto_starts {b0 : Store} (rest : List Entry) (p : Purpose) (h : b0.starts s.store) :
    b0.starts (s.takeInto rest p).store := by
  unfold State.takeInto
  with_reducible repeat' first | exact h | apply State.request_starts_if | split | simp

theorem State.activate_starts {b0 : Store} (h : b0.starts s.store) :
    b0.starts (s.activate).store := by
  unfold State.activate
  with_reducible repeat' first | exact h | apply State.request_starts_if | split

theorem State.lockoutReached_starts {b0 : Store} (h : b0.starts s.store) :
    b0.starts (s.lockoutReached).store := by
  unfold State.lockoutReached
  with_reducible repeat' first | exact h | apply State.request_starts_if | split

theorem State.backoffTest_starts {b0 : Store} (h : b0.starts s.store) :
    b0.starts (s.backoffTest).store := by
  unfold State.backoffTest
  with_reducible repeat' first | exact h | apply State.request_starts_if | apply State.handHold_starts | split | simp

theorem State.backoffReached_starts {b0 : Store} (h : b0.starts s.store) :
    b0.starts (s.backoffReached).store := by
  unfold State.backoffReached
  with_reducible repeat' first | exact h | apply State.bringInBackoff_starts | apply State.backoffTest_starts | split

theorem State.clockTests_starts {b0 : Store} (h : b0.starts s.store) :
    b0.starts (s.clockTests).store := by
  unfold State.clockTests
  with_reducible repeat' first
    | exact h | apply State.activate_starts | apply State.lockoutReached_starts | apply State.backoffReached_starts | split
    | simp

theorem State.releaseHeld_starts {b0 : Store} (h : b0.starts s.store) : b0.starts s.releaseHeld.store := by
  have hf : ∀ (l : List Arrival) (x : State), b0.starts x.store →
      b0.starts (l.foldl (fun x a => (x.countTaken a).takeArrival a) x).store := by
    intro l
    induction l with
    | nil => exact fun x h => h
    | cons a l ih => exact fun x h => ih _ (State.takeArrival_starts _ a (by simpa using h))
  exact hf _ _ (by simpa using h)

theorem State.register_starts {b0 : Store} (b : BlockResult) (mag : Bool) (h : b0.starts s.store) :
    b0.starts (s.register b mag).store := by
  unfold State.register
  with_reducible repeat' first | exact h | apply State.tamperTakes_starts | apply State.superviseBlock_starts | split | simp

theorem State.blockDone_starts {b0 : Store} (l : List SampleSet) (mag : Bool) (h : b0.starts s.store) :
    b0.starts (s.blockDone l mag).store := by
  unfold State.blockDone
  with_reducible repeat' first | exact h | apply State.register_starts | split

theorem State.chargeHead_starts {b0 : Store} (h : b0.starts s.store) :
    b0.starts (s.chargeHead).store := by
  unfold State.chargeHead
  with_reducible repeat' first | exact h | apply State.takeInto_starts | split | simp

theorem State.writePending_starts {b0 : Store} (h : b0.starts s.store) :
    b0.starts (s.writePending).store := by
  unfold State.writePending
  with_reducible repeat' first | exact h | apply State.takeInto_starts | split

theorem State.takeBoundary_starts {b0 : Store} (h : b0.starts s.store) :
    b0.starts (s.takeBoundary).store := by
  unfold State.takeBoundary
  with_reducible repeat' first | exact h | apply State.takeInto_starts | split

theorem State.takeAdoption_starts {b0 : Store} (h : b0.starts s.store) :
    b0.starts (s.takeAdoption).store := by
  unfold State.takeAdoption
  with_reducible repeat' first | exact h | apply State.request_starts_if | split | simp

theorem State.takeCode_starts {b0 : Store} (h : b0.starts s.store) :
    b0.starts (s.takeCode).store := by
  unfold State.takeCode
  with_reducible repeat' first | exact h | apply State.takeInto_starts | split | simp

theorem State.takeEmergency_starts {b0 : Store} (h : b0.starts s.store) :
    b0.starts (s.takeEmergency).store := by
  unfold State.takeEmergency
  with_reducible repeat' first | exact h | apply State.takeInto_starts | split | simp

theorem State.takeEntry_starts {b0 : Store} (h : b0.starts s.store) :
    b0.starts (s.takeEntry).store := by
  unfold State.takeEntry
  with_reducible repeat' first | exact h | apply State.takeInto_starts | split

theorem State.secondPasses_starts {b0 : Store} (h : b0.starts s.store) :
    b0.starts (s.secondPasses).store := by
  unfold State.secondPasses
  with_reducible repeat' first | exact h | apply State.newMinute_starts | apply State.clockTests_starts | split | simp

theorem State.takeSetTime_starts {b0 : Store} (v : Nat) (d : Option Nat) (h : b0.starts s.store) :
    b0.starts (s.takeSetTime v d).store := by
  unfold State.takeSetTime
  with_reducible repeat' first | exact h | apply State.request_starts_if | split | simp

theorem State.refuseSetTime_starts {b0 : Store} (v : Nat) (h : b0.starts s.store) :
    b0.starts (s.refuseSetTime v).store := by
  unfold State.refuseSetTime
  with_reducible repeat' first | exact h | apply State.clockStep_starts | split | simp

theorem State.examineSetTime_starts {b0 : Store} (v : Nat) (h : b0.starts s.store) :
    b0.starts (s.examineSetTime v).store := by
  unfold State.examineSetTime
  with_reducible repeat' first | exact h | apply State.takeSetTime_starts | apply State.refuseSetTime_starts | split | simp

theorem State.takeClearTamper_starts {b0 : Store} (m q : Nat) (h : b0.starts s.store) :
    b0.starts (s.takeClearTamper m q).store := by
  unfold State.takeClearTamper
  with_reducible repeat' first | exact h | apply State.request_starts_if | split | simp

theorem State.handEffect_starts {b0 : Store} (k q a : Nat) (h : b0.starts s.store) :
    b0.starts (s.handEffect k q a).store := by
  unfold State.handEffect
  with_reducible repeat' first | exact h | apply State.request_starts_if | apply State.takeClearTamper_starts | split | simp

theorem State.examineWord_starts {b0 : Store} (u : Nat) (h : b0.starts s.store) :
    b0.starts (s.examineWord u).store := by
  unfold State.examineWord
  with_reducible repeat' first | exact h | apply State.countCode_starts | apply State.handEffect_starts | split | simp

theorem State.submit_starts {b0 : Store} (l : List Byte) (h : b0.starts s.store) :
    b0.starts (s.submit l).store := by
  unfold State.submit
  with_reducible repeat' first | exact h | apply State.examineWord_starts | split | simp

theorem State.keyEnter_starts {b0 : Store} (h : b0.starts s.store) :
    b0.starts (s.keyEnter).store := by
  unfold State.keyEnter
  with_reducible repeat' first | exact h | apply State.submit_starts | split | simp

theorem State.examineKey_starts {b0 : Store} (k : Byte) (h : b0.starts s.store) :
    b0.starts (s.examineKey k).store := by
  unfold State.examineKey
  with_reducible repeat' first | exact h | apply State.keyEnter_starts | split | simp

theorem State.examineEnter_starts {b0 : Store} (l : List Byte) (h : b0.starts s.store) :
    b0.starts (s.examineEnter l).store := by
  unfold State.examineEnter
  with_reducible repeat' first | exact h | apply State.submit_starts | split | simp

theorem State.attackBegins_starts {b0 : Store} (h : b0.starts s.store) :
    b0.starts (s.attackBegins).store := by
  unfold State.attackBegins
  with_reducible repeat' first | exact h | apply State.latchOnset_starts | split | simp

theorem State.lsChanges_starts {b0 : Store} (ls : Tri Bool) (ms : Nat) (h : b0.starts s.store) :
    b0.starts (s.lsChanges ls ms).store := by
  unfold State.lsChanges
  with_reducible repeat' first | exact h | apply State.attemptFails_starts | split | simp

theorem State.confirm_starts {b0 : Store} (h : b0.starts s.store) :
    b0.starts (s.confirm).store := by
  unfold State.confirm
  with_reducible repeat' first | exact h | apply State.completeOperation_starts | split | simp

theorem State.endPulse_starts {b0 : Store} (h : b0.starts s.store) :
    b0.starts (s.endPulse).store := by
  unfold State.endPulse
  with_reducible repeat' first | exact h | apply State.completeOperation_starts | split | simp

theorem State.endWatch_starts {b0 : Store} (h : b0.starts s.store) :
    b0.starts (s.endWatch).store := by
  unfold State.endWatch
  with_reducible repeat' first | exact h | apply State.attemptFails_starts | split | simp

theorem State.examineRemote_starts {b0 : Store} (c : Byte) (h : b0.starts s.store) :
    b0.starts (s.examineRemote c).store := by
  unfold State.examineRemote
  with_reducible repeat' first | exact h | apply State.handHold_starts | split | simp

theorem State.retryInto_starts {b0 : Store} (w : SwitchState) (h : b0.starts s.store) :
    b0.starts (s.retryInto w).store := by
  unfold State.retryInto
  with_reducible repeat' first | exact h | apply State.leaveJammed_starts | split | simp

theorem State.examineRetry_starts {b0 : Store} (h : b0.starts s.store) :
    b0.starts (s.examineRetry).store := by
  unfold State.examineRetry
  with_reducible repeat' first | exact h | apply State.retryInto_starts | split | simp

theorem State.endCalendar_starts {b0 : Store} (h : b0.starts s.store) :
    b0.starts (s.endCalendar).store := by
  unfold State.endCalendar
  with_reducible repeat' first | exact h | apply State.creditTest_starts | split | simp

theorem State.finishStart_starts {b0 : Store} (h : b0.starts s.store) :
    b0.starts (s.finishStart).store := by
  unfold State.finishStart
  with_reducible repeat' first
    | exact h | apply State.handHold_starts | apply State.judgeTamper_starts | apply State.clockTests_starts
    | apply State.endCalendar_starts | split | simp

theorem State.tryEndStart_starts {b0 : Store} (h : b0.starts s.store) :
    b0.starts (s.tryEndStart).store := by
  unfold State.tryEndStart
  with_reducible repeat' first | exact h | apply State.finishStart_starts | split

theorem State.sensed_starts {b0 : Store} (h : b0.starts s.store) :
    b0.starts (s.sensed).store := by
  unfold State.sensed
  with_reducible repeat' first | exact h | apply State.leaveJammed_starts | apply State.tryEndStart_starts | split | simp

theorem State.coverOpens_starts {b0 : Store} (w : Cover) (h : b0.starts s.store) :
    b0.starts (s.coverOpens w).store := by
  unfold State.coverOpens
  with_reducible repeat' first | exact h | apply State.coverOnset_starts | split | simp

theorem State.coverCloses_starts {b0 : Store} (w : Cover) (h : b0.starts s.store) :
    b0.starts (s.coverCloses w).store := by
  unfold State.coverCloses
  with_reducible repeat' first | exact h | apply State.latchEnd_starts | split | simp

theorem State.magnetSeen_starts {b0 : Store} (h : b0.starts s.store) :
    b0.starts (s.magnetSeen).store := by
  unfold State.magnetSeen
  with_reducible repeat' first | exact h | apply State.latchOnset_starts | split | simp

theorem State.magnetGone_starts {b0 : Store} (h : b0.starts s.store) :
    b0.starts (s.magnetGone).store := by
  unfold State.magnetGone
  with_reducible repeat' first | exact h | apply State.latchEnd_starts | split | simp

theorem State.judgeOverheat_starts {b0 : Store} (h : b0.starts s.store) :
    b0.starts (s.judgeOverheat).store := by
  unfold State.judgeOverheat
  with_reducible repeat' first | exact h | apply State.followOnset_starts | apply State.followEnd_starts | split | simp

theorem State.judgeThermal_starts {b0 : Store} (h : b0.starts s.store) :
    b0.starts (s.judgeThermal).store := by
  unfold State.judgeThermal
  with_reducible repeat' first | exact h | apply State.handHold_starts | apply State.trip_starts | split | simp

theorem State.scan_starts {b0 : Store} (a b c : List Nat) (h : b0.starts s.store) :
    b0.starts (s.scan a b c).store := by
  unfold State.scan
  with_reducible repeat' first | exact h | apply State.judgeOverheat_starts | apply State.judgeThermal_starts | split | simp

theorem State.completeSlots_starts {b0 : Store} (h : b0.starts s.store) :
    b0.starts (s.completeSlots).store := by
  unfold State.completeSlots
  with_reducible repeat' first | exact h | apply State.request_starts_if | split | simp

theorem State.releaseDropped_starts {b0 : Store} (h : b0.starts s.store) :
    b0.starts (s.releaseDropped).store := by
  unfold State.releaseDropped
  with_reducible repeat' first | exact h | apply State.releaseHeld_starts | split | simp

theorem State.windowHoldup_starts {b0 : Store} (h : b0.starts s.store) :
    b0.starts (s.windowHoldup).store := by
  unfold State.windowHoldup
  with_reducible repeat' first | exact h | apply State.endWindow_starts | split

theorem State.deferredSwitch_starts {b0 : Store} (h : b0.starts s.store) :
    b0.starts (s.deferredSwitch).store := by
  unfold State.deferredSwitch
  with_reducible repeat' first | exact h | apply State.request_starts_if | split | simp

theorem State.windowExpires_starts {b0 : Store} (h : b0.starts s.store) :
    b0.starts (s.windowExpires).store := by
  unfold State.windowExpires
  with_reducible repeat' first | exact h | apply State.endWindow_starts | split

theorem State.examineCloseService_starts {b0 : Store} (h : b0.starts s.store) :
    b0.starts (s.examineCloseService).store := by
  unfold State.examineCloseService
  with_reducible repeat' first | exact h | apply State.endWindow_starts | split | simp

theorem State.examineInstall_starts {b0 : Store} (a : BitVec 32) (k : BitVec 120) (h : b0.starts s.store) :
    b0.starts (s.examineInstall a k).store := by
  unfold State.examineInstall
  with_reducible repeat' first | exact h | apply State.request_starts_if | split | simp

theorem State.takeConfig_starts {b0 : Store} (v : SectionValue) (h : b0.starts s.store) :
    b0.starts (s.takeConfig v).store := by
  unfold State.takeConfig
  with_reducible repeat' first | exact h | apply State.request_starts_if | split | simp

theorem State.examineConfig_starts {b0 : Store} (b : Byte) (l : List Byte) (h : b0.starts s.store) :
    b0.starts (s.examineConfig b l).store := by
  unfold State.examineConfig
  with_reducible repeat' first | exact h | apply State.takeConfig_starts | split | simp

theorem State.applyConfig_starts {b0 : Store} (v : SectionValue) (h : b0.starts s.store) :
    b0.starts (s.applyConfig v).store := by
  unfold State.applyConfig
  split
  · exact State.creditTest_starts _ _ h
  · dsimp only
    split <;> split <;> simpa using h
  · simpa using h
  · exact h

theorem State.tamperEntry_starts {b0 : Store} (h : b0.starts s.store) :
    b0.starts (s.tamperEntry).store := by
  unfold State.tamperEntry
  with_reducible repeat' first | exact h | apply State.request_starts_if | split | simp

theorem State.clearLatches_starts {b0 : Store} (l : List EvClass) (q : Nat) (time : Option Nat) (h : b0.starts s.store) :
    b0.starts (s.clearLatches l q time).store := by
  unfold State.clearLatches
  with_reducible repeat' first | exact h | apply State.judgeTamper_starts | apply State.releaseHeld_starts | split | simp

theorem State.takeTariff_starts {b0 : Store} (k b : Nat) (p : Pending) (st : Status) (h : b0.starts s.store) :
    b0.starts (s.takeTariff k b p st).store := by
  unfold State.takeTariff
  with_reducible repeat' first | exact h | apply State.request_starts_if | split | simp

theorem State.examineBegin_starts {b0 : Store} (h : b0.starts s.store) :
    b0.starts (s.examineBegin).store := by
  unfold State.examineBegin State.tariffGuard
  with_reducible repeat' first | exact h | apply State.takeTariff_starts | split | simp

theorem State.storeSection_starts {b0 : Store} (b : Byte) (l : List Byte) (h : b0.starts s.store) :
    b0.starts (s.storeSection b l).store := by
  unfold State.storeSection
  with_reducible repeat' first | exact h | apply State.takeTariff_starts | split | simp

theorem State.examineSection_starts {b0 : Store} (b : Byte) (l : List Byte) (h : b0.starts s.store) :
    b0.starts (s.examineSection b l).store := by
  unfold State.examineSection State.tariffGuard
  with_reducible repeat' first | exact h | apply State.storeSection_starts | split | simp

theorem State.commitTariff_starts {b0 : Store} (t i : Nat) (h : b0.starts s.store) :
    b0.starts (s.commitTariff t i).store := by
  unfold State.commitTariff
  with_reducible repeat' first | exact h | apply State.takeTariff_starts | split | simp

theorem State.examineCommit_starts {b0 : Store} (t i : Nat) (h : b0.starts s.store) :
    b0.starts (s.examineCommit t i).store := by
  unfold State.examineCommit State.tariffGuard
  with_reducible repeat' first | exact h | apply State.commitTariff_starts | split | simp

theorem State.discardTariff_starts {b0 : Store} (h : b0.starts s.store) :
    b0.starts (s.discardTariff).store := by
  unfold State.discardTariff
  with_reducible repeat' first | exact h | apply State.takeTariff_starts | split | simp

theorem State.examineDiscard_starts {b0 : Store} (h : b0.starts s.store) :
    b0.starts (s.examineDiscard).store := by
  unfold State.examineDiscard State.tariffGuard
  with_reducible repeat' first | exact h | apply State.discardTariff_starts | split | simp

theorem State.frameDone_starts {b0 : Store} (l : List Byte) (h : b0.starts s.store) :
    b0.starts (s.frameDone l).store := by
  unfold State.frameDone
  with_reducible repeat' first | exact h | apply State.validFrame_starts | split | simp

theorem State.takeByte_starts {b0 : Store} (b : RxByte) (h : b0.starts s.store) :
    b0.starts (s.takeByte b).store := by
  unfold State.takeByte
  with_reducible repeat' first | exact h | apply State.frameDone_starts | split | simp

theorem State.gapSeen_starts {b0 : Store} (b : RxByte) (h : b0.starts s.store) :
    b0.starts (s.gapSeen b).store := by
  unfold State.gapSeen
  with_reducible repeat' first | exact h | apply State.takeByte_starts | split | simp

theorem State.silenceExpires_starts {b0 : Store} (h : b0.starts s.store) :
    b0.starts (s.silenceExpires).store := by
  unfold State.silenceExpires
  with_reducible repeat' first | exact h | apply State.latchOnset_starts | split | simp

theorem State.examineRestart_starts {b0 : Store} (h : b0.starts s.store) :
    b0.starts (s.examineRestart).store := by
  unfold State.examineRestart
  with_reducible repeat' first | exact h | apply State.requestResidue_starts | split | simp

theorem accountWritten_starts {b0 : Store} (w : Write) (h : b0.starts s.store) :
    b0.starts (accountWritten w s).store := by
  unfold accountWritten
  with_reducible repeat' first | exact h | apply State.creditTest_starts | split | simp

theorem boundaryWritten_starts {b0 : Store} (w : Write) (h : b0.starts s.store) :
    b0.starts (boundaryWritten w s).store := by
  unfold boundaryWritten
  with_reducible repeat' first | exact h | apply State.creditTest_starts | split | simp

theorem activationWritten_starts {b0 : Store} (w : Write) (h : b0.starts s.store) :
    b0.starts (activationWritten w s).store := by
  unfold activationWritten
  with_reducible repeat' first | exact h | apply State.evalFriendly_starts | split | simp

theorem lockoutWritten_starts {b0 : Store} (w : Write) (h : b0.starts s.store) :
    b0.starts (lockoutWritten w s).store := by
  unfold lockoutWritten
  with_reducible repeat' first | exact h | apply State.latchEnd_starts | split | simp

theorem setTimeWritten_starts {b0 : Store} (w : Write) (h : b0.starts s.store) :
    b0.starts (setTimeWritten w s).store := by
  unfold setTimeWritten
  with_reducible repeat' first
    | exact h | apply State.clockStep_starts | apply State.evalFriendly_starts | apply State.clockTests_starts | split | simp

theorem countedWritten_starts {b0 : Store} (w : Write) (h : b0.starts s.store) :
    b0.starts (countedWritten w s).store := by
  unfold countedWritten
  with_reducible repeat' first | exact h | apply State.attackBegins_starts | split | simp

theorem startWritten_starts {b0 : Store} (w : Write) (h : b0.starts s.store) :
    b0.starts (startWritten w s).store := by
  unfold startWritten
  with_reducible repeat' first | exact h | apply State.tryEndStart_starts | split | simp

theorem configWritten_starts {b0 : Store} (w : Write) (h : b0.starts s.store) :
    b0.starts (configWritten w s).store := by
  unfold configWritten
  with_reducible repeat' first | exact h | apply State.applyConfig_starts | split | simp

theorem tariffWritten_starts {b0 : Store} (w : Write) (h : b0.starts s.store) :
    b0.starts (tariffWritten w s).store := by
  unfold tariffWritten
  with_reducible repeat' first | exact h | apply State.activate_starts | split | simp

theorem entryWritten_starts {b0 : Store} (w : Write) (h : b0.starts s.store) :
    b0.starts (entryWritten w s).store := by
  unfold entryWritten
  with_reducible repeat' first
    | exact h | apply State.handHold_starts | apply State.judgeTamper_starts | apply State.creditTest_starts
    | apply State.releaseHeld_starts | apply State.tamperEntry_starts | split | simp

end Sys2Proof.Machine
end

