-- ==== Sys2Proof/WellFormed.lean ====
section
/-! DEFINITION. Which commands are well formed: the operands lie in the ranges their rules give, and a command stands for
the row it belongs to. -/

namespace Sys2Proof

/-- Scan conversions: 1 to 16 codes of 10 bits (R130). -/
def scanCodesOk (l : List Nat) : Bool := 1 ≤ l.length && l.length ≤ 16 && l.all fun c => decide (c ≤ 1023)

/-- A key byte of CODE_KEY_DIGIT: CLEAR, BACK and ENTER have rows of their own (R75). -/
def digitKeyOk (key : Byte) : Bool := key != 0x0A && key != 0x0B && key != 0x0C

def Instr.wellFormed : Instr → Bool
  | .blockComplete samples _ => samples.length == 256
  | .codeKeyDigit key => digitKeyOk key
  | .codeEnter digits => digits.length ≤ 249
  | .remoteHoldSet choice => choice != 0
  | .slowScan ts1 ts2 vbk => scanCodesOk ts1 && scanCodesOk ts2 && scanCodesOk vbk
  | .start found => decide found.failed.Nodup
  | .writeConfig _ contents => contents.length ≤ 248
  | .tariffSection _ contents => contents.length ≤ 248
  | .frame bytes => !bytes.isEmpty
  | .echo payload => payload.length ≤ 249
  | .chargeQuantum | .pendingCountsWrite | .accountWriteComplete | .takeDayBoundary | .dayBoundaryWriteComplete => true
  | .takeDayAdoption | .takeCodeEntry | .emergency | .takeEmergencyEntry | .takeEntryEntry | .entryWriteComplete => true
  | .clockSecond | .tariffActivation | .tariffActivationComplete | .lockoutEnd | .lockoutEndWriteComplete => true
  | .backoffEnd | .setTime _ | .setTimeWriteComplete | .codeKeyClear | .codeKeyBack | .codeKeyEnter => true
  | .pauseTimerExpiry | .countedFailureWriteComplete | .codeAcceptWriteComplete | .coilPulseStart | .blankingEnd => true
  | .lsInputChange _ _ | .attemptConfirmed | .coilPulseEnd | .verificationWindowEnd | .buttonPress | .reconnect => true
  | .remoteHoldClear | .switchRecordWriteComplete | .relayRetry | .positionSensingEnd | .bypassSuspensionEnd => true
  | .coverOpenOnset _ | .coverOpenEnd _ | .magnetOnset | .magnetEnd | .batteryCoverOpening _ _ | .supplyFailing => true
  | .supplyGoodDip | .holdupLimitExpiry | .mainDomainLoss | .backupDomainLoss | .startWriteComplete => true
  | .resetAssert | .resetRelease | .residueWriteComplete | .durableWriteComplete _ | .windowTimerExpiry => true
  | .closeService | .lifeRecordWriteComplete | .closeCommission | .installKey _ _ | .identityWriteComplete => true
  | .configWriteComplete | .tariffBegin | .tariffCommit _ _ | .tariffDiscard | .tariffWriteComplete => true
  | .gapError _ | .lineBreak | .transmitFrame | .silenceTimerExpiry | .identify | .status _ | .readInstant => true
  | .readEnergy | .readAccount | .readDays _ | .readEvidence _ | .readSnapshot _ _ | .readCodeList => true
  | .readTariff _ _ | .readConfig _ | .linkStatus | .restart | .frameSent | .lineHighHunt => true

end Sys2Proof
end

