-- ==== Sys2Proof/Tests/Slice0.lean ====
section
/-! SUPPORT. Tests: ill-formed terms that WellFormed refuses, the manual's worked examples, one step at a time on small states,
and for each obligation with hypotheses a theorem that a concrete state and operands meet them. Expected results are the
manual's; each test names the rule or worked example it comes from. -/

namespace Sys2Proof.Tests

open Sys2Proof.Machine

/-! ### Ill-formed terms -/

theorem test_ill_formed_block : (Instr.blockComplete [] false).wellFormed = false := by decide
theorem test_ill_formed_key : (Instr.codeKeyDigit 0x0C).wellFormed = false := by decide
theorem test_ill_formed_code : (Instr.codeEnter (List.replicate 250 0)).wellFormed = false := by decide +kernel
theorem test_ill_formed_hold : (Instr.remoteHoldSet 0).wellFormed = false := by decide
theorem test_ill_formed_scan_code : (Instr.slowScan [1024] [0] [0]).wellFormed = false := by decide
theorem test_ill_formed_scan_empty : (Instr.slowScan [] [0] [0]).wellFormed = false := by decide
theorem test_ill_formed_scan_long : (Instr.slowScan (List.replicate 17 0) [0] [0]).wellFormed = false := by decide
theorem test_ill_formed_start : (Instr.start ⟨[.days, .days], false, false, false⟩).wellFormed = false := by decide
theorem test_ill_formed_config : (Instr.writeConfig 0 (List.replicate 249 0)).wellFormed = false := by decide +kernel
theorem test_ill_formed_tariff : (Instr.tariffSection 0 (List.replicate 249 0)).wellFormed = false := by decide +kernel
theorem test_ill_formed_frame : (Instr.frame []).wellFormed = false := by decide
theorem test_ill_formed_echo : (Instr.echo (List.replicate 250 0)).wellFormed = false := by decide +kernel
theorem test_well_formed : (Instr.echo [1, 2]).wellFormed = true ∧ (Instr.codeKeyDigit 9).wellFormed = true := by decide
theorem test_no_word_spells_a_command : decodeTableWord 8 0 = none ∧ State.reset.withFetchWord 8 0 = State.reset := by decide

/-! ### The manual's worked examples: arithmetic -/

/-- Section 1.2: one phase over two blocks. -/
theorem test_energy_two_blocks :
    measured 29491200000 12650 1000000000 = 86860 ∧ newResidue 29491200000 12650 1000000000 = 3820669440 ∧
    measured 29491200000 12650 3820669440 = 86861 ∧ newResidue 29491200000 12650 3820669440 = 2346371584 := by decide +kernel

/-- Section 1.3: a phase voltage. -/
theorem test_rms_voltage : rmsValue (256 * 16263 * 16263) 93000 = 23078 := by decide +kernel

/-- R11: the estimated energy under VOLTAGE-CUT. -/
theorem test_estimate : estimate 23000 12000 = 47916 := by decide

/-- Section 1.7: block A and block B of three phases through quanta and substitution, from the measured energies given there
(a gain of 2^32 makes a power sum its own energy). -/
def exampleAcc (reverse3 q sub : Nat) : Accumulators := ⟨.all3 0, q, ⟨0, 0, reverse3⟩, sub⟩
def exampleBlock (p1 : Int) : BlockResult :=
  ⟨⟨p1, 40000, -12000⟩, .all3 0, .all3 0, 0, 0, [false, false, false, false, false, false, false]⟩
def exampleCal : CalSettings := ⟨.all3 4294967296, .all3 0, .all3 0, 0, 0⟩
def exampleMeasure : MeasureSettings := { MeasureSettings.shipped with eSub := 50000 }
def noCondition : BlockInputs := ⟨false, .all3 false, false, false, .closed⟩

theorem test_block_A :
    let r := registerBlock exampleCal exampleMeasure noCondition (exampleAcc 995000 950000 980000) [0, 0, 0, 0, 0, 0, 0]
      (exampleBlock 86860)
    r.total = 138860 ∧ r.quanta = 1 ∧ r.acc = exampleAcc 7000 88860 980000 ∧ r.reverse = ⟨0, 0, 1⟩ ∧
      r.substituted = 0 := by decide +kernel

theorem test_block_B :
    let r := registerBlock exampleCal exampleMeasure { noCondition with magnet := true } (exampleAcc 7000 88860 980000)
      [0, 0, 0, 0, 0, 0, 0] (exampleBlock 86861)
    r.total = 186861 ∧ r.quanta = 0 ∧ r.acc = exampleAcc 19000 275721 28000 ∧ r.substituted = 1 ∧
      r.summary.phases.map PhaseSummary.energy = ⟨86861, 50000, 50000⟩ := by decide +kernel

/-- Section 2.8: day types and bands. -/
def exampleTariff : Tariff :=
  { prices := ⟨[1000, 1000, 1000, 2175, 1000, 1000, 1000, 1000], 7, 0⟩
    scheduleWorkday := [(0, 1), (360, 2), (1080, 3), (1320, 1)]
    scheduleRestday := [(420, 0), (1260, 4)]
    days := ⟨[false, false, false, false, false, true, true], [8854]⟩
    friendly := ⟨[(0, 360), (1200, 1440)], [(0, 1440)]⟩
    identifier := 1 }

theorem test_bands :
    [763797599, 763797600, 763848000, 763868400, 765028800].map (fun t => (exampleTariff.bandAt t, exampleTariff.friendlyAt t)) =
      [(1, true), (2, false), (3, true), (4, true), (0, true)] := by decide +kernel

/-- Sections 2.8 to 2.10: dates and day numbers (R31). -/
theorem test_dates :
    (⟨2024, 3, 15⟩ : Date).number = 8840 ∧ dateOfDay 8854 = ⟨2024, 3, 29⟩ ∧ weekdayOf 8840 = 4 ∧ dateOfDay 0 = ⟨2000, 1, 1⟩ ∧
      dateOfDay (dayOf maxClock) = ⟨2099, 12, 31⟩ ∧ (⟨2023, 2, 29⟩ : Date).valid = false := by decide +kernel

/-- Section 3.3: the charge residue over four quanta. -/
theorem test_charge_residue :
    let r := (List.range 4).foldl (fun a _ => a.charge 3 2175) { AccountRec.shipped with balance := 10000, residue := 400 }
    r.balance = 9991 ∧ r.residue = 100 ∧ r.dayCharged = 9 ∧ r.dayImport = 4 ∧ r.total = 4 ∧ r.bands.getD 3 0 = 4 := by decide +kernel

/-- Section 3.3: charging at the balance's limit. -/
theorem test_charge_at_the_limit :
    let r := { AccountRec.shipped with balance := -99999998, debt := 999999997, residue := 800 }.charge 0 4500
    r.balance = -99999999 ∧ r.debt = 999999999 ∧ r.residue = 300 ∧ r.totalCharged = 5 := by decide +kernel

/-- Section 3.6: a three-day boundary against the floor. -/
def boundaryAccount : AccountRec :=
  { AccountRec.shipped with balance := -500, emergency := true, dayImport := 6420, dayCharged := 14100 }
theorem test_three_day_boundary :
    let r := boundaryAccount.closeDays (-5000) 2000 3
    r.balance = -5000 ∧ r.debt = 1500 ∧ r.dayImport = 0 ∧ r.totalCharged = 6000 ∧
      dayRecords boundaryAccount 2000 8840 3 = [⟨8840, 6420, 16100, 0⟩, ⟨8841, 0, 2000, 0⟩, ⟨8842, 0, 2000, 0⟩] := by decide +kernel

/-- Section 3.7: a top-up with debt recovery, and the code that would overflow. -/
theorem test_top_up_recovers_debt :
    let settings := { AccountSettings.shipped with rate := 25, emergency := 5000 }
    (AccountRec.credit { AccountRec.shipped with balance := -6002, debt := 12000, emergency := true } settings 50000).map
        (fun r => (r.balance, r.debt, r.emergency)) = some (31998, 0, false) ∧
      AccountRec.credit { AccountRec.shipped with balance := 999990000 } settings 50000 = none := by decide

/-- Section 4.3: check digits. -/
def digits (n : Nat) : List Byte := digitsOf 20 n
theorem test_check_digits :
    checkOk (digits 12345678901234567868) = true ∧ checkOk (digits 12345678901234567968) = false ∧
      checkOk (digits 10000000000000000038) = true := by decide +kernel

/-- R84: F(1, 0). -/
theorem test_round_function : roundF 1 0 = 5184384 := by decide

/-- Section 4.3: the list at its full size. -/
def fullList : List Nat := (List.range 36).map (· + 140) |>.filter fun n => !([150, 158, 163, 170].contains n)
theorem test_full_list :
    let l1 := acceptSequence 176 fullList
    let l2 := acceptSequence 150 l1
    fullList.length = 32 ∧ l1.length = 32 ∧ l1.headD 0 = 141 ∧ listRefusal l1 150 = none ∧ l2.headD 0 = 142 ∧
      listRefusal l2 160 = some .used ∧ listRefusal l2 141 = some .stale ∧ listRefusal l2 170 = none ∧
      (acceptSequence 170 l2).headD 0 = 143 := by decide +kernel

/-- Section 4.4: the fifth counted failure starts a lockout of 600 s, the next one of 1,200 s. -/
theorem test_lockouts :
    let c1 := { CodeRec.shipped with failures := 4 }.countFailure 120
    let c2 := { c1.endLockout with failures := 4 }.countFailure 880
    c1.failures = 5 ∧ c1.level = 1 ∧ c1.lockEnd = some 720 ∧ c1.endLockout.failures = 0 ∧ c1.endLockout.level = 1 ∧
      c2.level = 2 ∧ c2.lockEnd = some 2080 ∧ (c2.endLockout.accept 7).level = 0 := by decide

/-- Section 6.4: the load comparison and the back-off periods. -/
theorem test_load_limit : overLimit 4600 80000 = true ∧ overLimit 4600 79861 = false ∧ overLimit 4600 79862 = true := by decide
theorem test_backoff_periods :
    backoffPeriod [5000, 5200] 5200 = 30 ∧ backoffPeriod [5000, 5200, 5400] 5400 = 1800 ∧
      backoffPeriod [5200, 5400, 8700] 8700 = 1800 ∧ backoffPeriod [5200, 5400, 9100] 9100 = 30 := by decide

/-- Section 6.6: the conversions of the loose terminal. -/
theorem test_temperatures :
    [415, 416, 417, 700, 790, 801, 745, 730, 690, 660].map (temperatureOf shippedTable) =
      [325, 326, 328, 800, 987, 1010, 893, 862, 783, 733] := by decide

/-- R135: the backup cell. -/
theorem test_backup_cell :
    cellVoltage 837 = 2700 ∧ cellVoltage 836 = 2696 ∧ cellJudged false 2700 2700 = false ∧ cellJudged false 2696 2700 = true ∧
      cellJudged true (cellVoltage 867) 2700 = true ∧ cellJudged true (cellVoltage 868) 2700 = false := by decide

/-- R191: the CRC over 31h to 39h. -/
theorem test_frame_crc : frameCrc [0x31, 0x32, 0x33, 0x34, 0x35, 0x36, 0x37, 0x38, 0x39] = 0x29B1 := by decide +kernel

/-- R131, R133: the hysteresis of OVERHEAT in section 6.6. -/
theorem test_overheat_hysteresis :
    heatJudged false [325, 800] 800 50 = true ∧ heatJudged true [328, 783] 800 50 = true ∧
      heatJudged true [328, 733] 800 50 = false ∧ heatJudged true [] 800 50 = false := by decide

/-! ### States for the step tests and witnesses -/

/-- The state a command leaves; the state itself where it stops. -/
def after (c : Instr) (s : State) : State :=
  match exec c s with
  | .next t => t
  | _ => s

/-- A part that runs in MAINS, IN-SERVICE, CLOSED, its clock VALID, its receiver hunting and nothing in hand. -/
def serving : State :=
  { State.reset with
    backup := { power := .mains, limitExpired := false, domain := .running, lastStart := .warm
                retained := { intact := true, clock := 765244700, valid := true, outageStart := none, offMark := false
                              coldMark := false, cover := .unused, term := .unused } }
    store := { State.reset.store with recs := { Records.shipped with
      identity := ⟨7, 5, true⟩, life := ⟨.inService, none⟩, days := ⟨[], some 8856, some 8855⟩ } }
    reg := { Registration.begin with established := true, blockOpen := true }
    sw := { State.reset.sw with state := .closed, ls := .all3 true }
    life := { State.reset.life with state := .inService }
    link := { Link.begin with receiver := .hunting } }

/-- A request of the kind and payload is in hand, awaiting its owner; or waiting for its write. -/
def asking (kind : Byte) (payload : List Byte) (s : State) : State :=
  s.onLink fun l => { l with inHand := some ⟨kind, payload, .owner⟩ }
def waitingFor (kind : Byte) (payload : List Byte) (s : State) : State :=
  s.onLink fun l => { l with inHand := some ⟨kind, payload, .waiting⟩ }

/-- One write is in flight. -/
def flying (p : Purpose) (puts : List RecordValue) (s : State) : State := s.onStore fun st => { st with flight := [⟨p, puts⟩] }

def holding (s : State) : State := s.onBackup fun b => { b with power := .holdup }
def dark (s : State) : State := s.onBackup fun b => { b with power := .battery, domain := .off }
def living (x : LifeState) (s : State) : State :=
  (s.onLife fun v => { v with state := x }).onStore fun st => { st with recs := { st.recs with life := ⟨x, none⟩ } }
def clockAt (t : Nat) (s : State) : State :=
  s.onBackup fun b => { b with retained := { b.retained with clock := t } }
def switchAt (x : SwitchState) (s : State) : State := s.onSw fun w => { w with state := x }
def operating (x : SwitchState) (n : Nat) (p : Progress) (s : State) : State :=
  s.onSw fun w => { w with state := x, attempt := n, progress := p }
def withHolds (h : HoldSet) (s : State) : State := s.onSw fun w => { w with record := { w.record with holds := h } }
def queued (q : List Entry) (s : State) : State := s.onAcct fun a => { a with queue := q }
def accounting (a : AccountRec) (s : State) : State :=
  s.onStore fun st => { st with recs := { st.recs with account := a } }
def configured (c : ConfigRec) (s : State) : State := s.onStore fun st => { st with recs := { st.recs with config := c } }
def coding (c : CodeRec) (s : State) : State := s.onStore fun st => { st with recs := { st.recs with code := c } }

def creditHold : HoldSet := { HoldSet.empty with credit := true }

/-! ### One step each, from the worked examples -/

/-- Section 2.10: a correction across midnight is taken, its write carrying the adjustment day 8,857. -/
theorem test_set_time_taken :
    (after (.setTime 765244900) (asking 0x20 (beBytes 4 765244900) serving)).store.flight.map Write.purpose =
      [.setTime 765244900 (some 765244700) 0 (some 8857) none] := by decide +kernel

/-- Section 2.10: when its write completes the clock reads 765,244,900 and a boundary of one day is raised. -/
theorem test_set_time_takes_effect :
    let t := after .setTimeWriteComplete (flying (.setTime 765244900 (some 765244700) 0 (some 8857) none) [] serving)
    t.clock = 765244900 ∧ t.acct.queue = [.dayBoundary 8856 1 8857] := by decide +kernel

/-- Section 2.10: the activation test finds the READY tariff due. -/
theorem test_activation :
    ((after .tariffActivation ((clockAt 765244900 serving).onStore fun st => { st with recs := { st.recs with
      tariff := ⟨.shipped, .ready .none 765244800 9⟩ } })).store.flight.map Write.purpose) = [.tariffActivation] := by
  decide +kernel

/-- Section 3.5: at 22:40 the friendly cap is reached and CREDIT is added. -/
theorem test_friendly_cap :
    let s := (accounting { AccountRec.shipped with balance := -3000 } (configured { ConfigRec.shipped with
      account := { AccountSettings.shipped with friendlyCap := 3000 } } serving)).onCal fun c => { c with friendly := true }
    (after .accountWriteComplete (flying (.charge s.store.recs.account) [] s)).sw.record.holds.credit = true ∧
      s.conditionNow = .exhausted ∧
      (accounting { AccountRec.shipped with balance := -1000 } s).conditionNow = .friendly := by decide +kernel

/-- Section 5.4: the pulse starts with the timings in force. -/
theorem test_pulse_start :
    (after .coilPulseStart ((operating .opening 1 .waiting serving).onReg fun r => { r with
      last := some ⟨.all3 ⟨23000, 0, 0, false⟩, 0, 0, false, .opening⟩ })).sw.progress = .blanking ⟨15, 300, .all3 false, 0⟩ := by
  decide +kernel

/-- Section 5.4: all absent when the blanking time ends at 15 ms; the bounce at 22 breaks the interval; 23 begins another. -/
def verifying (since : Option Nat) (now : Nat) (ls : Tri Bool) : State :=
  (operating .opening 1 (.watching ⟨15, 300, .all3 false, now⟩ since false) (withHolds creditHold serving)).onSw fun w =>
    { w with ls := ls, drive := .openLine, record := { w.record with openLast := 27, openMax := 31 } }
theorem test_blanking_end :
    (after .blankingEnd (operating .opening 1 (.blanking ⟨15, 300, .all3 false, 12⟩)
      (serving.onSw fun w => { w with ls := .all3 false }))).sw.progress =
      .watching ⟨15, 300, .all3 false, 15⟩ (some 15) false := by decide +kernel
theorem test_bounce :
    (after (.lsInputChange ⟨false, true, false⟩ 22) (verifying (some 15) 15 (.all3 false))).sw.progress =
        .watching ⟨15, 300, .all3 false, 22⟩ none false ∧
      (after (.lsInputChange (.all3 false) 23) (verifying none 22 ⟨false, true, false⟩)).sw.progress =
        .watching ⟨15, 300, .all3 false, 23⟩ (some 23) false := by decide +kernel

/-- Section 5.4: confirmed at 43 with operate time 23; the operation completes at the pulse's end: OPEN, last 23, largest 31. -/
theorem test_confirmed :
    (after .attemptConfirmed (verifying (some 23) 23 (.all3 false))).sw.progress = .confirmed 23 := by decide +kernel
theorem test_operation_completes :
    let t := after .coilPulseEnd ((verifying none 43 (.all3 false)).onSw fun w => { w with progress := .confirmed 23 })
    t.sw.state = .opened ∧ t.sw.record.openLast = 23 ∧ t.sw.record.openMax = 31 ∧ t.sw.attempt = 0 := by decide +kernel

/-- Section 5.4: the third failed attempt leaves JAMMED. -/
theorem test_jam :
    let t := after .verificationWindowEnd ((verifying none 300 ⟨false, true, false⟩).onSw fun w =>
      { w with attempt := 3, drive := .none })
    t.sw.state = .jammed ∧ t.life.faults = [.relayJammed] := by decide +kernel

/-- R113, R114: a press is an acknowledgement in ARMED; a RECONNECT taken in CLOSED is refused NOT-ARMED. -/
theorem test_acknowledgement :
    (after .buttonPress (switchAt .armed serving)).sw.state = .closing ∧
      (after .reconnect (asking 0x13 [] serving)).link.inHand = some ⟨0x13, [], .replied [0x0C, 0, 0]⟩ := by decide +kernel

/-- R101, R103: a REMOTE-HOLD set in CLOSED begins an opening. -/
theorem test_remote_hold :
    (after (.remoteHoldSet 1) (asking 0x21 [1] serving)).sw.state = .opening ∧
      (after .remoteHoldClear (asking 0x21 [0] serving)).link.inHand = some ⟨0x21, [0], .replied [0, 0, 0]⟩ := by
  decide +kernel

/-- Section 6.6, scan 3: TS2 at 801 adds THERMAL; with BACKUP-LOW raised at 836. -/
theorem test_scan :
    let t := after (.slowScan [416, 416, 416, 416] [801, 801, 801, 801] [836, 836, 836, 836]) serving
    t.sw.record.holds.thermal = true ∧ t.sup.overheat = true ∧ t.sup.sensor2 = ⟨some 1010, false⟩ ∧
      t.life.faults = [.backupLow] := by decide +kernel

/-- Section 7.9: a magnet's onset in a full log: record 166 goes, 214 comes with slot 0, which record 170 loses. -/
def finalRecord (n : Nat) : EvRecord :=
  { blankRecord .outage .ended none with
    number := n, slot := if n = 170 then some 0 else if n = 188 then some 1 else if n = 201 then some 2
      else if n = 207 then some 3 else none }
def fullLog : State :=
  serving.onTam fun t => { t with
    evidence := ⟨(List.range 48).map fun k => finalRecord (166 + k), 214⟩
    slots := [some ⟨170, [], [], false⟩, some ⟨188, [], [], false⟩, some ⟨201, [], [], false⟩, some ⟨207, [], [], false⟩] }
theorem test_magnet_onset :
    let t := after .magnetOnset fullLog
    t.tam.evidence.log.head? = some (finalRecord 167) ∧ t.tam.evidence.next = 215 ∧ t.penalty = true ∧
      t.tam.slots.getD 0 none = some ⟨214, [], [], true⟩ ∧
      t.tam.evidence.log.getLast? = some { blankRecord .magnet .opened (some 765244700) with number := 214, slot := some 0 } ∧
      (t.tam.evidence.log.find? fun r => r.number == 170).map EvRecord.slot = some none := by decide +kernel

/-- Section 8.5: the outage start is written at the change to HOLDUP, and the cover openings are counted in BATTERY. -/
theorem test_holdup :
    let t := after .supplyFailing (queued [.quanta none 1] (clockAt 765300000 serving))
    t.holdup = true ∧ t.backup.retained.outageStart = some 765300000 ∧ t.acct.queue = [] := by decide +kernel
/-- R170, R174: the start write of a RESET-LINE start that completes in HOLDUP leaves the outage start; a WARM start's clears it. -/
theorem test_outage_start_outlives_a_reset_line_start :
    let s := flying .startWrite [] (holding (serving.onBackup fun b => { b with
      domain := .abandoned .resetLine, lastStart := .resetLine, retained := { b.retained with outageStart := some 765244700 } }))
    (after .startWriteComplete s).backup.retained.outageStart = some 765244700 ∧
      (after .startWriteComplete (s.onBackup fun b => { b with lastStart := .warm })).backup.retained.outageStart = none := by
  decide +kernel
theorem test_cover_on_battery :
    let t := after (.batteryCoverOpening .main true) ((dark (clockAt 765303790 serving)).onBackup fun b => { b with
      retained := { b.retained with cover := ⟨1, some 765303605, false⟩ } })
    t.backup.retained.cover = ⟨2, some 765303605, true⟩ := by decide +kernel

/-- Section 8.5: the WARM start appends the OUTAGE record and the cover's conversion, and counts the outage. -/
def afterOutage : State :=
  (dark (clockAt 765307200 serving)).onBackup fun b => { b with retained := { b.retained with
    outageStart := some 765300005, offMark := true, cover := ⟨2, some 765303605, true⟩ } }
theorem test_warm_start :
    let t := after (.start ⟨[], true, false, false⟩) afterOutage
    t.backup.lastStart = .warm ∧ t.sup.supply.outages = 1 ∧ t.tam.evidence.log =
      [{ blankRecord .outage .ended (some 765300005) with number := 1, finish := some 765307200, value := some 0 },
       { blankRecord .coverOpen .opened (some 765303605) with number := 2, repeats := 1, onBattery := true }] := by
  decide +kernel

/-- Sections 8.5 and 9.9: a flat cell makes a COLD start; a failed days record is reinitialised. -/
theorem test_cold_start :
    let t := after (.start ⟨[.days], false, false, false⟩) (after .backupDomainLoss (dark serving))
    t.backup.lastStart = .cold ∧ t.clock = 0 ∧ t.life.faults = [.storeRepaired, .clockInvalid] ∧
      t.life.repaired = [.days] := by decide +kernel

/-- Section 10.7: an arriving STATUS is owed a BUSY while a SET-TIME is in hand; a further frame is discarded. -/
theorem test_busy :
    let t := after (.status 0) (waitingFor 0x20 [0, 0, 0, 0] serving)
    t.link.busyOwed = some ⟨0x82, false⟩ ∧ (after (.echo []) t).link.busyOwed = some ⟨0x82, false⟩ := by decide +kernel

/-- R191, R192: an ECHO frame is received and answered with its payload. -/
theorem test_echo :
    (after (.frame (received (frameBytes 0x0D [9]))) serving).link.inHand = some ⟨0x0D, [9], .owner⟩ ∧
      (after (.echo [9]) serving).link.inHand = some ⟨0x0D, [9], .replied [0, 9]⟩ := by decide +kernel

/-- R75, R77: a digit is appended and the pause timer runs; its expiry empties the buffer with a KEYPAD notice. -/
theorem test_keys :
    (after (.codeKeyDigit 7) (asking 0x10 [7] serving)).code.digits = [7] ∧
      (after .pauseTimerExpiry (serving.onCode fun c => { c with digits := [7], pauseRunning := true })).link.notices =
        [.keypad] := by decide +kernel

/-- R84, R85: a CREDIT code of 5,000 made for serial 7 and key 5 joins the account queue as 50,000 mc. -/
def creditWord : Nat :=
  let fields := 2 ^ 56 + 181 * 2 ^ 40 + 5000 * 65536
  fields + (crc16 0 (codeMessage 7 fields)).toNat
theorem test_credit_code :
    (after (.codeEnter (printedCode 5 creditWord)) (asking 0x11 (printedCode 5 creditWord) serving)).acct.queue =
      [.code 1 50000 181] := by decide +kernel

/-- R83: a mistyped code is refused CHECK and nothing is counted. -/
theorem test_check_refusal :
    let s := asking 0x11 (digits 12345678901234567968) serving
    (after (.codeEnter (digits 12345678901234567968)) s).code.last.outcome = some .check ∧
      (after (.codeEnter (digits 12345678901234567968)) s).store.flight = [] := by decide +kernel

/-- R57, R56: a quantum taken in service at band 0. -/
theorem test_quantum :
    let s := queued [.quanta none 2] (accounting { AccountRec.shipped with balance := 10000 } serving)
    (after .chargeQuantum s).acct.queue = [.quanta none 1] ∧
      (after .chargeQuantum s).store.flight.map Write.purpose =
        [.charge { AccountRec.shipped with balance := 10000, total := 1, bands := [1, 0, 0, 0, 0, 0, 0, 0], dayImport := 1 }] := by
  decide +kernel

/-- R111, R120: operate times of a completion in HOLDUP are written at the return, be they equal to the stored ones. -/
theorem test_times_written_at_the_return :
    .switchRecord ∈ (after .supplyGoodDip (holding (serving.onSw fun w => { w with timesDue := true }))).underWay ∧
      .switchRecord ∉ (after .supplyGoodDip (holding serving)).underWay := by decide +kernel

/-- R167: once the limit has expired a write that waits and is not permitted in HOLDUP does not keep the main domain on. -/
theorem test_limit_with_a_deferred_write :
    let s := (holding serving).onStore fun st => { st with waiting := [.switchRecord] }
    (after .holdupLimitExpiry s).backup.power = .battery ∧
      (after .holdupLimitExpiry (s.onStore fun st => { st with waiting := [.residue true false] })).backup.power = .holdup := by
  decide +kernel

/-- R184: a reinitialised snapshot record whose write the change to HOLDUP dropped is written at the return. -/
theorem test_reinitialised_snapshot_is_written :
    .evidenceLog true true ∈
      (after .supplyGoodDip ((holding serving).onStore fun st => { st with bad := [.snapshot] })).underWay := by decide +kernel

/-- R91: a lockout's end is asked for while the write of a SET-TIME is in flight, and waits for it. -/
theorem test_lockout_end_waits :
    (after .lockoutEnd (flying (.setTime 765244900 none 0 none none) [] (coding ⟨[], 5, 1, some 765244700⟩
      serving))).underWay = [.setTime 765244900 none 0 none none, .lockoutEnd] := by decide +kernel

/-- R138: the silence timer's expiry while LINK-SILENCE is present is no onset and counts no repeat. -/
theorem test_silence_again :
    let s := serving.onLink fun l => { l with silenceRunning := true }
    let t := after .silenceTimerExpiry s
    t.tam.linkSilence = true ∧ isLatched t.tam.evidence.log .linkSilence = true ∧
      (after .silenceTimerExpiry (t.onLink fun l => { l with silenceRunning := true })).tam.evidence = t.tam.evidence := by
  decide +kernel

/-- R183: the write that an earlier window's expiry asked for does not answer the CLOSE-SERVICE that closed the next one. -/
theorem test_close_service_waits_for_its_write :
    let s := (waitingFor 0x2A [] (flying .lifeRecord [.life ⟨.serviceWindow, some 4⟩] serving))
    (after .lifeRecordWriteComplete s).link.inHand = s.link.inHand := by decide +kernel

/-! ### Witnesses: concrete states and operands that meet each obligation's hypotheses -/

/-- A request put in hand of a part whose link runs is one its owner examines. -/
theorem asking_examines (kind : Byte) (payload : List Byte) (s : State) (h : s.linkUp = true) :
    (asking kind payload s).examines kind payload := ⟨h, rfl⟩

theorem exec_after (c : Instr) (s : State) : exec c s = .next (after c s) := by
  unfold after
  cases c <;> rfl

theorem witness_StepTakesFrontCommand :
    ({ serving with pending := [.clockSecond, .restart] } : State).pending = .clockSecond :: [.restart] ∧
      serving.pending = [] := ⟨rfl, rfl⟩

theorem witness_RecordsChangeOnlyAtCompletions :
    exec .clockSecond serving = .next (after .clockSecond serving) ∧ completionOf .clockSecond = none ∧
      (∀ found, Instr.clockSecond ≠ .start found) ∧ Instr.clockSecond ≠ .resetAssert :=
  ⟨exec_after _ _, rfl, by intro; simp, by simp⟩

theorem witness_CompletionStoresTheWrite :
    completionOf .lockoutEndWriteComplete = some Purpose.isLockoutEnd ∧
      (flying .lockoutEnd [.code .shipped] serving).completes Purpose.isLockoutEnd ⟨.lockoutEnd, [.code .shipped]⟩ [] ∧
      (flying .lockoutEnd [.code .shipped] serving).mains = true ∧
      (let s := serving.onStore fun st => { st with waiting := [.lockoutEnd, .residue true false] }
       s.store.flight = [] ∧ s.store.waiting.find? s.startsNext = some .lockoutEnd ∧
        (holding s).store.waiting.find? (holding s).startsNext = some (.residue true false)) ∧
      serving.mains = true ∧ serving.store.flight = [] ∧ serving.store.waiting = [] ∧
      exec .supplyFailing serving = .next (after .supplyFailing serving) ∧
      ⟨.residue true false, [.residue ⟨.zero, true⟩]⟩ ∈ (after .supplyFailing serving).store.flight := by
  refine ⟨rfl, rfl, rfl, by decide, rfl, rfl, rfl, exec_after _ _, by decide +kernel⟩

/-- One write in flight with two waiting; nothing carried. -/
def writing : State := (flying .switchRecord [] serving).onStore fun st => { st with waiting := [.lockoutEnd, .residue false false] }
theorem witness_OneWriteAtATime :
    writing.oneWrite ∧ exec .switchRecordWriteComplete writing = .next (after .switchRecordWriteComplete writing) := by
  refine ⟨?_, exec_after _ _⟩
  unfold State.oneWrite
  decide

theorem witness_HoldupStartsOnlyPermittedWrites :
    exec .supplyFailing serving = .next (after .supplyFailing serving) ∧ (after .supplyFailing serving).holdup = true ∧
      ⟨.residue true false, [.residue ⟨.zero, true⟩]⟩ ∈ (after .supplyFailing serving).store.flight :=
  ⟨exec_after _ _, by decide +kernel, by decide +kernel⟩

theorem witness_StoredRecordsKeepTheirRules :
    let s := flying (.identity 7 5) [.identity ⟨7, 5, true⟩] (coding ⟨fullList, 5, 1, some 9⟩ serving)
    exec .clockSecond s = .next (after .clockSecond s) ∧ s.lifeRecordSound ∧ s.codeRecordOrdered ∧ s.identitySound ∧
      s.store.recs.identity.installed = true := by
  refine ⟨exec_after _ _, ⟨by decide, ?_⟩, ⟨by unfold CodeRec.ordered; decide +kernel, ?_⟩, ?_, rfl⟩ <;> intro v hv <;>
    simp [State.carried, flying, State.onStore] at hv
  simp [hv]

theorem witness_RegistrationStaysInRange :
    serving.registrationInRange ∧ exec .supplyFailing serving = .next (after .supplyFailing serving) := by
  refine ⟨⟨?_, ?_, ?_, by decide, by decide, by decide⟩, exec_after _ _⟩
  · unfold Accumulators.inRange; decide
  · unfold Accumulators.inRange; decide
  · intro v hv
    exact absurd hv List.not_mem_nil

theorem witness_AccountRecordStaysInRange :
    (queued [.quanta none 1] serving).accountInRange ∧
      exec .chargeQuantum (queued [.quanta none 1] serving) = .next (after .chargeQuantum (queued [.quanta none 1] serving)) := by
  refine ⟨⟨?_, ?_, ?_, ?_, ?_, ?_⟩, exec_after _ _⟩
  · unfold AccountRec.inRange; decide
  · intro v hv
    exact absurd hv List.not_mem_nil
  · intro p hp
    exact absurd hp List.not_mem_nil
  · unfold AccountSettings.inRange; decide
  · intro v hv
    exact absurd hv List.not_mem_nil
  · intro p hp
    exact absurd hp List.not_mem_nil

/-- The state with one command waiting. -/
def loaded (c : Instr) (s : State) : State := { s with pending := [c] }

theorem step_loaded (c : Instr) (s : State) (h : s.pending = []) : step (loaded c s) = .next (after c s) := by
  rw [← exec_after c s]
  obtain ⟨pending⟩ := s
  subst h
  rfl

theorem witness_OneWriteAtATime_step :
    (loaded .switchRecordWriteComplete writing).oneWrite ∧
      step (loaded .switchRecordWriteComplete writing) = .next (after .switchRecordWriteComplete writing) :=
  ⟨witness_OneWriteAtATime.1, step_loaded _ _ rfl⟩

theorem witness_RegistrationStaysInRange_step :
    (loaded .supplyFailing serving).registrationInRange ∧
      step (loaded .supplyFailing serving) = .next (after .supplyFailing serving) :=
  ⟨witness_RegistrationStaysInRange.1, step_loaded _ _ rfl⟩

theorem witness_AccountRecordStaysInRange_step :
    (loaded .chargeQuantum (queued [.quanta none 1] serving)).accountInRange ∧
      step (loaded .chargeQuantum (queued [.quanta none 1] serving)) =
        .next (after .chargeQuantum (queued [.quanta none 1] serving)) :=
  ⟨witness_AccountRecordStaysInRange.1, step_loaded _ _ rfl⟩

/-- A log that holds nothing, four free slots, and nothing in flight. -/
theorem serving_logOrdered : serving.logOrdered := by
  refine ⟨⟨?_, ?_, ?_⟩, ⟨⟨rfl, ?_⟩, ⟨rfl, ?_⟩, ?_⟩, ⟨?_, ?_⟩, by decide, ?_, ?_, ?_, ?_, ?_⟩
  · unfold EvidenceRec.ordered; decide
  · unfold EvidenceRec.ordered; decide
  · intro v hv; exact absurd hv List.not_mem_nil
  · intro sl h; simp [serving, State.reset, freeSlots, Tamper.begin] at h
  · intro sl h; simp [serving, State.reset, freeSlots, Records.shipped] at h
  · intro v hv; exact absurd hv List.not_mem_nil
  · intro r hr; exact absurd hr List.not_mem_nil
  · intro k sl h; rcases k with _ | _ | _ | _ | k <;> simp [serving, State.reset, freeSlots, Tamper.begin] at h
  · intro r hr; exact absurd hr List.not_mem_nil
  · intro a ha; exact absurd ha List.not_mem_nil
  · unfold State.switchOrdered operatingState; decide
  · decide
  · decide

theorem witness_LogAndSlotsStayInOrder :
    serving.logOrdered ∧ exec .magnetOnset serving = .next (after .magnetOnset serving) ∧
      (loaded .magnetOnset serving).logOrdered ∧
      step (loaded .magnetOnset serving) = .next (after .magnetOnset serving) :=
  ⟨serving_logOrdered, exec_after _ _, serving_logOrdered, step_loaded _ _ rfl⟩

/-- The third attempt of an opening fails in a part that has a fault in its memory already. -/
def jamming : State :=
  ((operating .opening 3 (.watching ⟨15, 300, .all3 false, 300⟩ none false) serving).onLife fun v =>
    { v with memory := [.clockInvalid] })
theorem witness_FaultsKeepTheirOrder :
    exec .verificationWindowEnd jamming = .next (after .verificationWindowEnd jamming) ∧ jamming.faultsOrdered ∧
      (after .verificationWindowEnd jamming).running = true ∧
      (after .verificationWindowEnd jamming).life.faults ≠ jamming.life.faults ∧
      (∀ flag, Instr.verificationWindowEnd ≠ .status flag) ∧ FaultKind.clockInvalid ∈ jamming.life.memory := by
  refine ⟨exec_after _ _, ?_, by decide +kernel, by decide +kernel, by intro _; exact nofun, by decide⟩
  unfold State.faultsOrdered
  decide

theorem witness_BufferAndLinkStayBounded :
    (asking 0x10 [9] serving).linkBounded ∧
      exec (.codeKeyDigit 9) (asking 0x10 [9] serving) = .next (after (.codeKeyDigit 9) (asking 0x10 [9] serving)) := by
  refine ⟨?_, exec_after _ _⟩
  unfold State.linkBounded
  decide

theorem witness_AttemptCountFollowsTheSwitchState :
    (switchAt .armed serving).switchOrdered ∧ exec .buttonPress (switchAt .armed serving) =
      .next (after .buttonPress (switchAt .armed serving)) := by
  refine ⟨?_, exec_after _ _⟩
  unfold State.switchOrdered operatingState
  decide

theorem witness_ClosingNeedsAcknowledgement :
    exec .buttonPress (switchAt .armed serving) = .next (after .buttonPress (switchAt .armed serving)) ∧
      (after .buttonPress (switchAt .armed serving)).sw.state = .closing ∧ (switchAt .armed serving).sw.state ≠ .closing :=
  ⟨exec_after _ _, by decide +kernel, by decide⟩

/-- A block has been registered, with every phase's Vrms at 230 V. -/
def measuredBlock (s : State) : State :=
  s.onReg fun r => { r with last := some ⟨.all3 ⟨23000, 0, 0, false⟩, 0, 0, false, .closing⟩ }
def closingNow : State := measuredBlock (operating .closing 1 .waiting serving)
theorem witness_OnlyAPulseStartDrivesACoil :
    exec .coilPulseStart closingNow = .next (after .coilPulseStart closingNow) ∧
      (after .coilPulseStart closingNow).sw.drive ≠ .none ∧
      (after .coilPulseStart closingNow).sw.drive ≠ closingNow.sw.drive :=
  ⟨exec_after _ _, by decide +kernel, by decide +kernel⟩

def entering : State := flying .entry [.life ⟨.inService, none⟩] (living .commissioning serving)
theorem witness_LifeStateChangesOnlyByItsEvents :
    exec .entryWriteComplete entering = .next (after .entryWriteComplete entering) ∧
      (after .entryWriteComplete entering).running = true ∧
      (after .entryWriteComplete entering).life.state ≠ entering.life.state :=
  ⟨exec_after _ _, by decide +kernel, by decide +kernel⟩

theorem witness_ClockChangesOnlyByItsEvents :
    ((clockAt 3155759998 serving).clockInRange ∧
      exec .clockSecond (clockAt 3155759998 serving) = .next (after .clockSecond (clockAt 3155759998 serving))) ∧
    exec .clockSecond serving = .next (after .clockSecond serving) ∧ (after .clockSecond serving).clock ≠ serving.clock := by
  refine ⟨⟨⟨by decide, ?_⟩, exec_after _ _⟩, exec_after _ _, by decide +kernel⟩
  intro p hp
  exact absurd hp List.not_mem_nil

theorem witness_RequestCommandsStandForFrames :
    requestOf (.echo [9]) = some (0x0D, [9]) ∧ requestOf (.codeEnter [1]) = some (0x11, [1]) ∧ serving.linkUp = true ∧
      serving.link.receiver = .hunting ∧ serving.link.inHand = none ∧ lengthOk 0x0D [9] = some true ∧
      lengthOk 0x11 [1] = some false ∧ (waitingFor 0x20 [] serving).link.inHand = some ⟨0x20, [], .waiting⟩ ∧
      (⟨0x20, [], .waiting⟩ : InHand) ≠ ⟨0x0D, [9], .owner⟩ := by decide

theorem witness_FrameRoundTrip :
    (List.replicate 249 (0 : Byte)).length ≤ 249 ∧
      (∀ b ∈ [(⟨0xC3, false⟩ : RxByte), ⟨0x00, true⟩], b.stopBit = false ∨ b.value ≠ 0xC3) ∧ serving.linkUp = true ∧
      serving.link.receiver = .hunting := by decide +kernel

def receiving (r : Receiver) : State := serving.onLink fun l => { l with receiver := r }
theorem witness_LineErrorsAreCounted :
    (receiving .synced).linkUp = true ∧ (receiving .synced).link.receiver.inFrame = true ∧
      (receiving (.within 1 [])).link.receiver.inFrame = true ∧ (receiving .hunting).link.receiver = .hunting ∧
      (250 < (251 : Byte).toNat) ∧ (List.replicate 249 (0 : Byte)).length ≤ 249 ∧
      (0 : BitVec 16) ≠ frameCrc [1, 0x0D] ∧ (receiving .waitHigh).link.receiver = .waitHigh := by decide +kernel

theorem witness_ValidFramesBecomeRequests :
    ([] : List Byte).length ≤ 249 ∧ serving.linkUp = true ∧ serving.link.receiver = .hunting ∧ serving.link.inHand = none ∧
      lengthOk 0x7F [] = none ∧ lengthOk 0x02 [] = some false ∧ lengthOk 0x01 [] = some true ∧
      (waitingFor 0x20 [] serving).link.inHand = some ⟨0x20, [], .waiting⟩ := by decide

/-- A link with a reply formed, with a BUSY ready, with notices pending, and with a frame being sent. -/
def replying : State := serving.onLink fun l => { l with inHand := some ⟨0x0D, [], .replied [0]⟩ }
def busyReady : State := serving.onLink fun l => { l with busyOwed := some ⟨0x82, true⟩ }
def notifying : State := serving.onLink fun l => { l with notices := [.keypad, .life] }
def sendingNow (w : SendingKind) (s : State) : State := s.onLink fun l => { l with sending := some ⟨w, []⟩ }
theorem witness_TransmitterPriority :
    serving.canSend = true ∧ (sendingNow .reply serving).link.sending = some ⟨.reply, []⟩ ∧ serving.link.sending = none ∧
      replying.link.inHand = some ⟨0x0D, [], .replied [0]⟩ ∧
      (∀ kind p body, busyReady.link.inHand ≠ some ⟨kind, p, .replied body⟩) ∧
      busyReady.link.busyOwed = some ⟨0x82, true⟩ ∧ (∀ kind, notifying.link.busyOwed ≠ some ⟨kind, true⟩) ∧
      serving.link.notices = [] ∧ Notice.life ∈ notifying.link.notices ∧
      (∀ m ∈ notifying.link.notices, Notice.life.kindByte.toNat ≤ m.kindByte.toNat) :=
  ⟨rfl, rfl, rfl, rfl, by intro _ _ _; exact nofun, rfl, by intro _; exact nofun, rfl, by decide, by decide⟩

def restartAnswered : State := sendingNow .reply (serving.onLink fun l => { l with inHand := some ⟨0x2B, [], .replied [0]⟩ })
theorem witness_RepliesEndAndRestartFollows :
    restartAnswered.canSend = true ∧ restartAnswered.link.sending = some ⟨.reply, []⟩ ∧
      restartAnswered.link.inHand = some ⟨0x2B, [], .replied [0x00]⟩ ∧ restartAnswered.link.busyOwed = none ∧
      (restartAnswered.onLink fun l => { l with busyOwed := some ⟨0x82, false⟩ }).link.busyOwed ≠ none ∧
      (∀ p, (sendingNow .reply replying).link.inHand ≠ some ⟨0x2B, p, .replied [0x00]⟩) ∧
      (sendingNow .busy serving).link.sending = some ⟨.busy, []⟩ ∧ (asking 0x2B [] serving).examines 0x2B [] ∧
      (asking 0x2B [] serving).holdup = false ∧ (asking 0x2B [] (holding serving)).examines 0x2B [] ∧
      (asking 0x2B [] (holding serving)).holdup = true :=
  ⟨rfl, rfl, rfl, rfl, by simp [State.onLink], by intro p; simp [sendingNow, replying, State.onLink], rfl,
   asking_examines _ _ _ rfl, rfl, asking_examines _ _ _ rfl, rfl⟩

theorem witness_WaitingRequestsAreAnswered :
    (let s := flying (.config (.link 60) false) [] (waitingFor 0x27 [6, 0, 60] serving)
     completionOf .configWriteComplete = some Purpose.isConfig ∧
      s.completes Purpose.isConfig ⟨.config (.link 60) false, []⟩ [] ∧
      (0x27, .ok) ∈ answersOf (.config (.link 60) false) ∧ s.awaits 0x27 = true ∧
      (s.stored ⟨.config (.link 60) false, []⟩ []).storesAnswer 0x27 ∧ s.backup.limitExpired = false) ∧
    (let w : Write := ⟨.switchRecord, [.switch { SwitchRec.shipped with holds := { HoldSet.empty with remote := true } }]⟩
     let s := (serving.onStore fun st => { st with flight := [w] }).onLink fun l => { l with inHand := some ⟨0x21, [1], .waiting⟩ }
     completionOf .switchRecordWriteComplete = some Purpose.isSwitchRecord ∧ s.completes Purpose.isSwitchRecord w [] ∧
      (0x21, .ok) ∈ answersOf w.purpose ∧ s.awaits 0x21 = true ∧ (s.stored w []).storesAnswer 0x21) ∧
    (let w : Write := ⟨.lifeRecord, [.life ⟨.inService, none⟩]⟩
     let s := (serving.onStore fun st => { st with flight := [w] }).onLink fun l => { l with inHand := some ⟨0x2A, [], .waiting⟩ }
     completionOf .lifeRecordWriteComplete = some Purpose.isLifeRecord ∧ s.completes Purpose.isLifeRecord w [] ∧
      (0x2A, .ok) ∈ answersOf w.purpose ∧ s.awaits 0x2A = true ∧ (s.stored w []).storesAnswer 0x2A) ∧
    ((0x10, .auth) ∈ answersOf (.counted .auth none none 0) ∧ (0x11, .ok) ∈ answersOf (.setLimit none 1 .absent)) := by
  refine ⟨⟨rfl, rfl, by decide, rfl, ?_, rfl⟩, ⟨rfl, rfl, by decide, rfl, ?_⟩, ⟨rfl, rfl, by decide, rfl, ?_⟩, by decide⟩ <;>
    unfold State.storesAnswer <;> decide

theorem witness_ReadsAreAnsweredAtOnce :
    (∀ kind payload, (asking kind payload serving).examines kind payload) ∧
      (∀ kind payload, (asking kind payload (living .halted serving)).examines kind payload) ∧
      (30 : Byte).toNat ≤ 30 ∧ 30 < (31 : Byte).toNat ∧ ((3 : Byte).toNat ≤ 3 ∧ (1 : Byte).toNat ≤ 1) ∧
      ¬ ((4 : Byte).toNat ≤ 3 ∧ (1 : Byte).toNat ≤ 1) ∧ ((1 : Byte).toNat ≤ 1 ∧ (5 : Byte).toNat ≤ 5) ∧
      ¬ ((1 : Byte).toNat ≤ 1 ∧ (6 : Byte).toNat ≤ 5) :=
  ⟨fun _ _ => asking_examines _ _ _ rfl, fun _ _ => asking_examines _ _ _ rfl, by decide, by decide, by decide, by decide,
   by decide, by decide⟩

/-- An evidence record and a block summary with every field at the largest value its form holds. -/
def largestRecord : EvRecord :=
  { number := 4294967295, cls := .outage, state := .ended, onset := some 4294967295, finish := some 4294967295
    phase := some 3, value := some (-2147483648), repeats := 65535, onBattery := true, slot := some 3
    clearSeq := some 65535, clearTime := some 4294967295 }
def largestSummary : Summary := ⟨.all3 ⟨8388607, 8388607, 16777216, true⟩, 8388607, 65536, true, .jammed⟩
theorem witness_RecordForms :
    (largestRecord.number < 2 ^ 32 ∧ largestRecord.repeats ≤ 65535 ∧ (∀ t ∈ largestRecord.onset, t < 2 ^ 32) ∧
      (∀ t ∈ largestRecord.finish, t < 2 ^ 32) ∧ (∀ p ∈ largestRecord.phase, p ≤ 3) ∧
      (∀ v ∈ largestRecord.value, -2147483648 ≤ v ∧ v < 2147483648) ∧ (∀ k ∈ largestRecord.slot, k ≤ 3) ∧
      (∀ q ∈ largestRecord.clearSeq, q ≤ 65535) ∧ (∀ t ∈ largestRecord.clearTime, t < 2 ^ 32)) ∧
    (largestSummary.phases.p1.irms ≤ 8388607 ∧ largestSummary.phases.p2.irms ≤ 8388607 ∧
      largestSummary.phases.p3.irms ≤ 8388607 ∧ largestSummary.neutral ≤ 8388607) := by
  simp [largestRecord, largestSummary, Tri.all3]

def silent : State := serving.onLink fun l => { l with silenceRunning := true }
theorem witness_LatchesFollowConditions :
    (onsetOf (.coverOpenOnset .main) = some .coverOpen ∧ serving.watching = true ∧
      serving.tam.condition .coverOpen = false ∧ serving.tam.holdsBack ⟨.coverOpen, true, serving.time, none, none⟩ = false ∧
      (serving.policy .coverOpen).detect = true ∧ EvClass.coverOpen.isCover = true ∧ serving.life.state ≠ .serviceWindow ∧
      isLatched serving.tam.evidence.log .coverOpen = false) ∧
    (onsetOf .silenceTimerExpiry = some .linkSilence ∧ silent.running = true ∧ silent.mains = true ∧
      silent.link.silenceRunning = true ∧ silent.tam.condition .linkSilence = false) ∧
    (onsetOf .magnetOnset = some .magnet ∧ ((serving.onTam fun t => { t with clearing := [.magnet] }).tam.holdsBack
      ⟨.magnet, true, serving.time, none, none⟩ = true)) ∧
    (endOf .magnetEnd = some .magnet ∧ (serving.onTam fun t => { t with magnet := true }).tam.condition .magnet = true ∧
      (serving.onTam fun t => { t with magnet := true }).watching = true) ∧
    (fullLog.watching = true ∧ fullLog.mains = true ∧ fullLog.tam.condition .magnet = false ∧
      (fullLog.policy .magnet).detect = true ∧ (fullLog.policy .magnet).snapshot = true ∧
      isLatched fullLog.tam.evidence.log .magnet = false ∧ 48 ≤ fullLog.tam.evidence.log.length ∧
      (∀ x ∈ fullLog.tam.evidence.log, x.isFinal) ∧ (∀ k : Nat, fullLog.tam.slots[k]? ≠ some none) ∧
      serving.tam.slots[0]? = some none ∧ serving.tam.evidence.log.length < 48) := by
  refine ⟨by decide, by decide, by decide, by decide, by decide, by decide, by decide, by decide, by decide, by decide, by decide,
    ?_, ?_, by decide, by decide⟩
  · unfold EvRecord.isFinal
    decide +kernel
  · intro k
    match k with
    | 0 | 1 | 2 | 3 => simp [fullLog, State.onTam]
    | _ + 4 => simp [fullLog, State.onTam]

/-- 256 sample sets of one constant code on every channel. -/
def steadySamples : List SampleSet := List.replicate 256 ⟨.all3 100, .all3 100, 100⟩
/-- A load limit of 1 W with gains that make the steady samples exceed it. -/
def loadLimited : State :=
  configured { ConfigRec.shipped with
    cal := ⟨.all3 16777215, .all3 0, .all3 0, 0, 0⟩, switch := { SwitchSettings.shipped with limit := 1 } } serving
theorem witness_BlocksAreRegistered :
    serving.takesBlock steadySamples ∧ State.reset.reg.established = false ∧ serving.sound .account = true ∧
      (let s := (queued (List.replicate 14 (.quanta none 1)) loadLimited).onReg fun r => { r with
         acc := { r.acc with q := 999999 }, stuck := [0, 0, 0, 14, 15, 16, 15] }
       s.takesBlock steadySamples ∧ (s.acct.queue.filter Entry.isQuanta).length = 14 ∧
        0 < (s.registers steadySamples false).quanta ∧ (s.registers steadySamples false).stuck = [1, 1, 1, 15, 16, 16, 16]) ∧
      (let s := (configured { ConfigRec.shipped with measure := { MeasureSettings.shipped with residualBilling := true } }
         serving).onTam fun t => { t with magnet := true, residual := ⟨true, 0⟩, voltageCut := .all3 ⟨true, 0⟩ }
       s.takesBlock steadySamples ∧ s.tam.magnet = true ∧ s.tam.residual.present = true ∧
        s.config.measure.residualBilling = true ∧ s.tam.voltageCut.p1.present = true) := by
  unfold State.takesBlock
  decide +kernel

/-- Settings and counts with which the steady samples are one block short of each change: RESIDUAL beyond its threshold, every
voltage absent with a current, and current while OPEN. -/
def onTheEdge (counts : Nat) : State :=
  (configured { ConfigRec.shipped with
    cal := { CalSettings.shipped with kV := .all3 0, kI := .all3 196608, kR := 65536 }
    measure := { MeasureSettings.shipped with residualThreshold := 1, bypassThreshold := 1 } } (switchAt .opened serving)).onTam
    fun t => { t with
      residual := ⟨false, counts + 8⟩, voltageCut := .all3 ⟨false, counts + 8⟩, bypass := ⟨false, counts⟩
      reverse := .all3 ⟨true, counts + 24⟩ }
theorem witness_BlockConditionsBeginAndEnd :
    (onTheEdge 7).takesBlock steadySamples ∧ (onTheEdge 6).takesBlock steadySamples ∧
      (let s := onTheEdge 7
       let m := (s.registers steadySamples false).summary
       s.config.measure.residualThreshold < m.residual ∧ m.phases.p1.vrms < s.config.measure.presence ∧
        200 < m.phases.p1.irms ∧ m.switch = .opened ∧ s.config.measure.bypassThreshold < m.phases.p1.irms ∧
        16 ≤ s.tam.residual.count + 1 ∧ 8 ≤ s.tam.bypass.count + 1 ∧ 32 ≤ s.tam.reverse.p1.count + 1 ∧
        s.tam.suspended = false ∧ (onTheEdge 6).tam.residual.count + 1 < 16 ∧ (onTheEdge 6).tam.bypass.count + 1 < 8) ∧
      (let s := onTheEdge 7
       let t := after (.blockComplete steadySamples false) s
       t.tam.suspended = false ∧ s.tam.clearing = [] ∧ s.tam.entryHold = false ∧
        (∀ cls ∈ [EvClass.residual, .voltageCut, .relayBypass], s.tam.condition cls = false ∧ t.tam.condition cls = true ∧
          (s.policy cls).detect = true) ∧ s.tam.condition .reverse = true ∧ t.tam.condition .reverse = false) ∧
      ((onTheEdge 7).onTam fun t => { t with suspended := true }).tam.suspended = true := by
  unfold State.takesBlock
  decide +kernel

theorem witness_OverLimitBlocksTrip :
    loadLimited.takesBlock steadySamples ∧ loadLimited.inService = true ∧ loadLimited.sw.state = .closed ∧
      loadLimited.sw.record.codeLimit.getD loadLimited.config.switch.limit = 1 ∧
      1 * 1000000 < (loadLimited.registers steadySamples false).total * 57600 ∧
      loadLimited.sup.overCount + 1 < loadLimited.config.switch.persistence ∧
      loadLimited.config.switch.persistence ≤ (loadLimited.onSup fun u => { u with overCount := 79 }).sup.overCount + 1 := by
  refine ⟨?_, by decide, by decide, by decide, by decide +kernel, by decide, by decide⟩
  unfold State.takesBlock
  decide +kernel

/-- A part whose account unit may take a quantum, in each life state. -/
def charging (x : LifeState) : State := queued [.quanta (some 765244700) 2] (living x serving)
theorem witness_QuantumIsCharged :
    (∀ x : LifeState, (charging x).mayTake = true ∧ (charging x).acct.queue = .quanta (some 765244700) 2 :: []) ∧
      (charging .halted).life.state = .halted ∧ (charging .commissioning).life.state = .commissioning ∧
      (charging .inService).inService = true ∧
      (let s := charging .inService
       let x := s.onTam fun t => { t with evidence := ⟨[blankRecord .magnet .opened none], 1⟩ }
       x.mayTake = true ∧ (∃ r ∈ x.tam.evidence.log, r.state = .opened ∧ (x.policy r.cls).penalty = true) ∧
        s.tam.evidence.log = [] ∧ (queued [.quanta none 2] s).mayTake = true) := by
  refine ⟨?_, rfl, rfl, rfl, by decide⟩
  intro x
  cases x <;> decide

/-- The largest residue and debt that a debit of 3 mc leaves in range. -/
def edgeAccount : AccountRec :=
  { AccountRec.shipped with
    residue := 999, total := 999999999, balance := -99999999, debt := 999999996, totalCharged := 999999999996 }
theorem witness_ChargesAreConserved :
    let charges : List (Nat × Nat) := [(0, 2175)]
    let debits := (edgeAccount.residue + (charges.map Prod.snd).sum) / 1000
    edgeAccount.residue ≤ 999 ∧ edgeAccount.total < 1000000000 ∧ -99999999 ≤ edgeAccount.balance ∧
      edgeAccount.debt + debits ≤ 999999999 ∧ edgeAccount.totalCharged + debits ≤ 999999999999 := by decide +kernel

theorem witness_AccountUnitTakesEntries :
    (queued [.dayBoundary 8856 1 8857] serving).mayTake = true ∧ (queued [.dayAdoption 8857] serving).mayTake = true ∧
      (queued [.entry] serving).mayTake = true ∧ serving.mayTake = true ∧ serving.acct.queue = [] ∧
      (serving.onAcct fun a => { a with pendingSubstituted := 1 }).acct.pendingSubstituted ≠ 0 ∧
      (let r := { AccountRec.shipped with debt := 999999999, totalCharged := 999999999999 }
       r.debt ≤ 999999999 ∧ r.totalCharged ≤ 999999999999 ∧ (0 : Int) ≤ r.balance ∧
        { r with balance := -1 }.balance < (0 : Int)) := by decide

/-- A code entry at the head of the queue, of an amount that fits and of one that does not. -/
def codeEntry (kind amount : Nat) : State := waitingFor 0x11 [] (queued [.code kind amount 181] serving)
theorem witness_CodeEffectsOnTheAccount :
    (codeEntry 1 999999999).mayTake = true ∧ (codeEntry 1 999999999).awaitsCode = true ∧
      (codeEntry 1 999999999).acct.queue = .code 1 999999999 181 :: [] ∧
      ((codeEntry 1 999999999).accountNow.balance + 999999999 ≤ ((codeEntry 1 0).config.account.ceiling : Int)) ∧
      ¬ ((codeEntry 1 0).accountNow.balance + 1000000000 ≤ ((codeEntry 1 0).config.account.ceiling : Int)) ∧
      (codeEntry 5 1).accountNow.debt + 999999999 ≤ 999999999 ∧
      ¬ ((codeEntry 5 1).accountNow.debt + 1000000000 ≤ 999999999) := by decide +kernel

/-- Emergency credit is offered at a balance equal to the low threshold. -/
def lowBalance : State :=
  accounting { AccountRec.shipped with balance := 10000 } (configured { ConfigRec.shipped with
    account := { AccountSettings.shipped with emergency := 5000 } } serving)
theorem witness_EmergencyCredit :
    (asking 0x12 [] serving).examines 0x12 [] ∧ (asking 0x12 [] (holding serving)).examines 0x12 [] ∧
      (asking 0x12 [] (holding serving)).holdup = true ∧ (asking 0x12 [] serving).sound .account = true ∧
      ((asking 0x12 [] serving).onStore fun st => { st with unsound := [.account] }).sound .account = false ∧
      (queued [.emergency] lowBalance).mayTake = true ∧ (queued [.emergency] lowBalance).inService = true ∧
      0 < (queued [.emergency] lowBalance).config.account.emergency ∧
      lowBalance.store.recs.account.balance ≤ lowBalance.config.account.low ∧
      lowBalance.store.recs.account.emergency = false ∧ serving.config.account.emergency = 0 :=
  ⟨asking_examines _ _ _ rfl, asking_examines _ _ _ rfl, rfl, by decide, by decide, by decide, by decide, by decide,
   by decide, by decide, by decide⟩

theorem witness_AccountWriteMakesTheCreditTest :
    (let s := flying (.charge .shipped) [.account .shipped] serving
     s.completes Purpose.isPlainAccount ⟨.charge .shipped, [.account .shipped]⟩ [] ∧ s.sound .account = true ∧
      s.life.state ≠ .halted ∧ s.backup.limitExpired = false ∧ s.inService = true ∧
      (living .commissioning s).inService = false) ∧
    (let w : Write := ⟨.dayBoundary .shipped [] 8857, [.days ⟨[], some 8857, none⟩]⟩
     let s := flying w.purpose w.puts serving
     s.completes Purpose.isDayBoundary w [] ∧ s.backup.limitExpired = false ∧ s.alive = true ∧ s.mains = true ∧
      s.inService = true ∧ s.clockValid = true ∧ (after .dayBoundaryWriteComplete s).store.recs.days.lastDay = some 8857 ∧
      dayOf s.clock ≤ 8857 ∧ 8857 < dayOf (clockAt (8858 * 86400) s).clock) ∧
    (let w : Write := ⟨.dayAdoption 8857, [.days ⟨[], some 8857, none⟩]⟩
     let s := flying w.purpose w.puts (clockAt (8858 * 86400) serving)
     s.completes (fun p => p.isOther && p.covers.contains .days) w [] ∧ 8857 < dayOf s.clock ∧
      (after (.durableWriteComplete .days) s).store.recs.days.lastDay = some 8857) ∧
    (let w : Write := ⟨.dayBoundary .shipped [] 8857, [.days ⟨[], some 8857, none⟩]⟩
     let s := queued [.quanta none 1, .quanta (some (8858 * 86400 - 1)) 1, .quanta (some (8858 * 86400)) 1]
       (flying w.purpose w.puts (clockAt (8858 * 86400) serving))
     s.completes Purpose.isDayBoundary w [] ∧ (after .dayBoundaryWriteComplete s).acct.queue =
      [.quanta none 1, .quanta (some (8858 * 86400 - 1)) 1, .dayBoundary 8857 1 8858, .quanta (some (8858 * 86400)) 1]) :=
  ⟨⟨rfl, by decide, by decide, rfl, by decide, by decide⟩, ⟨rfl, by decide +kernel⟩, ⟨rfl, by decide +kernel⟩, rfl,
   by decide +kernel⟩

theorem witness_ScheduleBand :
    let t := 763797599
    let points := exampleTariff.schedule (exampleTariff.dayType (dayOf t))
    points = [] ++ (0, 1) :: [(360, 2), (1080, 3), (1320, 1)] ∧ (points.map Prod.fst).Pairwise (· < ·) ∧
      minuteOf t = 359 ∧ (∀ q ∈ [(360, 2), (1080, 3), (1320, 1)], minuteOf t < q.1) ∧
      exampleTariff.schedule (exampleTariff.dayType (dayOf 763868400)) = [(420, 0)] ++ [(1260, 4)] ∧
      minuteOf 763868400 < 420 ∧ 763797600 / 60 = 763797659 / 60 := by decide +kernel

theorem witness_ClockSecondPasses :
    State.reset.backup.retained.intact = false ∧ maxClock ≤ (clockAt maxClock serving).clock ∧
      (clockAt 765244799 serving).backup.retained.intact = true ∧ (clockAt 765244799 serving).clock < maxClock ∧
      serving.works = true ∧ (holding serving).works = true ∧
      (serving.onBackup fun b => { b with domain := .starting .supply true }).works = true ∧
      (holding (serving.onBackup fun b => { b with domain := .abandoned .supply })).works = true ∧ (dark serving).works = false ∧
      (765244799 + 1) % 60 = 0 ∧ (765244700 + 1) % 60 ≠ 0 ∧
      serving.alive = true ∧ serving.mains = true ∧ serving.inService = true ∧ serving.clockValid = true ∧
      serving.cal.outstanding = false ∧ serving.store.recs.days.lastDay = some 8856 ∧ 8856 < dayOf (765244799 + 1) ∧
      dayOf (765244700 + 1) ≤ 8856 ∧ DaysRec.shipped.lastDay = none ∧ serving.tariffBusy = false ∧
      (coding ⟨[], 5, 1, some 765244701⟩ serving).lockoutUntil = some 765244701 ∧ serving.sound .code = true ∧
      (after .clockSecond (queued [.quanta (some 765244799) 1, .quanta (some 765244800) 1] (clockAt 765244799 serving))).acct.queue =
        [.quanta (some 765244799) 1, .dayBoundary 8856 1 8857, .quanta (some 765244800) 1] := by decide +kernel

def readyTariff : State :=
  serving.onStore fun st => { st with recs := { st.recs with tariff := ⟨.shipped, .ready .none 765244700 9⟩ } }
def backedOff (until_ period : Nat) : State :=
  serving.onSup fun u => { u with supply := { u.supply with backoff := some ⟨until_, period⟩ } }
theorem witness_EndsReachedByTheClock :
    (readyTariff.alive = true ∧ readyTariff.mains = true ∧ readyTariff.clockValid = true ∧ 765244700 ≤ readyTariff.clock ∧
      readyTariff.tariffBusy = false ∧ readyTariff.store.recs.tariff.pending = .ready .none 765244700 9) ∧
    (let s := coding ⟨[], 5, 1, some 765244700⟩ serving
     s.lockoutUntil = some 765244700 ∧ s.sound .code = true ∧ 765244700 ≤ s.clock ∧ .lockoutEnd ∉ s.underWay) ∧
    (let s := backedOff 765244700 30
     s.sup.supply.backoff = some ⟨765244700, 30⟩ ∧ 765244700 ≤ s.clock + 30 ∧ 765244700 ≤ s.clock) ∧
    (let s := backedOff 765244731 30
     s.sup.supply.backoff = some ⟨765244731, 30⟩ ∧ s.clock + 30 < 765244731 ∧ s.clock ≠ maxClock) ∧
    (flying .tariffActivation [] readyTariff).completes Purpose.isActivation ⟨.tariffActivation, []⟩ [] ∧
    (let s := flying .lockoutEnd [.code .shipped] (serving.onTam fun t => { t with codeAttack := true })
     s.completes Purpose.isLockoutEnd ⟨.lockoutEnd, [.code .shipped]⟩ [] ∧ s.backup.limitExpired = false ∧
      s.tam.codeAttack = true ∧ s.tam.holdsBack ⟨.codeAttack, false, s.time, none, none⟩ = false) :=
  ⟨by decide +kernel, by decide +kernel, by decide +kernel, by decide +kernel, rfl, rfl, by decide +kernel⟩

theorem witness_SetTimeExamination :
    (∀ value : BitVec 32, (asking 0x20 (beBytes 4 value.toNat) serving).examines 0x20 (beBytes 4 value.toNat)) ∧
      (living .halted serving).life.state = .halted ∧ 3155759999 < (3155760000#32).toNat ∧
      ¬ 3155759999 < (3155759999#32).toNat ∧ (holding serving).holdup = true ∧
      (living .commissioning serving).life.state ≠ .inService ∧ serving.clockValid = true ∧
      (serving.onBackup fun b => { b with retained := { b.retained with valid := false } }).clockValid = false ∧
      ((765245000#32).toNat ≤ serving.clock + 300 ∧ serving.clock ≤ (765245000#32).toNat + 300 ∧
        (∀ d ∈ serving.store.recs.days.adjustDay, d < serving.clock / 86400)) ∧
      ¬ (765245001#32).toNat ≤ serving.clock + 300 := by
  refine ⟨fun value => asking_examines _ _ _ rfl, ?_⟩
  decide +kernel

theorem witness_SetTimeTakesEffect :
    let s := flying (.setTime 765244900 (some 765244700) 0 (some 8857) none) [] (coding ⟨[], 5, 1, some 765244900⟩
      (backedOff 765244900 30))
    s.completes Purpose.isSetTime ⟨.setTime 765244900 (some 765244700) 0 (some 8857) none, []⟩ [] ∧
      s.backup.limitExpired = false ∧ s.alive = true ∧ s.mains = true ∧
      s.sup.supply.backoff = some ⟨765244900, 30⟩ ∧ (after .setTimeWriteComplete s).lockoutUntil = some 765244900 ∧
      (after .setTimeWriteComplete s).sound .code = true := ⟨rfl, by decide +kernel⟩

/-- A part in COMMISSIONING that may enter service. -/
def commissioned : State :=
  configured { ConfigRec.shipped with written := [.cal, .measure, .account, .switch, .thermal, .tamper] }
    (living .commissioning serving)
theorem witness_EntryIntoService :
    ((asking 0x29 [] commissioned).examines 0x29 [] ∧ commissioned.life.state = .commissioning ∧
      commissioned.holdup = false ∧ commissioned.store.recs.identity.installed = true ∧ commissioned.clockValid = true ∧
      (∀ sec ∈ [ConfigSection.cal, .measure, .account, .switch, .thermal, .tamper],
        sec ∈ commissioned.store.recs.config.written) ∧
      allClasses.any commissioned.tam.condition = false ∧
      allClasses.any (commissioned.onTam fun t => { t with magnet := true }).tam.condition = true) ∧
    (serving.life.state ≠ .commissioning ∧ (holding commissioned).holdup = true ∧
      (living .commissioning serving).store.recs.config.written = []) ∧
    (entering.completes Purpose.isEntry ⟨.entry, [.life ⟨.inService, none⟩]⟩ [] ∧ entering.backup.limitExpired = false ∧
      entering.holdup = false ∧ entering.tam.heldBack = [] ∧ entering.sound .account = true) ∧
    ((queued [.entry] commissioned).mayTake = true ∧ (queued [.entry] commissioned).store.flight = [] ∧
      (queued [.entry] commissioned).store.waiting = []) ∧
    (let w : Write := ⟨.entry, Purpose.puts commissioned .entry⟩
     (flying w.purpose w.puts commissioned).completes Purpose.isEntry w [] ∧ Purpose.carries commissioned w.puts .entry) :=
  ⟨⟨asking_examines _ _ _ rfl, by decide +kernel⟩, by decide +kernel, ⟨rfl, rfl, by decide⟩, by decide, rfl,
   Purpose.carries_puts commissioned .entry⟩

def inWindow : State := serving.onLife fun v => { v with state := .serviceWindow, window := some 5, timer := some 60 }
theorem witness_ServiceWindowEnds :
    (inWindow.running = true ∧ inWindow.life.timer.isSome = true ∧ inWindow.life.state = .serviceWindow ∧
      inWindow.mains = true) ∧
    ((asking 0x2A [] inWindow).examines 0x2A [] ∧ (asking 0x2A [] serving).examines 0x2A [] ∧
      serving.life.state ≠ .serviceWindow) ∧
    (let s := inWindow.onTam fun t => { t with coverOpen := true }
     s.tam.coverSeen .main = true ∧ (s.policy Cover.main.cls).detect = true ∧ s.tam.clearing = [] ∧
      s.tam.entryHold = false) :=
  ⟨by decide, ⟨asking_examines _ _ _ rfl, asking_examines _ _ _ rfl, by decide⟩, by decide⟩

/-- R152, R186, R187: sections clamped at the ends of their ranges; TAMPER's fixed values. -/
theorem test_sections_as_stored :
    [[0, 0], [0, 1], [0, 9], [0, 10], [0x0E, 0x10], [0x0E, 0x11]].map (fun c => clampSection (readSection .link c)) =
      [.link 0, .link 10, .link 10, .link 10, .link 3600, .link 3600] ∧
    clampSection (readSection .switch [1, 19, 101, 0, 49, 0, 15]) = .switch ⟨true, 20, 100, 50, 0, 16⟩ false ∧
    clampSection (readSection .switch [0, 201, 100, 3, 232, 1, 0, 0, 4, 1]) = .switch ⟨false, 200, 100, 1000, 65536, 1024⟩ true ∧
    clampSection (readSection .tamper (List.replicate 8 31 ++ [31, 31, 31, 0, 14])) =
      .tamper (List.replicate 9 ⟨true, true, true, true, true⟩ ++ [⟨true, false, false, true, true⟩,
        ⟨true, false, false, true, true⟩, ⟨true, false, false, false, false⟩, ⟨true, false, false, false, false⟩]) := by decide +kernel
/-- R45: sections judged as clamped. -/
theorem test_tariff_sections :
    readTariffSection 1 [2, 0x05, 0xA0, 1, 0x05, 0x9F, 8] = none ∧
    readTariffSection 1 [2, 0, 0, 8, 0x05, 0xA0, 1] = some (.scheduleWorkday [(0, 7), (1439, 1)], true) ∧
    readTariffSection 3 [96, 1, 0x07, 0xE8, 2, 29] = some (.days ⟨[false, false, false, false, false, true, true], [8825]⟩, false) ∧
    readTariffSection 3 [0, 1, 0x07, 0xE7, 2, 29] = none ∧
    readTariffSection 4 [2, 0, 0, 0, 60, 0, 60, 0x05, 0xA1, 0] = some (.friendly ⟨[(0, 60), (60, 1440)], []⟩, true) ∧
    readTariffSection 4 [2, 0, 0, 0, 60, 0, 59, 0, 90, 0] = none := by decide +kernel

theorem witness_KeyAndConfigExamination :
    (∀ (serial : BitVec 32) (key : BitVec 120), (asking 0x28 (beBytes 4 serial.toNat ++ beBytes 15 key.toNat) serving).examines
      0x28 (beBytes 4 serial.toNat ++ beBytes 15 key.toNat)) ∧
    (∀ (sel : Byte) (contents : List Byte), (asking 0x27 (sel :: contents) serving).examines 0x27 (sel :: contents)) ∧
      (6 < (7 : Byte).toNat ∧ sectionByte .link = 6 ∧ serving.life.state = .inService ∧ inWindow.life.state = .serviceWindow ∧
      (living .halted serving).life.state = .halted ∧ commissioned.life.state = .commissioning ∧
      commissioned.store.recs.identity.installed = true ∧ IdentityRec.shipped.installed = false ∧
      (holding serving).holdup = true ∧
      relationsHold 1 (clampSection (readSection .account (List.replicate 22 0))) = false ∧
      relationsHold 0 (clampSection (readSection .account (List.replicate 22 0))) = true) ∧
      (flying (.identity 7 5) [] commissioned).completes Purpose.isIdentity ⟨.identity 7 5, []⟩ [] ∧
      (∀ v : SectionValue, (flying (.config v false) [] serving).completes Purpose.isConfig ⟨.config v false, []⟩ []) ∧
      (let s := flying (.config (.account .shipped) false) [] serving
       (after .configWriteComplete s).sound .account = true ∧ s.life.state ≠ .halted ∧ s.inService = true) ∧
      (∀ ack : Bool,
        let x := { SwitchSettings.shipped with ack := ack }
        let s := flying (.config (.switch x true) false) [.config { ConfigRec.shipped with switch := x }] (switchAt .armed serving)
        s.sw.state = .armed ∧ s.sw.sensing = none ∧ s.sw.record.holds.isEmpty = true ∧ s.mains = true ∧
          (after .configWriteComplete s).ackRequired = ack) :=
  ⟨fun _ _ => asking_examines _ _ _ rfl, fun _ _ => asking_examines _ _ _ rfl, by decide +kernel, rfl, fun _ => rfl,
   by decide +kernel, by decide +kernel⟩

def building (parts : PendingSections) : State :=
  inWindow.onStore fun st => { st with recs := { st.recs with tariff := ⟨.shipped, .building parts⟩ } }
theorem witness_TariffRequestExamination :
    (∀ (c : Instr) kind payload, requestOf c = some (kind, payload) →
      (asking kind payload (building .none)).examines kind payload ∧ (asking kind payload serving).examines kind payload) ∧
      (building .none).tariffBusy = false ∧ (building .none).life.state = .serviceWindow ∧
      (0x23 : Byte) ≤ 0x26 ∧ requestOf .tariffDiscard = some (0x26, []) ∧
      (building .none).store.recs.tariff.pending = .building .none ∧ PendingSections.none.complete = false ∧
      Tariff.shipped.parts.complete = true ∧ serving.store.recs.tariff.pending = .empty ∧
      readTariffSection 1 [0] = none ∧ (readTariffSection 1 [1, 0, 0, 8]).isSome = true ∧
      3155759999 < (3155760000#32).toNat :=
  ⟨fun _ _ _ _ => ⟨asking_examines _ _ _ rfl, asking_examines _ _ _ rfl⟩, by decide +kernel⟩

def typed (n : Nat) : State := serving.onCode fun c => { c with digits := List.replicate n 1, pauseRunning := true }
theorem witness_KeystrokesEditTheBuffer :
    (∀ (key : Byte) (s : State), s.linkUp = true → (asking 0x10 [key] s).examines 0x10 [key]) ∧
      serving.life.state ≠ .halted ∧ (9 : Byte).toNat ≤ 9 ∧ 12 < (13 : Byte).toNat ∧ (typed 19).code.digits.length < 20 ∧
      (typed 20).code.digits.length = 20 ∧ (typed 20).linkUp = true ∧ (living .halted serving).linkUp = true ∧
      (living .halted serving).life.state = .halted ∧ (typed 1).code.pauseRunning = true :=
  ⟨fun _ _ h => asking_examines _ _ _ h, by decide +kernel⟩

theorem witness_SubmissionsAreExaminedInOrder :
    let code := printedCode 5 creditWord
    ((asking 0x11 code serving).examines 0x11 code ∧ code.length = 20 ∧ (∀ d ∈ code, d.toNat ≤ 9) ∧
      serving.store.recs.identity.installed = true ∧ serving.holdup = false ∧ serving.store.recs.code.lockEnd = none ∧
      ofDigits (code.drop 18) = ofDigits (code.take 18) % 97 ∧
      unscramble serving.store.recs.identity.key (ofDigits (code.take 18)) = creditWord ∧
      (crc16 0 (beBytes 4 serving.store.recs.identity.serial.toNat ++ beBytes 6 (creditWord / 65536 * 16))).toNat =
        codeCheck creditWord ∧ codeKind creditWord = 1 ∧ codeSequence creditWord = 181) ∧
    ((asking 0x10 [0x0C] (typed 20)).examines 0x10 [0x0C] ∧ (typed 20).life.state ≠ .halted ∧
      (typed 19).code.digits.length < 20 ∧ ¬ (∀ d ∈ [(10 : Byte)], d.toNat ≤ 9)) ∧
    (¬ ofDigits ((digits 12345678901234567968).drop 18) = ofDigits ((digits 12345678901234567968).take 18) % 97 ∧
      (crc16 0 (codeMessage 7 (creditWord + 1))).toNat ≠ codeCheck (creditWord + 1) ∧ 181 ∈ [181] ∧
      fullList.length = 32 ∧ 139 < fullList.headD 0) :=
  ⟨⟨asking_examines _ _ _ rfl, by decide +kernel⟩, ⟨asking_examines _ _ _ rfl, by decide +kernel⟩, by decide +kernel⟩

/-- Each write of a code that may complete, and a counted failure that does and one that does not start a lockout. -/
def clearing (a : Arrival) : State :=
  flying (.clearTamper [.magnet] 9 (some 765244700) .absent) [] (serving.onTam fun t => { t with
    clearing := [.magnet], heldBack := [a] })
theorem witness_CodeWritesTakeEffect :
    (∀ p ∈ [Purpose.codeEffect .shipped 9 .absent, .setLimit (some 4600) 9 .absent, .openService 1 9 .absent,
        .clearTamper [.magnet] 9 none .absent],
      (waitingFor 0x11 [] (flying p [] serving)).completes Purpose.isAcceptance ⟨p, []⟩ [] ∧
        (waitingFor 0x11 [] (flying p [] serving)).awaitsCode = true) ∧
    serving.backup.limitExpired = false ∧ serving.sound .account = true ∧ serving.inService = true ∧ serving.tam.heldBack = [] ∧
    (let a : Arrival := ⟨.magnet, true, some 765244700, none, none⟩
     (clearing a).completes Purpose.isAcceptance ⟨.clearTamper [.magnet] 9 (some 765244700) .absent, []⟩ [] ∧
      (clearing a).tam.heldBack = [a] ∧ a.cls ∈ [EvClass.magnet] ∧ ((clearing a).policy a.cls).detect = true ∧
      (clearing a).holdup = false ∧ (holding (clearing a)).holdup = true) ∧
    (let w : Write := ⟨.counted .auth none none 765244700, [.code ⟨[], 5, 1, some 765245300⟩]⟩
     let s := waitingFor 0x11 [] (flying w.purpose w.puts serving)
     s.completes Purpose.isCounted w [] ∧ s.awaitsCode = true ∧
      (after .countedFailureWriteComplete s).store.recs.code.lockEnd ≠ none ∧
      s.tam.holdsBack ⟨.codeAttack, true, s.time, none, some 1⟩ = false ∧ (s.policy .codeAttack).detect = true ∧
      isLatched s.tam.evidence.log .codeAttack = false) ∧
    (let w : Write := ⟨.counted .auth none none 765244700, [.code ⟨[], 1, 0, none⟩]⟩
     (flying w.purpose w.puts serving).completes Purpose.isCounted w [] ∧
      (after .countedFailureWriteComplete (flying w.purpose w.puts serving)).store.recs.code.lockEnd = none) := by
  refine ⟨?_, by decide, by decide, by decide, by decide, ⟨rfl, by decide⟩, ⟨rfl, by decide +kernel⟩, rfl, by decide +kernel⟩
  unfold State.completes
  decide +kernel

theorem witness_PrintedCodesAreReadBack :
    creditWord < 2 ^ 60 ∧ scramble 5 creditWord < 10 ^ 18 ∧ (digits 12345678901234567868).length = 20 ∧
      (∀ x ∈ digits 12345678901234567868, x.toNat ≤ 9) ∧ (digits 12345678901234567868)[19]? ≠ some 9 ∧
      checkOk (digits 12345678901234567868) = true := by decide +kernel

theorem witness_AttemptsAreVerified :
    (closingNow.alive = true ∧ closingNow.mains = true ∧ closingNow.sw.progress = .waiting ∧ closingNow.sw.drive = .none ∧
      closingNow.reg.last ≠ none) ∧
    ((operating .opening 1 (.blanking ⟨15, 300, .all3 false, 12⟩) serving).sw.progress =
        .blanking ⟨15, 300, .all3 false, 12⟩ ∧ (∀ a since past, serving.sw.progress ≠ .watching a since past)) ∧
    ((verifying (some 15) 15 (.all3 false)).sw.progress = .watching ⟨15, 300, .all3 false, 15⟩ (some 15) false ∧
      (verifying (some 15) 15 (.all3 false)).lsConfirms (.all3 false) (.all3 false) ∧
      ¬ (verifying (some 15) 15 (.all3 false)).lsConfirms (.all3 false) ⟨false, true, false⟩ ∧
      closingNow.lsConfirms (.all3 false) ⟨false, true, false⟩ ∧ closingNow.lsConfirms ⟨false, true, false⟩ ⟨false, true, false⟩) :=
  ⟨by decide +kernel, ⟨rfl, by intro _ _ _; exact nofun⟩, rfl, by unfold State.lsConfirms; decide +kernel,
   by unfold State.lsConfirms; decide +kernel, by unfold State.lsConfirms; decide +kernel, by unfold State.lsConfirms; decide +kernel⟩

theorem witness_OperationsComplete :
    ((verifying (some 23) 23 (.all3 false)).sw.progress = .watching ⟨15, 300, .all3 false, 23⟩ (some 23) false ∧
      (verifying (some 23) 23 (.all3 false)).sw.drive ≠ .none ∧ operatingState (verifying (some 23) 23 (.all3 false)).sw.state) ∧
    ((operating .opening 1 (.confirmed 23) serving).sw.progress = .confirmed 23 ∧
      (∀ n, (verifying none 23 (.all3 false)).sw.progress ≠ .confirmed n)) ∧
    (let s := holding (verifying (some 23) 23 (.all3 false))
     s.holdup = true ∧ s.mains = false ∧ s.sw.progress = .watching ⟨15, 300, .all3 false, 23⟩ (some 23) false ∧
      (s.onSw fun w => { w with drive := .none }).sw.drive = .none) :=
  ⟨⟨rfl, by decide +kernel, .inl rfl⟩, ⟨rfl, by intro n; exact nofun⟩, by decide +kernel⟩

theorem witness_SwitchRequests :
    ((switchAt .armed serving).alive = true ∧ (switchAt .armed serving).mains = true ∧
      (switchAt .armed serving).sw.state = .armed ∧ (holding serving).mains = false ∧ serving.sw.state ≠ .armed) ∧
    ((asking 0x13 [] (switchAt .armed serving)).examines 0x13 [] ∧
      (asking 0x13 [] (holding (switchAt .armed serving))).examines 0x13 [] ∧ (holding serving).holdup = true) ∧
    (∀ choice : Byte, (asking 0x21 [choice] serving).examines 0x21 [choice]) ∧ 1 < (2 : Byte).toNat ∧
      serving.sw.record.holds.remote = ((0 : Byte) == 1) ∧ serving.sw.record.holds.remote ≠ ((1 : Byte) == 1) :=
  ⟨by decide +kernel, ⟨asking_examines _ _ _ rfl, asking_examines _ _ _ rfl, rfl⟩, fun _ => asking_examines _ _ _ rfl,
   by decide +kernel⟩

def sensingNow (x : Sensing) (s : State) : State := s.onSw fun w => { w with sensing := some x }
def starting (due : Bool) (s : State) : State := s.onBackup fun b => { b with domain := .starting .supply due }
theorem witness_RelayRetryAndSensing :
    ((asking 0x22 [] (switchAt .jammed serving)).examines 0x22 [] ∧ (asking 0x22 [] (holding (switchAt .jammed serving))).examines
      0x22 [] ∧ (asking 0x22 [] serving).examines 0x22 []) ∧
    ((switchAt .jammed serving).sw.state = .jammed ∧ serving.sw.state ≠ .jammed ∧ (holding serving).holdup = true ∧
      serving.holdup = false ∧ serving.sw.record.holds.isEmpty = true ∧ serving.config.switch.ack = true ∧
      creditHold.isEmpty = false ∧ serving.alive = true ∧ serving.mains = true ∧
      (sensingNow .atDip serving).sw.sensing = some .atDip ∧ (sensingNow .forRetry serving).sw.sensing = some .forRetry ∧
      (sensingNow .atStart (starting true serving)).sw.sensing = some .atStart ∧ (starting true serving).alive = true ∧
      (starting true serving).backup.domain = .starting .supply true ∧
      (starting false serving).backup.domain = .starting .supply false ∧ serving.sw.progress = .idle ∧
      (serving.onTam fun t => { t with suspended := true }).tam.suspended = true ∧ closingNow.sw.progress ≠ .idle ∧
      closingNow.sw.progress ≠ .abandoned ∧ (starting false serving).life.state ≠ .commissioning ∧
      (backedOff 765244700 30).sup.supply.backoff = some ⟨765244700, 30⟩ ∧ 765244700 ≤ (backedOff 765244700 30).clock) :=
  ⟨⟨asking_examines _ _ _ rfl, asking_examines _ _ _ rfl, asking_examines _ _ _ rfl⟩, by decide +kernel⟩

theorem witness_SlowScanJudges :
    serving.running = true ∧ serving.mains = true ∧ serving.config.thermal.averaging = 2 ∧
      2 ^ 2 ≤ [416, 416, 416, 416].length ∧ (3 ≤ 3 ∧ 1020 ≤ 1020) ∧ serving.sup.anyFaulty = false ∧
      serving.sup.overheat = false ∧ serving.sup.thermal = false ∧ serving.sup.scanned = false ∧ serving.sup.backupLow = false ∧
      (serving.onSup fun u => { u with overheat := true, thermal := true, backupLow := true, scanned := true }).sup.overheat =
        true := by decide

theorem witness_SupplyLossAndReturn :
    (serving.mains = true ∧ serving.alive = true ∧ serving.running = true ∧ (starting true serving).alive = true ∧
      serving.backup.retained.offMark = false ∧ afterOutage.backup.retained.offMark = true ∧
      inWindow.life.state = .serviceWindow) ∧
    (operatingState closingNow.sw.state ∧ (∀ time, closingNow.sw.progress ≠ .confirmed time) ∧ closingNow.sw.progress ≠ .idle) ∧
    (let s := (waitingFor 0x20 [] serving).onStore fun st => { st with waiting := [.setTime 5 none 0 none none] }
     s.link.inHand = some ⟨0x20, [], .waiting⟩ ∧ Purpose.setTime 5 none 0 none none ∈ s.store.waiting ∧
      (0x20, .ok) ∈ answersOf (.setTime 5 none 0 none none)) ∧
    (.emergency ∈ (queued [.emergency] (waitingFor 0x12 [] serving)).acct.queue ∧
      .entry ∈ (queued [.entry] (waitingFor 0x29 [] serving)).acct.queue ∧
      .code 1 50000 181 ∈ (queued [.code 1 50000 181] (waitingFor 0x11 [] serving)).acct.queue) ∧
    ((holding serving).holdup = true ∧ (holding serving).running = true ∧ (holding serving).backup.limitExpired = false ∧
      (operating .closing 1 .abandoned (holding serving)).sw.progress = .abandoned ∧
      (holding serving).sw.progress ≠ .abandoned ∧ (holding serving).sw.state = .closed ∧
      (holding serving).sw.sensing = none ∧ (holding serving).sup.supply.backoff = none ∧
      (holding (serving.onSw fun w => { w with timesDue := true })).sw.timesDue = true ∧
      (holding (backedOff 765244700 30)).sup.supply.backoff = some ⟨765244700, 30⟩ ∧
      765244700 ≤ (holding (backedOff 765244700 30)).clock ∧
      ∀ r ∈ [Record.days, .tariff, .snapshot],
        r ∈ ((holding serving).onStore fun st => { st with bad := [.days, .tariff, .snapshot] }).store.bad) :=
  ⟨by decide +kernel, ⟨.inr rfl, by intro n; exact nofun, by decide +kernel⟩, by decide +kernel, by decide +kernel,
   by decide +kernel⟩

def held (s : State) : State := s.onBackup fun b => { b with domain := .held }
theorem witness_BackupDomainEvents :
    (holding serving).holdup = true ∧
      (let s := (holding serving).onStore fun st => { st with waiting := [.switchRecord] }
       s.store.flight = [] ∧ ∀ p ∈ s.store.waiting, p.permittedInHoldup = false) ∧
      (flying .switchRecord [] (holding serving)).store.flight ≠ [] ∧
      (.residue true false ∈ ((holding serving).onStore fun st => { st with waiting := [.residue true false] }).store.waiting ∧
        (Purpose.residue true false).permittedInHoldup = true) ∧ (dark serving).backup.power = .battery ∧
      (dark serving).backup.retained.intact = true ∧ serving.backup.domain ≠ .held ∧ (held serving).backup.domain = .held ∧
      serving.running = true ∧ Purpose.switchRecord.covers = [.switch] ∧
      (CoverSlot.mk 255 (some 1) false).isOpen = false ∧
      ((held serving).mains = true ∧ (held serving).alive = false ∧ (dark serving).mains = false) ∧
      ((holding serving).onBackup fun b => { b with limitExpired := true }).backup.limitExpired = true ∧
      ((holding (held serving)).backup.limitExpired = false ∧ (holding (held serving)).backup.domain = .held ∧
        (holding (held serving)).backup.power ≠ .mains ∧ (held (dark serving)).backup.power ≠ .mains ∧
        (holding (serving.onBackup fun b => { b with domain := .awaiting .restart })).holdup = true ∧
        (serving.onBackup fun b => { b with domain := .awaiting .restart }).backup.domain = .awaiting .restart) := by
  decide +kernel

theorem afterOutage_lifeRecordSound : afterOutage.lifeRecordSound := by
  refine ⟨by decide, ?_⟩
  intro v hv
  exact absurd hv List.not_mem_nil

theorem witness_StartClassifiesAndJudges :
    (serving.backup.domain.cause = none ∧ afterOutage.backup.limitExpired = false ∧
      (afterOutage.onBackup fun b => { b with limitExpired := true }).backup.limitExpired = true) ∧
    (afterOutage.backup.domain.cause = some .supply ∧ afterOutage.lifeRecordSound ∧
      afterOutage.backup.retained.intact = true ∧ (∀ w ∈ afterOutage.store.flight, w.purpose ≠ .startWrite) ∧
      afterOutage.backup.retained.offMark = true ∧ afterOutage.backup.retained.coldMark = false) ∧
    (State.reset.backup.domain.cause = some .supply ∧ State.reset.backup.retained.intact = false ∧
      (Domain.awaiting .restart).cause = some .restart ∧ (Domain.abandoned .resetLine).cause = some .resetLine ∧
      serving.recordFails ⟨[.config], false, false, false⟩ .config ∧ ¬ serving.recordFails ⟨[], false, false, false⟩ .days) ∧
    (let s := flying .startWrite [] (starting true serving)
     s.mains = true ∧ s.backup.domain = .starting .supply true ∧
      s.completes Purpose.isStartWrite ⟨.startWrite, []⟩ [] ∧ s.sw.sensing ≠ some .atStart ∧
      (sensingNow .atStart s).sw.sensing = some .atStart ∧ s.life.state ≠ .commissioning ∧ s.backup.lastStart = .warm ∧
      (s.onBackup fun b => { b with lastStart := .resetLine }).backup.lastStart = .resetLine) ∧
    (backedOff 765244700 30).sup.supply.backoff = some ⟨765244700, 30⟩ := by
  refine ⟨⟨rfl, rfl, rfl⟩, ⟨rfl, afterOutage_lifeRecordSound, rfl, ?_, rfl, rfl⟩, ⟨rfl, rfl, rfl, rfl, .inr (by decide), ?_⟩,
    ⟨rfl, rfl, rfl, by decide, rfl, by decide, rfl, rfl⟩, rfl⟩
  · intro w hw
    exact absurd hw List.not_mem_nil
  · rintro (⟨h, -⟩ | h) <;> exact absurd h List.not_mem_nil

/-- After the outage, with a lockout and a back-off stored, a magnet at hand, and the main cover's record still OPEN. -/
def latchedCover : State :=
  (coding ⟨[], 5, 1, some 765300000⟩ afterOutage).onStore fun st => { st with recs := { st.recs with
    supply := ⟨[765299000], some ⟨765300030, 30⟩, 0, 3⟩
    evidence := ⟨[{ blankRecord .coverOpen .opened (some 765200000) with number := 6 }], 7⟩ } }
theorem witness_StartsRepairTheLogAndRecordTheOutage :
    (afterOutage.backup.domain.cause = some .supply ∧ afterOutage.backup.limitExpired = false ∧ afterOutage.logOrdered) ∧
    (let t := after (.start ⟨[], false, false, true⟩) latchedCover
     t.backup.lastStart = .warm ∧ t.sound .code = true ∧ t.tam.codeAttack = true ∧
      t.backup.retained.cover.count ≠ 0 ∧ (t.policy Cover.main.cls).detect = true ∧ (t.policy .magnet).detect = true ∧
      latchedCover.recordsFound.code.lockEnd.isSome = true ∧ isLatched latchedCover.recordsFound.evidence.log .coverOpen = true ∧
      isLatched afterOutage.recordsFound.evidence.log .coverOpen = false) ∧
    (let s := latchedCover.onBackup fun b => { b with retained := { b.retained with intact := false } }
     let t := after (.start ⟨[], false, false, false⟩) s
     t.backup.lastStart = .cold ∧ t.sound .code = true ∧ s.recordsFound.code.lockEnd.isSome = true) ∧
    (afterOutage.recordFails ⟨[.evidence], false, false, false⟩ .evidence ∧
      ¬ afterOutage.recordFails ⟨[], false, false, false⟩ .supply) := by
  refine ⟨⟨rfl, rfl, ?_⟩, by decide +kernel, by decide +kernel, .inr (by decide), ?_⟩
  · exact serving_logOrdered
  · rintro (⟨h, -⟩ | h) <;> exact absurd h List.not_mem_nil

end Sys2Proof.Tests
end

section
/-! The integer square root of R6 and the RMS values of a block. -/

namespace Sys2Proof.Machine

/-- The search keeps the root between the r found so far and r + 2 ^ k: a digit taken moves the lower end to the middle, a digit
left out the upper end. -/
theorem isqrtBits_bounds (m : Nat) : ∀ k r, r * r ≤ m → m < (r + 2 ^ k) * (r + 2 ^ k) →
    isqrtBits m k r * isqrtBits m k r ≤ m ∧ m < (isqrtBits m k r + 1) * (isqrtBits m k r + 1) := by
  intro k
  induction k with
  | zero => exact fun r hlow hhigh => ⟨hlow, hhigh⟩
  | succ k ih =>
    intro r hlow hhigh
    have hmid : r + 2 ^ (k + 1) = r + 2 ^ k + 2 ^ k := by rw [pow_succ]; omega
    rw [hmid] at hhigh
    rw [isqrtBits]
    split
    case isTrue htaken => exact ih _ htaken hhigh
    case isFalse hleft => exact ih _ hlow (Nat.lt_of_not_le hleft)

/-- The digits the search starts with are enough for m. -/
theorem lt_sq_two_pow_half_log2 (m : Nat) : m < 2 ^ (m.log2 / 2 + 1) * 2 ^ (m.log2 / 2 + 1) :=
  calc
    m < 2 ^ (m.log2 + 1) := Nat.lt_log2_self
    _ ≤ 2 ^ (m.log2 / 2 + 1 + (m.log2 / 2 + 1)) := Nat.pow_le_pow_right (by decide) (by omega)
    _ = 2 ^ (m.log2 / 2 + 1) * 2 ^ (m.log2 / 2 + 1) := pow_add ..

theorem isqrt_bounds (m : Nat) : isqrt m * isqrt m ≤ m ∧ m < (isqrt m + 1) * (isqrt m + 1) :=
  isqrtBits_bounds m _ 0 (Nat.zero_le m) (by simpa using lt_sq_two_pow_half_log2 m)

@[simp] theorem rmsValue_zero (sum : Nat) : rmsValue sum 0 = 0 := by simp [rmsValue]

theorem rmsValue_isRms (sum k : Nat) :
    (∃ q, q * q ≤ sum / 256 ∧ sum / 256 < (q + 1) * (q + 1) ∧ rmsValue sum k = min 8388607 (q * k / 65536)) ∧
      (k = 0 → rmsValue sum k = 0) := by
  obtain ⟨hlow, hhigh⟩ := isqrt_bounds (sum / 256)
  exact ⟨⟨isqrt (sum / 256), hlow, hhigh, rfl⟩, by rintro rfl; exact rmsValue_zero sum⟩

/-- Settles O28: each value a block registers is rmsValue of its own squared sum and constant, which the bounds of the square
root describe. -/
theorem rmsValues : Obligations.RmsValues := by
  intro samples mag s m b cal isRms
  exact ⟨rmsValue_isRms b.v2.p1 cal.kV.p1, rmsValue_isRms b.v2.p2 cal.kV.p2, rmsValue_isRms b.v2.p3 cal.kV.p3,
    rmsValue_isRms b.i2.p1 cal.kI.p1, rmsValue_isRms b.i2.p2 cal.kI.p2, rmsValue_isRms b.i2.p3 cal.kI.p3,
    rmsValue_isRms b.n2 cal.kN, rmsValue_isRms b.r2 cal.kR⟩

end Sys2Proof.Machine
end

section
/-! The schedule band of R38. -/

namespace Sys2Proof.Machine

/-- Where the points after p are all later than the minute, p is the last of those at or before it. -/
theorem scheduleBand_of_last_reached {before after : List (Nat × Nat)} {p : Nat × Nat} {m : Nat} (hp : p.1 ≤ m)
    (hafter : ∀ q ∈ after, m < q.1) : scheduleBand (before ++ p :: after) m = p.2 := by
  have hlater : after.filter (fun q => q.1 ≤ m) = [] := by simpa [List.filter_eq_nil_iff] using hafter
  have hreached : (before ++ p :: after).filter (fun q => q.1 ≤ m) = before.filter (fun q => q.1 ≤ m) ++ [p] := by
    simp [hp, hlater]
  rw [scheduleBand, hreached, List.getLast?_concat]

/-- Before the first point the band of the schedule's last point is still in force. -/
theorem scheduleBand_of_none_reached {before : List (Nat × Nat)} {p : Nat × Nat} {m : Nat}
    (hall : ∀ q ∈ before ++ [p], m < q.1) : scheduleBand (before ++ [p]) m = p.2 := by
  have hreached : (before ++ [p]).filter (fun q => q.1 ≤ m) = [] := by
    simpa only [List.filter_eq_nil_iff, decide_eq_true_eq, Nat.not_le] using hall
  rw [scheduleBand, hreached, List.getLast?_concat]
  rfl

/-- A day is 1,440 whole minutes, so the day number depends on the whole minutes alone. -/
theorem dayOf_eq_div_minutes (t : Nat) : dayOf t = t / 60 / 1440 := (Nat.div_div_eq_div_mul t 60 1440).symm

theorem minuteOf_eq_minutes_mod (t : Nat) : minuteOf t = t / 60 % 1440 := Nat.mod_mul_right_div_self t 60 1440

theorem Tariff.bandAt_eq_of_same_minute (tf : Tariff) {t u : Nat} (h : u / 60 = t / 60) : tf.bandAt u = tf.bandAt t := by
  have hday : dayOf u = dayOf t := by rw [dayOf_eq_div_minutes, dayOf_eq_div_minutes, h]
  have hminute : minuteOf u = minuteOf t := by rw [minuteOf_eq_minutes_mod, minuteOf_eq_minutes_mod, h]
  rw [Tariff.bandAt, Tariff.bandAt, hday, hminute]

/-- Settles O39, from the places of the points in the schedule; that their minutes rise is not needed. The model's function already
has the name scheduleBand. -/
theorem scheduleBand_spec : Obligations.ScheduleBand := by
  intro tf t points hpoints _
  have hband : tf.bandAt t = scheduleBand points (minuteOf t) := by rw [Tariff.bandAt, hpoints]
  refine ⟨fun before p after hsplit hp hafter => ?reached, fun before p hsplit hall => ?noneReached,
    fun u => tf.bandAt_eq_of_same_minute⟩
  case reached => rw [hband, hsplit, scheduleBand_of_last_reached hp hafter]
  case noneReached => rw [hband, hsplit, scheduleBand_of_none_reached (hsplit ▸ hall)]

end Sys2Proof.Machine
end

section
/-! The over-limit blocks and the trip of R123 to R127. -/

namespace Sys2Proof.Machine

variable (s : State)

/-! ### The limit set by a code under the judgements of a block -/

@[simp] theorem State.judgeTamper_codeLimit : s.judgeTamper.sw.record.codeLimit = s.sw.record.codeLimit := by
  unfold State.judgeTamper
  split <;> simp

@[simp] theorem State.recordOnset_codeLimit (a : Arrival) :
    (s.recordOnset a).sw.record.codeLimit = s.sw.record.codeLimit := by
  unfold State.recordOnset
  (repeat' split) <;> simp

@[simp] theorem State.arrive_codeLimit (a : Arrival) : (s.arrive a).sw.record.codeLimit = s.sw.record.codeLimit := by
  unfold State.arrive State.takeArrival
  (repeat' split) <;> simp

@[simp] theorem State.classChange_codeLimit (c : EvClass) (before after : Bool) (ph : Option Nat) (v : Int) :
    (s.classChange c before after ph v).sw.record.codeLimit = s.sw.record.codeLimit := by
  unfold State.classChange State.latchOnset State.latchEnd
  (repeat' split) <;> simp

@[simp] theorem State.judgeBypass_codeLimit (m : Summary) :
    (s.judgeBypass m).sw.record.codeLimit = s.sw.record.codeLimit := by
  unfold State.judgeBypass
  split <;> simp

@[simp] theorem State.tamperTakes_codeLimit (m : Summary) :
    (s.tamperTakes m).sw.record.codeLimit = s.sw.record.codeLimit := by
  simp [State.tamperTakes, State.judgeCut, State.judgeResidual, State.judgeReverse]

/-! ### What the supervision unit makes of a block -/

/-- The block adds to the over-limit count (R124, R125). -/
def State.countsOver (switch : SwitchState) (total : Nat) : Prop :=
  s.inService = true ∧ switch = .closed ∧ s.effectiveLimit ≠ 0 ∧ s.effectiveLimit * 1000000 < total * 57600

theorem State.countsOver_iff (switch : SwitchState) (total : Nat) :
    (s.inService && switch == .closed && overLimit s.effectiveLimit total) = true ↔ s.countsOver switch total := by
  simp [State.countsOver, overLimit, and_assoc]

theorem State.superviseBlock_of_not_over {switch : SwitchState} {total : Nat} (h : ¬ s.countsOver switch total) :
    s.superviseBlock switch total = s.onSup fun u => { u with overCount := 0 } := by
  rw [State.superviseBlock, if_neg (mt (s.countsOver_iff switch total).1 h)]

theorem State.superviseBlock_of_over {switch : SwitchState} {total : Nat} (h : s.countsOver switch total) :
    s.superviseBlock switch total = if s.config.switch.persistence ≤ s.sup.overCount + 1 then s.trip
      else s.onSup fun u => { u with overCount := min 1024 (u.overCount + 1) } := by
  rw [State.superviseBlock, if_pos ((s.countsOver_iff switch total).2 h)]
  rfl

/-! ### The trip -/

/-- The third trip within 3,600 s brings the long back-off (R127). -/
theorem backoffPeriod_eq (trips : List Nat) (clock : Nat) :
    backoffPeriod trips clock = if (trips.filter fun x => clock ≤ x + 3600).length < 3 then 30 else 1800 := by
  rw [backoffPeriod, ← ite_not]
  simp only [Nat.not_le]

theorem State.trip_sup :
    s.trip.sup = { s.sup with overCount := 0, supply := { s.sup.supply with
      trips := lastN 3 (s.sup.supply.trips ++ [s.clock])
      backoff := some ⟨s.clock + backoffPeriod (lastN 3 (s.sup.supply.trips ++ [s.clock])) s.clock,
        backoffPeriod (lastN 3 (s.sup.supply.trips ++ [s.clock])) s.clock⟩ } } := by
  simp [State.trip]

/-- Only COMMISSIONING ignores the addition of LOAD (R102). -/
theorem State.trip_holds_load (h : s.inService = true) : s.trip.sw.record.holds.load = true := by
  have hlife : s.life.state ≠ .commissioning := by
    intro hc
    simp [State.inService, hc] at h
  unfold State.trip
  simp only [State.request_frame]
  exact State.handHold_has _ .load true (by simp [hlife])

/-! ### A registered block as the supervision unit meets it -/

/-- s when a block has been registered and the account and tamper units have taken it, before its supervision. -/
def State.beforeSupervision (samples : List SampleSet) (mag : Bool) : State :=
  let r := s.registers samples mag
  (((s.onReg fun g => { g with
    acc := r.acc, stuck := r.stuck, trace := lastN 8 (g.trace ++ [r.summary]), last := some r.summary }).judgeStuck
      s.reg.stuck r.stuck).acctTakes r).tamperTakes r.summary

theorem State.exec_blockComplete_of_takesBlock {samples : List SampleSet} (mag : Bool) (h : s.takesBlock samples) :
    exec (.blockComplete samples mag) s =
      .next ((s.beforeSupervision samples mag).superviseBlock s.sw.state (s.registers samples mag).total) := by
  obtain ⟨halive, hmains, hopen, hestablished, hlength⟩ := h
  have hdone : s.blockDone samples mag = s.register (blockResult samples) mag := by
    simp [State.blockDone, halive, hmains, hopen, hestablished, hlength]
  change Host.Outcome.next (s.blockDone samples mag) = _
  rw [hdone]
  rfl

section
variable (samples : List SampleSet) (mag : Bool)

@[simp] theorem State.beforeSupervision_sup : (s.beforeSupervision samples mag).sup = s.sup := by
  simp [State.beforeSupervision]

@[simp] theorem State.beforeSupervision_clock : (s.beforeSupervision samples mag).clock = s.clock := by
  simp [State.beforeSupervision, State.clock]

@[simp] theorem State.beforeSupervision_inService : (s.beforeSupervision samples mag).inService = s.inService := by
  simp [State.beforeSupervision, State.inService]

@[simp] theorem State.beforeSupervision_config : (s.beforeSupervision samples mag).config = s.config := by
  simp [State.beforeSupervision, State.config, State.sound]

@[simp] theorem State.beforeSupervision_effectiveLimit :
    (s.beforeSupervision samples mag).effectiveLimit = s.effectiveLimit := by
  have hcode : (s.beforeSupervision samples mag).sw.record.codeLimit = s.sw.record.codeLimit := by
    simp [State.beforeSupervision]
  rw [State.effectiveLimit, State.effectiveLimit, hcode, State.beforeSupervision_config]

theorem State.beforeSupervision_countsOver (switch : SwitchState) (total : Nat) :
    (s.beforeSupervision samples mag).countsOver switch total ↔ s.countsOver switch total := by
  simp [State.countsOver]

end

end Sys2Proof.Machine

namespace Sys2Proof.Machine

/-- Settles O31: registration leaves what the supervision unit reads as it was, so the block is judged on s itself. -/
theorem overLimitBlocksTrip : Obligations.OverLimitBlocksTrip := by
  intro samples mag s htakes
  refine ⟨_, s.exec_blockComplete_of_takesBlock mag htakes, ?_⟩
  intro limit isOver trips period
  have hover : (s.beforeSupervision samples mag).countsOver s.sw.state (s.registers samples mag).total ↔ isOver :=
    s.beforeSupervision_countsOver samples mag _ _
  refine ⟨fun hnot => ?notOver, fun his hbelow => ?counted, fun his hreached => ?tripped⟩
  case notOver => simp [State.superviseBlock_of_not_over _ (mt hover.1 hnot)]
  case counted => simp [State.superviseBlock_of_over _ (hover.2 his), Nat.not_le.2 hbelow]
  case tripped =>
    have hservice : (s.beforeSupervision samples mag).inService = true := (hover.2 his).1
    rw [State.superviseBlock_of_over _ (hover.2 his), if_pos (by simpa using hreached)]
    refine ⟨?_, State.trip_holds_load _ hservice⟩
    simp only [State.trip_sup, backoffPeriod_eq, State.beforeSupervision_sup, State.beforeSupervision_clock]
    rfl

end Sys2Proof.Machine
end

section
/-! The fields of a byte layout, and the 30-byte forms of R201 and R202. -/

namespace Sys2Proof

theorem EvClass.number_le (c : EvClass) : c.number ≤ 13 := by cases c <;> decide

theorem SwitchState.number_le (s : SwitchState) : s.number ≤ 5 := by cases s <;> decide

end Sys2Proof

namespace Sys2Proof.Machine

/-! ### Fields of a byte layout

A layout is a row of parts: a field that starts behind a part is looked up in the rest, and the field at the beginning is the
number its part spells. -/

@[simp] theorem length_beBytes (k v : Nat) : (beBytes k v).length = k := by
  induction k with
  | zero => rfl
  | succ k ih => rw [beBytes, List.length_cons, ih]

@[simp] theorem length_beSigned (k : Nat) (z : Int) : (beSigned k z).length = k := length_beBytes k _

theorem foldl_beBytes (k v acc : Nat) :
    (beBytes k v).foldl (fun n b => n * 256 + b.toNat) acc = acc * 256 ^ k + v % 256 ^ k := by
  induction k generalizing acc with
  | zero => simp [beBytes, Nat.mod_one]
  | succ k ih =>
    have hdigit : v % 256 ^ (k + 1) = v % 256 ^ k + 256 ^ k * (v / 256 ^ k % 256) := by rw [pow_succ, Nat.mod_mul]
    rw [beBytes, List.foldl_cons, ih, hdigit, BitVec.toNat_ofNat]
    ring

theorem ofBytes_beBytes {k v : Nat} (h : v < 256 ^ k) : ofBytes (beBytes k v) = v := by
  rw [ofBytes, foldl_beBytes, Nat.mod_eq_of_lt h, Nat.zero_mul, Nat.zero_add]

section
variable (rest : List Byte)

theorem field_beBytes_append {w v : Nat} (h : v < 256 ^ w) : field (beBytes w v ++ rest) 0 w = v := by
  rw [field, List.drop_zero, List.take_left' (length_beBytes w v), ofBytes_beBytes h]

theorem field_beBytes {w v : Nat} (h : v < 256 ^ w) : field (beBytes w v) 0 w = v := by
  simpa using field_beBytes_append [] h

@[simp] theorem field_cons_zero (b : Byte) : field (b :: rest) 0 1 = b.toNat := by simp [field, ofBytes]

theorem field_append_of_length {part : List Byte} {k off : Nat} (w : Nat) (hk : part.length = k) (h : k ≤ off) :
    field (part ++ rest) off w = field rest (off - k) w := by
  subst hk
  rw [field, List.drop_append, List.drop_eq_nil_of_le h, List.nil_append, field]

theorem field_behind_beBytes {k off : Nat} (v w : Nat) (h : k ≤ off) :
    field (beBytes k v ++ rest) off w = field rest (off - k) w := field_append_of_length rest w (length_beBytes k v) h

theorem field_behind_beSigned {k off : Nat} (z : Int) (w : Nat) (h : k ≤ off) :
    field (beSigned k z ++ rest) off w = field rest (off - k) w := field_behind_beBytes rest _ w h

@[simp] theorem field_behind_byte (b : Byte) (off w : Nat) : field (b :: rest) (off + 1) w = field rest off w := rfl

end

/-- Two's complement is read back as it was written. -/
theorem signedField_of_field {bs : List Byte} {off w : Nat} {z : Int} (hfield : field bs off w = (z % (256 ^ w : Nat)).toNat)
    (hlow : -(256 ^ w / 2 : Nat) ≤ z) (hhigh : z < (256 ^ w / 2 : Nat)) : signedField bs off w = z := by
  rw [signedField, hfield]
  rcases lt_or_ge z 0 with hneg | hpos
  case inl =>
    rw [← Int.add_emod_right, Int.emod_eq_of_lt (by omega) (by omega), if_neg (by omega)]
    omega
  case inr =>
    rw [Int.emod_eq_of_lt hpos (by omega), if_pos (by omega)]
    omega

theorem toNat_boolByte (b : Bool) : (boolByte b).toNat = if b then 1 else 0 := by cases b <;> rfl

/-- What holds of a present value and of the number sent for an absent one holds of what is sent. -/
theorem getD_of_forall_mem {α : Type} {p : α → Prop} {o : Option α} {d : α} (h : ∀ x ∈ o, p x) (hd : p d) :
    p (o.getD d) := by
  cases o with
  | none => exact hd
  | some x => exact h x rfl

/-! ### The form of an evidence record (R202) -/

theorem EvRecord.presence_eq_bits (r : EvRecord) : r.presence = BitVec.ofNat 8 (Nat.bit r.onset.isSome
    (Nat.bit r.finish.isSome (Nat.bit r.phase.isSome (Nat.bit r.value.isSome (Nat.bit r.slot.isSome
      (Nat.bit r.clearSeq.isSome (Nat.bit r.clearTime.isSome 0))))))) := by
  simp only [EvRecord.presence, Nat.bit_val]
  congr 1
  omega

theorem EvRecord.presence_bits (r : EvRecord) :
    r.presence.getLsbD 0 = r.onset.isSome ∧ r.presence.getLsbD 1 = r.finish.isSome ∧
      r.presence.getLsbD 2 = r.phase.isSome ∧ r.presence.getLsbD 3 = r.value.isSome ∧
      r.presence.getLsbD 4 = r.slot.isSome ∧ r.presence.getLsbD 5 = r.clearSeq.isSome ∧
      r.presence.getLsbD 6 = r.clearTime.isSome ∧ r.presence.getLsbD 7 = false := by
  simp only [EvRecord.presence_eq_bits, BitVec.getLsbD_ofNat, Nat.testBit_bit_succ, Nat.testBit_bit_zero]
  simp

@[simp] theorem EvRecord.length_bytes (r : EvRecord) : r.bytes.length = 30 := by simp [EvRecord.bytes]

theorem EvRecord.bytes_state (r : EvRecord) : r.bytes[5]? = some r.state.byte := by simp [EvRecord.bytes]

theorem EvRecord.bytes_presence (r : EvRecord) : r.bytes[6]? = some r.presence := by simp [EvRecord.bytes]

theorem EvRecord.field_value (r : EvRecord) : field r.bytes 16 4 = (r.value.getD 0 % (256 ^ 4 : Nat)).toNat := by
  simp (disch := omega) [EvRecord.bytes, beSigned, field_beBytes_append, field_behind_beBytes]

/-! ### The form of a block summary (R201) -/

theorem Summary.flagByte_eq_bits (m : Summary) : m.flagByte = BitVec.ofNat 8 (Nat.bit m.phases.p1.reverse
    (Nat.bit m.phases.p2.reverse (Nat.bit m.phases.p3.reverse (Nat.bit m.mag m.switch.number)))) := by
  simp only [Summary.flagByte, Nat.bit_val]
  congr 1
  omega

theorem Summary.flagByte_bits (m : Summary) :
    m.flagByte.getLsbD 0 = m.phases.p1.reverse ∧ m.flagByte.getLsbD 1 = m.phases.p2.reverse ∧
      m.flagByte.getLsbD 2 = m.phases.p3.reverse ∧ m.flagByte.getLsbD 3 = m.mag := by
  simp only [Summary.flagByte_eq_bits, BitVec.getLsbD_ofNat, Nat.testBit_bit_succ, Nat.testBit_bit_zero]
  simp

theorem Summary.flagByte_switch (m : Summary) : m.flagByte.toNat / 16 = m.switch.number := by
  rw [Summary.flagByte, BitVec.toNat_ofNat]
  have hswitch := m.switch.number_le
  have hreverse1 := Bool.toNat_le m.phases.p1.reverse
  have hreverse2 := Bool.toNat_le m.phases.p2.reverse
  have hreverse3 := Bool.toNat_le m.phases.p3.reverse
  have hmag := Bool.toNat_le m.mag
  omega

@[simp] theorem PhaseSummary.length_bytes (p : PhaseSummary) : p.bytes.length = 8 := by simp [PhaseSummary.bytes]

section
variable (p : PhaseSummary) (rest : List Byte)

theorem PhaseSummary.field_vrms : field (p.bytes ++ rest) 0 2 = min 65535 p.vrms := by
  simp (disch := omega) [PhaseSummary.bytes, field_beBytes_append, saturate]

theorem PhaseSummary.field_irms (h : p.irms ≤ 8388607) : field (p.bytes ++ rest) 2 3 = p.irms := by
  simp (disch := omega) [PhaseSummary.bytes, field_beBytes_append, field_behind_beBytes]

theorem PhaseSummary.field_energy : field (p.bytes ++ rest) 5 3 = min 16777215 p.energy := by
  simp (disch := omega) [PhaseSummary.bytes, field_beBytes_append, field_behind_beBytes, saturate]

theorem PhaseSummary.field_behind {off : Nat} (w : Nat) (h : 8 ≤ off) :
    field (p.bytes ++ rest) off w = field rest (off - 8) w := field_append_of_length rest w p.length_bytes h

end

@[simp] theorem Summary.length_bytes (m : Summary) : m.bytes.length = 30 := by simp [Summary.bytes]

theorem Summary.bytes_last (m : Summary) : m.bytes[29]? = some m.flagByte := by simp [Summary.bytes]

/-! ### Both forms -/

/-- Settles O26: each part of a form stands behind the parts before it, so its offset is the sum of their lengths, and a value in
its range is the number its bytes spell. -/
theorem recordForms : Obligations.RecordForms := by
  refine ⟨fun r hnumber hrepeats honset hfinish hphase hvalue hslot hseq htime => ?record,
    fun m h1 h2 h3 hneutral => ?summary⟩
  case record =>
    have hclass := r.cls.number_le
    have honset := getD_of_forall_mem honset (by decide : 0 < 2 ^ 32)
    have hfinish := getD_of_forall_mem hfinish (by decide : 0 < 2 ^ 32)
    have hphase := getD_of_forall_mem hphase (by decide : 0 ≤ 3)
    have hslot := getD_of_forall_mem hslot (by decide : 0 ≤ 3)
    have hseq := getD_of_forall_mem hseq (by decide : 0 ≤ 65535)
    have htime := getD_of_forall_mem htime (by decide : 0 < 2 ^ 32)
    obtain ⟨hlow, hhigh⟩ := getD_of_forall_mem hvalue (by decide : -2147483648 ≤ (0 : Int) ∧ (0 : Int) < 2147483648)
    refine ⟨r.length_bytes, ?number, ?cls, r.bytes_state, ⟨r.presence, r.bytes_presence, r.presence_bits⟩, ?onset, ?finish,
      ?phase, signedField_of_field r.field_value (by omega) (by omega), ?repeats, ?onBattery, ?slot, ?clearSeq, ?clearTime⟩
    all_goals simp (disch := omega) [EvRecord.bytes, field_beBytes, field_beBytes_append, field_behind_beBytes,
      field_behind_beSigned, toNat_boolByte]
  case summary =>
    obtain ⟨hreverse1, hreverse2, hreverse3, hmag⟩ := m.flagByte_bits
    refine ⟨m.length_bytes, ?v1, ?v2, ?v3, ?i1, ?i2, ?i3, ?e1, ?e2, ?e3, ?neutral, ?residual,
      ⟨m.flagByte, m.bytes_last, hreverse1, hreverse2, hreverse3, hmag, m.flagByte_switch⟩⟩
    all_goals simp (disch := omega) [Summary.bytes, PhaseSummary.field_vrms, PhaseSummary.field_irms,
      PhaseSummary.field_energy, PhaseSummary.field_behind, field_beBytes_append, field_behind_beBytes, saturate]

end Sys2Proof.Machine
end

section
/-! What a command does to the state is a run of small changes. State.Reaches c s x says that such a run leads from s, on which
the command c is carried out, to x; each constructor is one change with what may be relied on when it is made. A rule that every
change keeps is kept by every command (exec_reaches). -/

namespace Sys2Proof.Machine

/-! ### The changes, part by part -/

/-- What holds of the values that a requested write is to store: an account record worked from one in range is in range, ACCOUNT
settings are in range, and a SET-TIME does not lead beyond the clock's greatest value. -/
def Purpose.fits (x : State) (p : Purpose) : Prop :=
  (∀ a, p.account = some a → x.store.recs.account.inRange → x.config.account.inRange → a.inRange) ∧
    (∀ a b, p = .config (.account a) b → a.inRange) ∧ ∀ v a b d e, p = .setTime v a b d e → v ≤ maxClock

/-- A purpose that carries no such value. -/
def Purpose.isPlain : Purpose → Bool
  | .charge _ | .emergencyTaken _ | .dayBoundary _ _ _ | .codeEffect _ _ _ | .setTime _ _ _ _ _ | .config _ _ => false
  | _ => true

/-- A change of the durable store: the next write starts, a write is asked for, waiting ones are dropped, a start asks for its
writes, or the loss of the main domain cuts what is in flight. -/
inductive StoreStep (c : Instr) (x : State) : Store → Prop
  | pump : StoreStep c x x.pump.store
  | ask (p : Purpose) : p.fits x → StoreStep c x { x.store with waiting := addRequest p x.store.waiting }
  | drop (f : Purpose → Bool) : StoreStep c x { x.store with waiting := x.store.waiting.filter f }
  | refill (l : List Purpose) : (∃ found, c = .start found) → (∀ p ∈ l, p.isPlain = true) →
      StoreStep c x { x.store with flight := [], waiting := l }
  | cut (l : List Record) : c = .mainDomainLoss → StoreStep c x { x.store with bad := l }

/-- A change of the backup domain that leaves the clock as it is, enters no HOLDUP, and begins no running but at a start's end. -/
structure BackupStep (c : Instr) (x : State) (b : Backup) : Prop where
  clock : b.retained.clock = x.backup.retained.clock
  valid : b.retained.valid = x.backup.retained.valid
  holdup : b.power = .holdup → x.backup.power = .holdup
  running : b.domain = .running → x.backup.domain = .running ∨ c = .positionSensingEnd ∨ c = .startWriteComplete

/-- The ranges of the registration's working state. -/
def Registration.inRange (r : Registration) : Prop :=
  r.acc.inRange ∧ r.stuck.length = 7 ∧ ∀ n ∈ r.stuck, n ≤ 16

/-- A change of the registration keeps its ranges, where the residue record is in range, and the trace's length. -/
structure RegStep (x : State) (r : Registration) : Prop where
  inRange : x.store.recs.residue.acc.inRange → x.reg.inRange → r.inRange
  trace : x.reg.trace.length ≤ 8 → r.trace.length ≤ 8

/-- The bounds of the digit buffer and its pause timer. -/
def CodeUnit.bounded (k : CodeUnit) : Prop :=
  k.digits.length ≤ 20 ∧ (∀ d ∈ k.digits, d.toNat ≤ 9) ∧ k.pauseRunning = !k.digits.isEmpty

/-- The switch may leave its state: it is not JAMMED with RELAY-FAULT present, nor is its position being sensed for a start or
for an abandoned operation. (Each clause as a disjunction that an ordered switch decides.) -/
structure State.MayLeave (x : State) : Prop where
  fault : x.tam.relayFault = false ∨ x.sw.state ≠ .jammed ∨ x.sw.progress ≠ .idle
  start : x.sw.sensing = some .atStart → x.sw.state ≠ .opened ∨ x.sw.progress ≠ .idle
  dip : x.sw.sensing = some .atDip → ¬ operatingState x.sw.state ∨ x.sw.progress ≠ .abandoned

/-- A closing may begin: no acknowledgement is required, or it is being given. -/
def State.mayClose (c : Instr) (s x : State) : Prop :=
  x.ackRequired = false ∨ (s.sw.state = .armed ∧ s.mains = true ∧ (c = .buttonPress ∨ c = .reconnect))

/-- A change of the switch controller. -/
inductive SwStep (c : Instr) (s x : State) : Switch → Prop
  | keep (w : Switch) : w.state = x.sw.state → w.attempt = x.sw.attempt → w.progress = x.sw.progress →
      w.drive = x.sw.drive → w.sensing = x.sw.sensing → SwStep c s x w
  | enters (target : SwitchState) : x.MayLeave → target ≠ .jammed → (target = .closing → State.mayClose c s x) →
      SwStep c s x (x.sw.enters target)
  | position (target : SwitchState) : x.tam.relayFault = false ∨ x.sw.sensing = some .atStart ∨ x.sw.sensing = some .atDip →
      target ≠ .jammed → (target = .closing → State.mayClose c s x) →
      SwStep c s x ({ x.sw with sensing := none }.enters target)
  | jam : x.sw.progress ≠ .idle → x.sw.progress ≠ .abandoned →
      SwStep c s x { x.sw with state := .jammed, attempt := 0, progress := .idle }
  | retry : x.sw.progress ≠ .idle → x.sw.progress ≠ .abandoned → x.sw.attempt < 3 →
      SwStep c s x { x.sw with attempt := x.sw.attempt + 1, progress := .waiting }
  | progress (p : Progress) : x.sw.progress ≠ .idle → x.sw.progress ≠ .abandoned → p ≠ .idle →
      SwStep c s x { x.sw with progress := p }
  | release : SwStep c s x { x.sw with drive := .none }
  | pulse (d : Drive) (p : Progress) : c = .coilPulseStart → x = s → s.mains = true → s.sw.drive = .none →
      s.reg.last ≠ none → (d = .closeLine ↔ s.sw.state = .closing) → s.sw.progress = .waiting → p ≠ .idle →
      SwStep c s x { x.sw with drive := d, progress := p }
  | sense (y : Sensing) : y ≠ .atStart → (y = .atDip → x.sw.progress = .abandoned) →
      SwStep c s x { x.sw with sensing := some y }
  | lapse (p : Progress) : p = x.sw.progress ∨ x.sw.sensing = some .atDip ∧ p = .abandoned →
      SwStep c s x { x.sw with sensing := none, progress := p }
  | start (r : SwitchRec) : x.sw.state = .opened → x.sw.progress = .idle → SwStep c s x { x.sw with record := r, sensing := some .atStart }

/-- No arrival is held back but of a latching class. -/
def State.heldLatching (s : State) : Prop := ∀ a ∈ s.tam.heldBack, a.cls.latching = true

/-- A change of records in place: class, number and slot stay, and the state stays or becomes final. -/
def EvRecord.keepsPlace (f : EvRecord → EvRecord) : Prop :=
  ∀ r, (f r).cls = r.cls ∧ (f r).number = r.number ∧ (f r).slot = r.slot ∧ ((f r).state = r.state ∨ (f r).isFinal)

/-- A change of slots in place: the number stays, and the halves keep their bounds. -/
def Slot.keepsBounds (f : Slot → Slot) : Prop :=
  ∀ sl, (f sl).number = sl.number ∧ (f sl).pre = sl.pre ∧
    (sl.post.length ≤ 8 ∧ (sl.collecting = true → sl.post.length < 8) →
      (f sl).post.length ≤ 8 ∧ ((f sl).collecting = true → (f sl).post.length < 8))

/-- The tamper unit with its log and slots repaired at a start (R164). -/
def State.repairedTam (x : State) : Tamper :=
  let slots := freeOrphans x.store.recs.evidence.log x.store.recs.snapshot
  .begin { x.store.recs.evidence with log := x.store.recs.evidence.log.map (EvRecord.atStart slots) }
    (slots.map (Option.map Slot.completed))

/-- The log at the completion of the entry write (R165). -/
def State.entryEvidence (x : State) : EvidenceRec :=
  if x.entryLog.1.log.map EvRecord.untimed = x.store.recs.evidence.log.map EvRecord.untimed &&
    x.entryLog.1.next == x.store.recs.evidence.next then x.store.recs.evidence else x.entryLog.1

/-- The slots at the completion of the entry write (R165). -/
def State.entrySlots (x : State) : List (Option Slot) :=
  if x.mains then x.entryLog.2 else x.entryLog.2.map (Option.map Slot.completed)

/-- A change of the tamper unit. -/
inductive TamStep (c : Instr) (s x : State) : Tamper → Prop
  | keep (t : Tamper) : t.evidence = x.tam.evidence → t.slots = x.tam.slots → t.relayFault = x.tam.relayFault →
      (∀ a ∈ t.heldBack, a ∈ x.tam.heldBack ∨ (s.heldLatching → a.cls.latching = true)) → TamStep c s x t
  | append (r : EvRecord) (seek : Bool) : r.state ≠ .active →
      (r.state = .opened → (s.heldLatching → r.cls.latching = true) ∧ isLatched x.tam.evidence.log r.cls = false) →
      TamStep c s x { x.tam with
        evidence := (logAppend r seek x.reg.trace x.tam.evidence x.tam.slots).1
        slots := (logAppend r seek x.reg.trace x.tam.evidence x.tam.slots).2.1 }
  | edit (f : EvRecord → EvRecord) : EvRecord.keepsPlace f →
      TamStep c s x { x.tam with evidence := { x.tam.evidence with log := x.tam.evidence.log.map f } }
  | recover (time : Option Nat) : TamStep c s x { x.tam with
      evidence := { x.tam.evidence with log := x.tam.evidence.log.map (EvRecord.endActive .relayFault time) }
      relayFault := false }
  | broken : x.sw.state = .jammed → TamStep c s x { x.tam with relayFault := true }
  | slots (f : Slot → Slot) : Slot.keepsBounds f → TamStep c s x { x.tam with slots := x.tam.slots.map (Option.map f) }
  | repaired : (∃ found, c = .start found) → TamStep c s x x.repairedTam
  | entered : TamStep c s x { x.tam with evidence := x.entryEvidence, slots := x.entrySlots }

/-- A change of life control that is none of the fault set: the life state changes by its events alone, and only a STATUS empties
the fault memory. -/
structure LifeStep (c : Instr) (s x : State) (l : Life) : Prop where
  faults : l.faults = x.life.faults
  memory : l.memory = x.life.memory ∨ ((∃ flag, c = .status flag) ∧ l.memory = [] ∧ x.life.faults = s.life.faults)
  state : l.state = x.life.state ∨ (c = .entryWriteComplete ∧ l.state = .inService) ∨
    (c = .codeAcceptWriteComplete ∧ l.state = .serviceWindow) ∨
    ((c = .windowTimerExpiry ∨ c = .closeService ∨ c = .supplyFailing) ∧ x.life.state = .serviceWindow ∧ l.state = .inService)

/-- A change of the link: the counters keep their bound, and the notices stay, gain one, or lose one to the transmitter. -/
structure LinkStep (c : Instr) (s x : State) (l : Link) : Prop where
  counters : (l.gapErrors = x.link.gapErrors ∨ l.gapErrors ≤ 65535) ∧ (l.crcErrors = x.link.crcErrors ∨ l.crcErrors ≤ 65535) ∧
    (l.formatErrors = x.link.formatErrors ∨ l.formatErrors ≤ 65535)
  notices : l.notices = x.link.notices ∨ (∃ n, n ∉ x.link.notices ∧ l.notices = x.link.notices ++ [n]) ∨
    (c = .transmitFrame ∧ x.life = s.life ∧ ∃ f, l.notices = x.link.notices.filter f)

/-- A class whose ACTIVE record may be appended: its condition is present in x, and was absent in y. -/
def State.condBegins (y x : State) (k : EvClass) : Prop :=
  (k = .overheat ∧ y.sup.overheat = false ∧ x.sup.overheat = true) ∨
    (k = .relayFault ∧ y.sw.progress ≠ .idle ∧ x.tam.relayFault = true)

/-- The state in which a start's blocks begin their work: the records found, the retained memory examined, the working state
lost (R172), and the records checked (R184). -/
def State.begun (cause : StartCause) (found : StartReadings) (s : State) : State :=
  let s0 := s.absorbAtStart
  let kind := s0.backup.retained.kind cause (Config.free s.fresh)
  let ret := s0.backup.retained.atStart kind
  let s1 := ((s0.onBackup fun _ =>
    { power := .mains, limitExpired := false, domain := .starting cause (ret.startWriteDue kind), lastStart := kind
      retained := ret }).useFree 1).loseWorking
  let halting := haltingRecords.filter (s1.fails found)
  let repaired := reinitRecords.filter (s1.fails found)
  (s1.onStore fun st => { st with
    recs := repaired.foldl Records.reinit st.recs
    bad := st.bad ++ (reinitRecords ++ [Record.residue]).filter fun r => found.failed.contains r && !s1.store.bad.contains r
    unsound := halting }).onLife fun v => { v with
      state := if !halting.isEmpty then .halted
        else if s1.store.recs.life.state = .serviceWindow then .inService else s1.store.recs.life.state
      window := none, repaired := repaired }

/-! ### Runs of changes -/

/-- x comes about from s, on which the command c is carried out, by a run of changes. -/
inductive State.Reaches (c : Instr) (s : State) : State → Prop
  | refl : Reaches c s s
  | stored (sel : Purpose → Bool) (w : Write) (rest : List Write) : completionOf c = some sel → s.completes sel w rest →
      Reaches c s (s.stored w rest)
  | failing : c = .supplyFailing → s.mains = true → Reaches c s s.enterHoldup
  | ticked : c = .clockSecond → s.clockRuns = true → Reaches c s (s.setClock (s.clock + 1))
  | held : c = .resetAssert → Reaches c s (s.absorb.loseWorking.onBackup fun b => { b with domain := .held })
  | begun (cause : StartCause) (found : StartReadings) : c = .start found → Reaches c s (s.begun cause found)
  | onStore (f : Store → Store) {x : State} : Reaches c s x → StoreStep c x (f x.store) → Reaches c s (x.onStore f)
  | onBackup (f : Backup → Backup) {x : State} : Reaches c s x → BackupStep c x (f x.backup) → Reaches c s (x.onBackup f)
  | clockSet (value : Nat) {x : State} : Reaches c s x → c = .setTimeWriteComplete → (s.clockInRange → value ≤ maxClock) →
      Reaches c s (x.onBackup fun b => { b with retained := { b.retained with clock := value, valid := true } })
  | onReg (f : Registration → Registration) {x : State} : Reaches c s x → RegStep x (f x.reg) → Reaches c s (x.onReg f)
  | onCal (f : Calendar → Calendar) {x : State} : Reaches c s x → Reaches c s (x.onCal f)
  | onAcct (f : Account → Account) {x : State} : Reaches c s x → Reaches c s (x.onAcct f)
  | onCode (f : CodeUnit → CodeUnit) {x : State} : Reaches c s x → (x.code.bounded → (f x.code).bounded) →
      Reaches c s (x.onCode f)
  | onSw (f : Switch → Switch) {x : State} : Reaches c s x → SwStep c s x (f x.sw) → Reaches c s (x.onSw f)
  | onSup (f : Supervision → Supervision) {x : State} : Reaches c s x → (x.sup.overheat = true → (f x.sup).overheat = true) →
      Reaches c s (x.onSup f)
  | onTam (f : Tamper → Tamper) {x : State} : Reaches c s x → TamStep c s x (f x.tam) → Reaches c s (x.onTam f)
  | follows (r : EvRecord) (seek : Bool) {x y : State} : Reaches c s y → Reaches c s x → x.tam.evidence = y.tam.evidence →
      r.state = .active → y.condBegins x r.cls → Reaches c s (x.onTam fun t => { t with
        evidence := (logAppend r seek x.reg.trace t.evidence t.slots).1
        slots := (logAppend r seek x.reg.trace t.evidence t.slots).2.1 })
  | cooled (time : Option Nat) {x : State} : Reaches c s x → Reaches c s ((x.onSup fun u => { u with overheat := false }).onTam
      fun t => { t with evidence := { t.evidence with log := t.evidence.log.map (EvRecord.endActive .overheat time) } })
  | onLife (f : Life → Life) {x : State} : Reaches c s x → LifeStep c s x (f x.life) → Reaches c s (x.onLife f)
  | raised (f : FaultKind) {x : State} : Reaches c s x → f ∉ x.life.faults → Reaches c s ((x.onLife fun v => { v with
      faults := v.faults ++ [f]
      memory := if v.memory.contains f then v.memory else v.memory ++ [f] }).pend .fault)
  | ended (f : FaultKind) {x : State} : Reaches c s x →
      Reaches c s ((x.onLife fun v => { v with faults := v.faults.filter (· ≠ f) }).pend .fault)
  | onLink (f : Link → Link) {x : State} : Reaches c s x → LinkStep c s x (f x.link) → Reaches c s (x.onLink f)
  | useFree (n : Nat) {x : State} : Reaches c s x → Reaches c s (x.useFree n)

end Sys2Proof.Machine
end

section
/-! Every operation is a run of changes: op_reaches says that where x comes about, x.op does. -/

namespace Sys2Proof.Machine

variable {c : Instr} {s x : State}

/-! ### The store, notices, faults and replies -/

theorem Purpose.fits_of_isPlain {p : Purpose} (h : p.isPlain = true) : p.fits x := by
  cases p <;> simp [Purpose.fits, Purpose.isPlain, Purpose.account] at h ⊢

theorem State.pump_eq_onStore (x : State) : x.pump = x.onStore fun _ => x.pump.store := by
  rcases x.pump_spec with k | ⟨p, _, _, _, k⟩ <;> rw [k] <;> rfl

theorem State.pump_reaches (h : State.Reaches c s x) : State.Reaches c s x.pump := by
  rw [State.pump_eq_onStore]
  exact h.onStore _ .pump

theorem State.request_reaches (h : State.Reaches c s x) {p : Purpose} (hp : p.fits x) : State.Reaches c s (x.request p) := by
  unfold State.request
  split
  · exact h
  · exact State.pump_reaches (h.onStore _ (.ask p hp))

theorem State.request_reaches_of_isPlain (h : State.Reaches c s x) {p : Purpose} (hp : p.isPlain = true) :
    State.Reaches c s (x.request p) :=
  State.request_reaches h (Purpose.fits_of_isPlain hp)

/-- A change of the link that keeps its counters and its notices. -/
theorem LinkStep.of_eq {l : Link} (hg : l.gapErrors = x.link.gapErrors) (hc : l.crcErrors = x.link.crcErrors)
    (hf : l.formatErrors = x.link.formatErrors) (hn : l.notices = x.link.notices) : LinkStep c s x l :=
  ⟨⟨.inl hg, .inl hc, .inl hf⟩, .inl hn⟩

theorem State.pend_reaches (h : State.Reaches c s x) (n : Notice) : State.Reaches c s (x.pend n) := by
  refine h.onLink _ ⟨⟨.inl rfl, .inl rfl, .inl rfl⟩, ?_⟩
  by_cases hn : x.link.notices.contains n
  · exact .inl (by rw [if_pos hn])
  · exact .inr (.inl ⟨n, by simpa using hn, by rw [if_neg hn]⟩)

theorem State.raiseFault_reaches (h : State.Reaches c s x) (f : FaultKind) : State.Reaches c s (x.raiseFault f) := by
  unfold State.raiseFault
  split
  · exact h
  · next hf => exact h.raised f (by simpa using hf)

theorem State.endFault_reaches (h : State.Reaches c s x) (f : FaultKind) : State.Reaches c s (x.endFault f) := by
  unfold State.endFault
  split
  · exact h.ended f
  · exact h

theorem State.answer_reaches (h : State.Reaches c s x) (st : Status) (b : List Byte) : State.Reaches c s (x.answer st b) :=
  (h.onLink _ (.of_eq rfl rfl rfl rfl)).useFree _

theorem State.await_reaches (h : State.Reaches c s x) : State.Reaches c s x.await :=
  h.onLink _ (.of_eq rfl rfl rfl rfl)

/-! ### The switch -/

theorem Switch.enters_of_operating {w : Switch} {target : SwitchState} (h : operatingState target) :
    w.enters target = { w with state := target, attempt := 1, progress := .waiting } := by
  simp [Switch.enters, show target = .opening ∨ target = .closing from h]

theorem Switch.enters_of_rest {w : Switch} {target : SwitchState} (h : ¬ operatingState target) :
    w.enters target = { w with state := target, attempt := 0, progress := .idle } := by
  simp [Switch.enters, show ¬ (target = .opening ∨ target = .closing) from h]

/-- A change of the tamper unit that keeps its log, its slots, its RELAY-FAULT and what it holds back. -/
theorem TamStep.of_eq {t : Tamper} (he : t.evidence = x.tam.evidence) (hs : t.slots = x.tam.slots)
    (hr : t.relayFault = x.tam.relayFault) (hh : t.heldBack = x.tam.heldBack) : TamStep c s x t :=
  .keep t he hs hr fun _ ha => .inl (hh ▸ ha)

theorem State.beginOperation_reaches (h : State.Reaches c s x) {target : SwitchState} (ho : operatingState target)
    (hl : x.MayLeave) (hc : target = .closing → State.mayClose c s x) : State.Reaches c s (x.beginOperation target) := by
  have hw := SwStep.enters (c := c) (s := s) target hl (by rintro rfl; simp [operatingState] at ho) hc
  rw [Switch.enters_of_operating ho] at hw
  exact State.pend_reaches ((h.onSw _ hw).onTam _ (.of_eq rfl rfl rfl rfl)) _

theorem State.toRest_reaches (h : State.Reaches c s x) {target : SwitchState} (ho : ¬ operatingState target)
    (hj : target ≠ .jammed) (hl : x.MayLeave) : State.Reaches c s (x.toRest target) := by
  have hw := SwStep.enters (c := c) (s := s) target hl hj (by rintro rfl; simp [operatingState] at ho)
  rw [Switch.enters_of_rest ho] at hw
  exact State.pend_reaches (h.onSw _ hw) _

/-- A rest state other than JAMMED may be left, but while a start senses the position. -/
theorem State.mayLeave_of_rest (hr : x.sw.state = .closed ∨ x.sw.state = .opened ∨ x.sw.state = .armed)
    (hs : x.sw.sensing = some .atStart → x.sw.state ≠ .opened) : x.MayLeave where
  fault := .inr (.inl (by rintro hj; simp [hj] at hr))
  start := fun h => .inl (hs h)
  dip := fun _ => .inl (by rcases hr with h | h | h <;> simp [operatingState, h])

theorem State.judgeRest_reaches (h : State.Reaches c s x) : State.Reaches c s x.judgeRest := by
  have hcl : x.ackRequired = false → SwitchState.closing = .closing → State.mayClose c s x := fun ha _ => .inl ha
  unfold State.judgeRest
  split
  · exact h
  · next hs =>
    have hl : ∀ {st}, x.sw.state = st → st = .closed ∨ st = .opened ∨ st = .armed → x.MayLeave := fun e he =>
      State.mayLeave_of_rest (e ▸ he) fun hs' => absurd hs' hs
    split
    · next e =>
      split
      · exact State.beginOperation_reaches h (.inl rfl) (hl e (by simp)) (by simp)
      · exact h
    · next e =>
      split
      · split
        · exact State.toRest_reaches h (by simp [operatingState]) (by simp) (hl e (by simp))
        · next ha =>
          split
          · exact State.beginOperation_reaches h (.inr rfl) (hl e (by simp)) (hcl (by simpa using ha))
          · exact h
      · exact h
    · next e =>
      split
      · split
        · next ha =>
          exact State.beginOperation_reaches h (.inr rfl) (hl e (by simp)) (hcl (by simp at ha; exact ha.1))
        · exact h
      · exact State.toRest_reaches h (by simp [operatingState]) (by simp) (hl e (by simp))
    · exact h

theorem State.handHold_reaches (h : State.Reaches c s x) (r : Hold) (b : Bool) : State.Reaches c s (x.handHold r b) := by
  unfold State.handHold
  split
  · exact h
  · split
    · exact h
    · exact State.pend_reaches (State.request_reaches_of_isPlain (State.judgeRest_reaches
        (h.onSw _ (.keep _ rfl rfl rfl rfl rfl))) rfl) _

/-! ### The tamper unit -/

theorem State.notifyEvidence_reaches (h : State.Reaches c s x) (k : EvClass) : State.Reaches c s (x.notifyEvidence k) := by
  unfold State.notifyEvidence
  with_reducible repeat' first | exact h | apply State.pend_reaches | split

theorem State.notifyAll_reaches {α : Type} (f : α → EvClass) (l : List α) (h : State.Reaches c s x) :
    State.Reaches c s (l.foldl (fun y a => y.notifyEvidence (f a)) x) := by
  induction l generalizing x with
  | nil => exact h
  | cons a l ih => exact ih (State.notifyEvidence_reaches h _)

theorem State.judgeTamper_reaches (h : State.Reaches c s x) : State.Reaches c s x.judgeTamper := by
  unfold State.judgeTamper
  with_reducible repeat' first | exact h | apply State.handHold_reaches | split

theorem State.appendRecord_reaches (h : State.Reaches c s x) {r : EvRecord} (ha : r.state ≠ .active)
    (ho : r.state = .opened → (s.heldLatching → r.cls.latching = true) ∧ isLatched x.tam.evidence.log r.cls = false) :
    State.Reaches c s (x.appendRecord r) :=
  State.notifyEvidence_reaches (State.request_reaches_of_isPlain (h.onTam _ (.append r _ ha ho)) rfl) _

theorem State.editLog_reaches (h : State.Reaches c s x) {f : EvRecord → EvRecord} (hf : EvRecord.keepsPlace f) :
    State.Reaches c s (x.editLog f) :=
  State.request_reaches_of_isPlain (h.onTam _ (.edit f hf)) rfl

theorem EvRecord.keepsPlace_ite (p : EvRecord → Prop) [DecidablePred p] {g : EvRecord → EvRecord} (hg : EvRecord.keepsPlace g) :
    EvRecord.keepsPlace fun r => if p r then g r else r := by
  intro r
  dsimp only
  split
  · exact hg r
  · simp

theorem EvRecord.keepsPlace_repeated (k : EvClass) (n : Nat) : EvRecord.keepsPlace (EvRecord.repeated k n) :=
  EvRecord.keepsPlace_ite _ fun _ => by simp

theorem EvRecord.keepsPlace_noteEnd (k : EvClass) (t : Option Nat) : EvRecord.keepsPlace (EvRecord.noteEnd k t) :=
  EvRecord.keepsPlace_ite _ fun _ => by simp

theorem EvRecord.keepsPlace_endActive (k : EvClass) (t : Option Nat) : EvRecord.keepsPlace (EvRecord.endActive k t) :=
  EvRecord.keepsPlace_ite _ fun _ => by simp [EvRecord.isFinal]

theorem EvRecord.keepsPlace_clearedBy (l : List EvClass) (q : Nat) (t : Option Nat) :
    EvRecord.keepsPlace (EvRecord.clearedBy l q t) :=
  EvRecord.keepsPlace_ite _ fun _ => by simp [EvRecord.isFinal]

theorem State.recordExcused_reaches (h : State.Reaches c s x) (a : Arrival) : State.Reaches c s (x.recordExcused a) :=
  State.appendRecord_reaches h (by simp [blankRecord]) (by simp [blankRecord])

theorem State.recordOnset_reaches (h : State.Reaches c s x) {a : Arrival} (ha : s.heldLatching → a.cls.latching = true) :
    State.Reaches c s (x.recordOnset a) := by
  unfold State.recordOnset
  split
  · exact h
  · split
    · exact State.recordExcused_reaches h a
    · split
      · exact State.notifyEvidence_reaches (State.editLog_reaches h (EvRecord.keepsPlace_repeated _ _)) _
      · next hl =>
        refine State.judgeTamper_reaches (State.appendRecord_reaches h (by simp [blankRecord]) fun _ => ⟨ha, ?_⟩)
        simpa [blankRecord] using hl

theorem State.recordEnd_reaches (h : State.Reaches c s x) (a : Arrival) : State.Reaches c s (x.recordEnd a) := by
  unfold State.recordEnd
  split
  · exact State.editLog_reaches h (EvRecord.keepsPlace_noteEnd _ _)
  · exact h

theorem State.takeArrival_reaches (h : State.Reaches c s x) {a : Arrival} (ha : s.heldLatching → a.cls.latching = true) :
    State.Reaches c s (x.takeArrival a) := by
  unfold State.takeArrival
  with_reducible repeat' first
    | exact h | exact ha | apply State.recordOnset_reaches | apply State.recordEnd_reaches | split

theorem State.arrive_reaches (h : State.Reaches c s x) {a : Arrival} (ha : s.heldLatching → a.cls.latching = true) :
    State.Reaches c s (x.arrive a) := by
  unfold State.arrive
  split
  · refine h.onTam _ (.keep _ rfl rfl rfl fun b hb => ?_)
    simp only [List.mem_append, List.mem_singleton] at hb
    exact hb.imp id (by rintro rfl; exact ha)
  · exact State.takeArrival_reaches h ha

/-- A change of the backup domain that keeps the clock, the power state and the domain. -/
theorem BackupStep.of_eq {b : Backup} (hc : b.retained.clock = x.backup.retained.clock)
    (hv : b.retained.valid = x.backup.retained.valid) (hp : b.power = x.backup.power) (hd : b.domain = x.backup.domain) :
    BackupStep c x b :=
  ⟨hc, hv, fun h => hp ▸ h, fun h => .inl (hd ▸ h)⟩

theorem State.countTaken_reaches (h : State.Reaches c s x) (a : Arrival) : State.Reaches c s (x.countTaken a) := by
  unfold State.countTaken
  split
  · refine h.onBackup _ (.of_eq ?_ ?_ rfl rfl) <;> (dsimp only; split <;> rfl)
  · exact h

theorem TamStep.heldLatching {t : Tamper} (h : TamStep c s x t) (hs : s.heldLatching) (hx : x.heldLatching) :
    ∀ a ∈ t.heldBack, a.cls.latching = true := by
  cases h with
  | keep _ _ _ _ hh => exact fun a ha => (hh a ha).elim (hx a) fun k => k hs
  | repaired => intro a ha; simp [State.repairedTam, Tamper.begin] at ha
  | _ => exact hx

theorem State.Reaches.heldLatching (h : State.Reaches c s x) (hs : s.heldLatching) : x.heldLatching := by
  induction h with
  | onTam f _ st ih => exact st.heldLatching hs ih
  | held => intro a ha; simp [State.loseWorking, State.onBackup, Tamper.begin] at ha
  | begun => intro a ha; simp [State.begun, State.loseWorking, State.onStore, State.onLife, Tamper.begin] at ha
  | refl | stored | failing | ticked => exact hs
  | _ => assumption

theorem State.takeHeld_reaches (l : List Arrival) (hl : s.heldLatching → ∀ a ∈ l, a.cls.latching = true)
    (h : State.Reaches c s x) : State.Reaches c s (l.foldl (fun y a => (y.countTaken a).takeArrival a) x) := by
  induction l generalizing x with
  | nil => exact h
  | cons a l ih =>
    exact ih (fun hs b hb => hl hs b (by simp [hb]))
      (State.takeArrival_reaches (State.countTaken_reaches h a) fun hs => hl hs a (by simp))

theorem State.releaseHeld_reaches (h : State.Reaches c s x) : State.Reaches c s x.releaseHeld :=
  State.takeHeld_reaches _ (fun hs => h.heldLatching hs)
    (h.onTam _ (.keep _ rfl rfl rfl fun _ ha => by simp at ha))

theorem State.latchOnset_reaches (h : State.Reaches c s x) {k : EvClass} (hk : k.latching = true) (ph : Option Nat)
    (v : Option Int) : State.Reaches c s (x.latchOnset k ph v) :=
  State.arrive_reaches h fun _ => hk

theorem State.latchEnd_reaches (h : State.Reaches c s x) {k : EvClass} (hk : k.latching = true) :
    State.Reaches c s (x.latchEnd k) :=
  State.arrive_reaches h fun _ => hk

theorem coverClass_latching (which : Cover) : which.cls.latching = true := by cases which <;> rfl

theorem State.coverOnset_reaches (h : State.Reaches c s x) (which : Cover) : State.Reaches c s (x.coverOnset which) := by
  unfold State.coverOnset
  dsimp only
  refine State.arrive_reaches ?_ fun _ => coverClass_latching which
  split
  · exact h
  · exact State.countTaken_reaches h _

theorem State.clockStep_reaches (h : State.Reaches c s x) (p : Option Nat) (r o : Nat) :
    State.Reaches c s (x.clockStep p r o) :=
  State.appendRecord_reaches h (by simp [blankRecord]) (by simp [blankRecord])

theorem State.classChange_reaches (h : State.Reaches c s x) {k : EvClass} (hk : k.latching = true) (b a : Bool)
    (ph : Option Nat) (v : Int) : State.Reaches c s (x.classChange k b a ph v) := by
  unfold State.classChange
  with_reducible repeat' first
    | exact h | exact hk | apply State.latchOnset_reaches | apply State.latchEnd_reaches | split

theorem State.judgeReverse_reaches (h : State.Reaches c s x) (m : Summary) : State.Reaches c s (x.judgeReverse m) :=
  State.classChange_reaches (h.onTam _ (.of_eq rfl rfl rfl rfl)) rfl _ _ _ _

theorem State.judgeResidual_reaches (h : State.Reaches c s x) (m : Summary) : State.Reaches c s (x.judgeResidual m) :=
  State.classChange_reaches (h.onTam _ (.of_eq rfl rfl rfl rfl)) rfl _ _ _ _

theorem State.judgeCut_reaches (h : State.Reaches c s x) (m : Summary) : State.Reaches c s (x.judgeCut m) :=
  State.classChange_reaches (h.onTam _ (.of_eq rfl rfl rfl rfl)) rfl _ _ _ _

theorem State.judgeBypass_reaches (h : State.Reaches c s x) (m : Summary) : State.Reaches c s (x.judgeBypass m) := by
  unfold State.judgeBypass
  split
  · exact h
  · exact State.classChange_reaches (h.onTam _ (.of_eq rfl rfl rfl rfl)) rfl _ _ _ _

theorem Slot.keepsBounds_collect (m : Summary) : Slot.keepsBounds (Slot.collect m) := by
  intro sl
  unfold Slot.collect
  split
  · next hc =>
    refine ⟨rfl, rfl, fun hb => ?_⟩
    have := hb.2 hc
    simp only [List.length_append, List.length_cons, List.length_nil, decide_eq_true_eq]
    omega
  · exact ⟨rfl, rfl, id⟩

theorem Slot.keepsBounds_completed : Slot.keepsBounds Slot.completed := fun _ =>
  ⟨rfl, rfl, fun hb => ⟨hb.1, by simp [Slot.completed]⟩⟩

theorem State.collectPost_reaches (h : State.Reaches c s x) (m : Summary) : State.Reaches c s (x.collectPost m) := by
  have hk : State.Reaches c s (x.onTam fun t => { t with slots := t.slots.map (Option.map (Slot.collect m)) }) :=
    h.onTam _ (.slots _ (Slot.keepsBounds_collect m))
  unfold State.collectPost
  dsimp only
  split
  · exact State.request_reaches_of_isPlain hk rfl
  · exact hk

theorem State.tamperTakes_reaches (h : State.Reaches c s x) (m : Summary) : State.Reaches c s (x.tamperTakes m) :=
  State.judgeBypass_reaches (State.judgeCut_reaches (State.judgeResidual_reaches (State.judgeReverse_reaches
    (State.collectPost_reaches h m) m) m) m) m

end Sys2Proof.Machine
end

section
/-! The account's arithmetic keeps the ranges of R49. -/

namespace Sys2Proof.Machine

theorem saturate_le (limit v : Nat) : saturate limit v ≤ limit := Nat.min_le_left _ _

theorem wrapAdd_le (a n : Nat) : wrapAdd a n ≤ 999999999 := by
  unfold wrapAdd
  omega

theorem AccountRec.inRange_shipped : AccountRec.shipped.inRange := by
  simp [AccountRec.inRange, AccountRec.shipped, Tri.all3]

theorem AccountRec.inRange.withPending {r : AccountRec} (h : r.inRange) (a : Account) : (r.withPending a).inRange := by
  obtain ⟨b1, b2, res, debt, tot, bl, bands, -, -, d1, d2, d3, tc, td⟩ := h
  exact ⟨b1, b2, res, debt, tot, bl, bands, ⟨wrapAdd_le _ _, wrapAdd_le _ _, wrapAdd_le _ _⟩, wrapAdd_le _ _, d1, d2, d3,
    tc, td⟩

theorem AccountRec.inRange.count {r : AccountRec} (h : r.inRange) (band : Nat) : (r.count band).inRange := by
  obtain ⟨b1, b2, res, debt, -, bl, bands, rest⟩ := h
  refine ⟨b1, b2, res, debt, wrapAdd_le _ _, by simpa [AccountRec.count] using bl, fun n hn => ?_, rest⟩
  obtain ⟨k, hk, rfl⟩ := List.mem_iff_getElem.1 hn
  simp only [AccountRec.count, List.getElem_modify]
  split
  · exact wrapAdd_le _ _
  · exact bands _ (List.getElem_mem _)

theorem AccountRec.inRange.takeDebit {r : AccountRec} (h : r.inRange) (d : Nat) : (r.takeDebit d).inRange := by
  obtain ⟨b1, b2, res, debt, rest⟩ := h
  unfold AccountRec.takeDebit
  split
  · exact ⟨by simp, by simp, res, saturate_le _ _, rest⟩
  · exact ⟨by simp only; omega, by simp only; omega, res, debt, rest⟩

theorem AccountRec.inRange.charge {r : AccountRec} (h : r.inRange) (band price : Nat) : (r.charge band price).inRange := by
  obtain ⟨b1, b2, -, debt, tot, bl, bands, rev, sub, -, -, dc, -, tcr⟩ := (h.count band).takeDebit ((r.residue + price) / 1000)
  refine ⟨b1, b2, ?_, debt, tot, bl, bands, rev, sub, saturate_le _ _, saturate_le _ _, dc, saturate_le _ _, tcr⟩
  simp only [AccountRec.charge]
  omega

theorem AccountRec.inRange.daily {r : AccountRec} (h : r.inRange) {floor : Int} (hf : -10000000 ≤ floor) (charge : Nat) :
    (r.daily floor charge).inRange := by
  obtain ⟨b1, b2, res, debt, tot, bl, bands, rev, sub, d1, d2, d3, -, tcr⟩ := h
  unfold AccountRec.daily
  dsimp only
  split
  · exact ⟨by simp only; omega, by simp only; omega, res, debt, tot, bl, bands, rev, sub, d1, d2, d3, saturate_le _ _, tcr⟩
  · exact ⟨by simp only; omega, by simp only; omega, res, saturate_le _ _, tot, bl, bands, rev, sub, d1, d2, d3,
      saturate_le _ _, tcr⟩

theorem AccountRec.inRange.dailies {r : AccountRec} (h : r.inRange) {floor : Int} (hf : -10000000 ≤ floor) (charge n : Nat) :
    (AccountRec.dailies floor charge n r).inRange := by
  induction n generalizing r with
  | zero => exact h
  | succ n ih => exact ih (h.daily hf charge)

theorem AccountRec.inRange.closeDays {r : AccountRec} (h : r.inRange) {floor : Int} (hf : -10000000 ≤ floor) (charge n : Nat) :
    (r.closeDays floor charge n).inRange := by
  obtain ⟨b1, b2, res, debt, tot, bl, bands, rev, sub, -, -, -, tc, tcr⟩ := h.dailies hf charge n
  exact ⟨b1, b2, res, debt, tot, bl, bands, rev, sub, Nat.zero_le _, Nat.zero_le _, Nat.zero_le _, tc, tcr⟩

theorem AccountRec.inRange.credit {r r' : AccountRec} (h : r.inRange) {settings : AccountSettings} (hs : settings.inRange)
    {amount : Nat} (he : r.credit settings amount = some r') : r'.inRange := by
  obtain ⟨b1, b2, res, debt, tot, bl, bands, rev, sub, d1, d2, -, tc, -⟩ := h
  obtain ⟨-, hceil, -, hrate⟩ := hs
  have hrc : r.recovery settings.rate amount ≤ amount :=
    (Nat.min_le_right _ _).trans (Nat.div_le_of_le_mul (by nlinarith))
  unfold AccountRec.credit at he
  dsimp only at he
  split at he
  · simp at he
  · obtain rfl := Option.some.inj he
    exact ⟨by simp only; omega, by simp only; omega, res, (Nat.sub_le _ _).trans debt, tot, bl, bands, rev, sub, d1, d2,
      saturate_le _ _, tc, saturate_le _ _⟩

theorem AccountRec.inRange.setDebt {r r' : AccountRec} (h : r.inRange) {amount : Nat} (he : r.setDebt amount = some r') :
    r'.inRange := by
  obtain ⟨b1, b2, res, -, rest⟩ := h
  unfold AccountRec.setDebt at he
  split at he
  · simp at he
  · obtain rfl := Option.some.inj he
    exact ⟨b1, b2, res, by simp only; omega, rest⟩

theorem AccountRec.inRange_atEntry {settings : AccountSettings} (h : settings.inRange) : (AccountRec.atEntry settings).inRange := by
  obtain ⟨ho, -⟩ := h
  obtain ⟨-, -, rest⟩ := AccountRec.inRange_shipped
  exact ⟨by simp only [AccountRec.atEntry]; omega, by simp only [AccountRec.atEntry]; omega, rest⟩

theorem AccountSettings.inRange_shipped : ConfigRec.shipped.account.inRange := by
  unfold AccountSettings.inRange
  decide

/-- The settings in force are in range where those stored are. -/
theorem State.config_account_inRange {s : State} (h : s.store.recs.config.account.inRange) : s.config.account.inRange := by
  unfold State.config
  split
  · exact h
  · exact AccountSettings.inRange_shipped

theorem State.floor_ge {s : State} (h : s.config.account.inRange) : -10000000 ≤ s.floor := by
  obtain ⟨-, -, he, -⟩ := h
  unfold State.floor
  split <;> omega

theorem State.codeEffect_inRange {s : State} {kind amount : Nat} {r : AccountRec} {n m : Nat}
    (h : s.codeEffect kind amount = some (r, n, m)) (ha : s.store.recs.account.inRange) (hc : s.config.account.inRange) :
    r.inRange := by
  have hn : s.accountNow.inRange := ha.withPending _
  unfold State.codeEffect at h
  dsimp only at h
  split at h
  · obtain ⟨r', hr, he⟩ := Option.map_eq_some_iff.1 h
    obtain ⟨rfl, -⟩ := Prod.mk.inj he
    exact hn.credit hc hr
  · obtain ⟨r', hr, he⟩ := Option.map_eq_some_iff.1 h
    obtain ⟨rfl, -⟩ := Prod.mk.inj he
    exact hn.setDebt hr

theorem State.chargeOne_inRange {s : State} (t : Option Nat) (ha : s.store.recs.account.inRange) : (s.chargeOne t).inRange := by
  unfold State.chargeOne
  dsimp only
  split
  · exact AccountRec.inRange.count (ha.withPending _) _
  · exact AccountRec.inRange.charge (ha.withPending _) _ _

theorem clampSection_account_inRange {v : SectionValue} {a : AccountSettings} (h : clampSection v = .account a) : a.inRange := by
  cases v with
  | account b =>
    obtain rfl := SectionValue.account.inj h
    simp only [AccountSettings.inRange, clampNat]
    omega
  | _ => simp [clampSection] at h

end Sys2Proof.Machine
end

section
/-! Every operation is a run of changes, continued: the switch, the account, the clock and the codes. -/

namespace Sys2Proof.Machine

variable {c : Instr} {s x : State}

theorem State.Reaches.setTam (h : State.Reaches c s x) {t : Tamper} (st : TamStep c s x t) :
    State.Reaches c s { x with tam := t } :=
  h.onTam (fun _ => t) st

theorem State.Reaches.setSw (h : State.Reaches c s x) {w : Switch} (st : SwStep c s x w) :
    State.Reaches c s { x with sw := w } :=
  h.onSw (fun _ => w) st

/-! ### The switch controller -/

theorem EvidenceRec.endActive_of_absent {e : EvidenceRec} {k : EvClass} (t : Option Nat)
    (h : ¬ (e.log.any fun r => r.cls == k && r.state == .active) = true) : e.log.map (EvRecord.endActive k t) = e.log := by
  refine (List.map_congr_left fun r hr => ?_).trans (List.map_id _)
  have : ¬ (r.cls = k ∧ r.state = .active) := fun hc => h (List.any_eq_true.2 ⟨r, hr, by simpa using hc⟩)
  simp [EvRecord.endActive, this]

theorem State.leaveJammed_reaches (h : State.Reaches c s x) : State.Reaches c s x.leaveJammed := by
  have hr := (State.endFault_reaches h .relayJammed).setTam (.recover (x.endFault .relayJammed).time)
  unfold State.leaveJammed State.followEnd
  split
  · exact State.notifyEvidence_reaches (State.request_reaches_of_isPlain hr rfl) _
  · next hn =>
    have he := EvidenceRec.endActive_of_absent (x.endFault .relayJammed).time (e := (x.endFault .relayJammed).tam.evidence) hn
    rw [he] at hr
    exact hr

theorem State.leaveJammed_relayFault (x : State) : x.leaveJammed.tam.relayFault = false := by
  unfold State.leaveJammed State.followEnd
  split
  · simp only [State.editLog, State.notifyEvidence_frame, State.request_frame]
    rfl
  · rfl

theorem State.enterJammed_reaches (h : State.Reaches c s x) (hp : x.sw.progress ≠ .idle) (ha : x.sw.progress ≠ .abandoned) :
    State.Reaches c s x.enterJammed := by
  have hj := (State.raiseFault_reaches (h.setSw (.jam hp ha)) .relayJammed).setTam (.broken (by simp))
  unfold State.enterJammed State.followOnset
  refine State.pend_reaches ?_ _
  split
  · refine State.notifyEvidence_reaches (State.request_reaches_of_isPlain ?_ rfl) _
    exact h.follows _ _ hj (by simp) rfl (.inr ⟨rfl, hp, rfl⟩)
  · exact hj

theorem State.attemptFails_reaches (h : State.Reaches c s x) (hp : x.sw.progress ≠ .idle) (ha : x.sw.progress ≠ .abandoned) :
    State.Reaches c s x.attemptFails := by
  unfold State.attemptFails
  split
  · exact State.pend_reaches (h.onSw _ (.retry hp ha ‹_›)) _
  · exact State.enterJammed_reaches h hp ha

/-- An operation that progresses may be left. -/
theorem State.mayLeave_of_progress (hp : x.sw.progress ≠ .idle) (ha : x.sw.progress ≠ .abandoned) : x.MayLeave :=
  ⟨.inr (.inr hp), fun _ => .inr hp, fun _ => .inr ha⟩

/-- A completed operation: the state entered, with the record and the times due as they then are. -/
def State.completed (target : SwitchState) (r : SwitchRec) (due : Bool) (x : State) : State :=
  x.onSw fun w => { w with record := r, timesDue := due }.enters target

theorem State.completed_reaches (h : State.Reaches c s x) {target : SwitchState} (r : SwitchRec) (due : Bool)
    (hj : target ≠ .jammed) (hc : target = .closing → State.mayClose c s x) (hp : x.sw.progress ≠ .idle)
    (ha : x.sw.progress ≠ .abandoned) : State.Reaches c s (x.completed target r due) :=
  have h1 := h.onSw (fun w => { w with record := r, timesDue := due }) (.keep _ rfl rfl rfl rfl rfl)
  h1.setSw (.enters target (State.mayLeave_of_progress hp ha) hj hc)

theorem State.judgeCompletion_reaches (h : State.Reaches c s x) (opening : Bool) (r : SwitchRec) (due : Bool)
    (hp : x.sw.progress ≠ .idle) (ha : x.sw.progress ≠ .abandoned) : State.Reaches c s ((x.onSw fun w => { w with
      record := r, attempt := 0, progress := .idle, timesDue := due }).judgeCompletion opening) := by
  have hk : ∀ target, target ≠ .jammed → (target = .closing → State.mayClose c s x) →
    State.Reaches c s (x.completed target r due) := fun t hj hc => State.completed_reaches h r due hj hc hp ha
  have rest : ∀ target, ¬ operatingState target → target ≠ .jammed → State.Reaches c s ((x.onSw fun w => { w with
      record := r, attempt := 0, progress := .idle, timesDue := due }).toRest target) := by
    intro target ho hj
    have := State.pend_reaches (hk target hj (by rintro rfl; simp [operatingState] at ho)) .switch
    simp only [State.completed, Switch.enters_of_rest ho] at this
    exact this
  have begins : ∀ target, operatingState target → (target = .closing → State.mayClose c s x) →
      State.Reaches c s ((x.onSw fun w => { w with
        record := r, attempt := 0, progress := .idle, timesDue := due }).beginOperation target) := by
    intro target ho hc
    have := State.pend_reaches ((hk target (by rintro rfl; simp [operatingState] at ho) hc).onTam
      (fun t => { t with suspended := true }) (.of_eq rfl rfl rfl rfl)) .switch
    simp only [State.completed, Switch.enters_of_operating ho] at this
    exact this
  unfold State.judgeCompletion
  split
  · split
    · exact rest _ (by simp [operatingState]) (by simp)
    · split
      · exact rest _ (by simp [operatingState]) (by simp)
      · next hack =>
        split
        · exact begins _ (.inr rfl) fun _ => .inl (Bool.not_eq_true _ ▸ hack)
        · exact rest _ (by simp [operatingState]) (by simp)
  · split
    · exact rest _ (by simp [operatingState]) (by simp)
    · split
      · exact begins _ (.inl rfl) (by simp)
      · exact rest _ (by simp [operatingState]) (by simp)

theorem State.completeOperation_reaches (h : State.Reaches c s x) (t : Nat) (hp : x.sw.progress ≠ .idle)
    (ha : x.sw.progress ≠ .abandoned) : State.Reaches c s (x.completeOperation t) :=
  State.request_reaches_of_isPlain (State.judgeCompletion_reaches h _ _ _ hp ha) rfl

theorem State.setSensed_reaches (h : State.Reaches c s x)
    (hs : x.tam.relayFault = false ∨ x.sw.sensing = some .atStart ∨ x.sw.sensing = some .atDip) :
    State.Reaches c s x.setSensed := by
  have hk : ∀ target, target ≠ .jammed → (target = .closing → State.mayClose c s x) →
    State.Reaches c s (x.onSw fun w => { w with sensing := none }.enters target) := fun t hj hc => h.onSw _ (.position t hs hj hc)
  have rest : ∀ target, ¬ operatingState target → target ≠ .jammed →
      State.Reaches c s ((x.onSw fun w => { w with sensing := none }).toRest target) := by
    intro target ho hj
    have := State.pend_reaches (hk target hj (by rintro rfl; simp [operatingState] at ho)) .switch
    simp only [Switch.enters_of_rest ho] at this
    exact this
  have begins : ∀ target, operatingState target → (target = .closing → State.mayClose c s x) →
      State.Reaches c s ((x.onSw fun w => { w with sensing := none }).beginOperation target) := by
    intro target ho hc
    have := State.pend_reaches ((hk target (by rintro rfl; simp [operatingState] at ho) hc).onTam
      (fun t => { t with suspended := true }) (.of_eq rfl rfl rfl rfl)) .switch
    simp only [Switch.enters_of_operating ho] at this
    exact this
  unfold State.setSensed
  dsimp only
  split
  · split
    · exact rest _ (by simp [operatingState]) (by simp)
    · exact begins _ (.inl rfl) (by simp)
  · split
    · split
      · exact rest _ (by simp [operatingState]) (by simp)
      · next hack => exact begins _ (.inr rfl) fun _ => .inl (by simpa using hack)
    · exact rest _ (by simp [operatingState]) (by simp)

theorem State.switchHoldup_reaches (h : State.Reaches c s x) : State.Reaches c s x.switchHoldup := by
  have h1 : State.Reaches c s (match x.sw.progress with
    | .waiting | .blanking _ | .watching _ _ _ => x.onSw fun w => { w with progress := .abandoned }
    | _ => x) := by
    split
    · next e => exact h.onSw _ (.progress _ (by simp [e]) (by simp [e]) (by simp))
    · next e => exact h.onSw _ (.progress _ (by simp [e]) (by simp [e]) (by simp))
    · next e => exact h.onSw _ (.progress _ (by simp [e]) (by simp [e]) (by simp))
    · exact h
  have hsame : (match x.sw.progress with
    | .waiting | .blanking _ | .watching _ _ _ => x.onSw fun w => { w with progress := .abandoned }
    | _ => x).sw.sensing = x.sw.sensing := by split <;> rfl
  unfold State.switchHoldup
  dsimp only
  split
  · exact State.answer_reaches (h1.onSw _ (.lapse _ (.inl rfl))) _ _
  · next e => exact h1.onSw _ (.lapse _ (.inr ⟨hsame.trans e, rfl⟩))
  · exact h1

theorem State.switchDip_reaches (h : State.Reaches c s x) : State.Reaches c s x.switchDip := by
  unfold State.switchDip
  split
  · exact h.onSw _ (.sense _ (by simp) fun _ => ‹_›)
  · exact State.judgeRest_reaches h

theorem State.endBlanking_reaches (h : State.Reaches c s x) : State.Reaches c s x.endBlanking := by
  unfold State.endBlanking
  split
  · next e => exact h.onSw _ (.progress _ (by simp [e]) (by simp [e]) (by simp))
  · exact h

theorem State.lsChanges_reaches (h : State.Reaches c s x) (ls : Tri Bool) (ms : Nat) :
    State.Reaches c s (x.lsChanges ls ms) := by
  have h1 := h.onSw (fun w => { w with ls := ls }) (.keep _ rfl rfl rfl rfl rfl)
  unfold State.lsChanges
  dsimp only
  split
  · next a since past e =>
    have h2 := h1.setSw (.progress (.watching { a with now := max ms a.now }
      (intervalAfter (confirms x.sw.state a.need ls) past (max ms a.now) a.window since) past) (by simp [State.onSw, e]) (by simp [State.onSw, e]) (by simp))
    split
    · exact State.attemptFails_reaches h2 (by simp [State.onSw]) (by simp [State.onSw])
    · exact h2
  · exact h1

theorem State.confirm_reaches (h : State.Reaches c s x) : State.Reaches c s x.confirm := by
  unfold State.confirm
  split
  · next e =>
    split
    · exact State.completeOperation_reaches h _ (by simp [e]) (by simp [e])
    · exact h.onSw _ (.progress _ (by simp [e]) (by simp [e]) (by simp))
  · exact h

theorem State.endPulse_reaches (h : State.Reaches c s x) : State.Reaches c s x.endPulse := by
  have h1 := h.onSw (fun w => { w with drive := .none }) .release
  unfold State.endPulse
  dsimp only
  split
  · exact h
  · split
    · next e => exact State.completeOperation_reaches h1 _ (by simp [State.onSw, e]) (by simp [State.onSw, e])
    · exact h1

theorem State.endWatch_reaches (h : State.Reaches c s x) : State.Reaches c s x.endWatch := by
  unfold State.endWatch
  split
  · next e =>
    split
    · exact h
    · split
      · exact State.attemptFails_reaches h (by simp [e]) (by simp [e])
      · exact h.onSw _ (.progress _ (by simp [e]) (by simp [e]) (by simp))
  · exact h

theorem State.endSuspension_reaches (h : State.Reaches c s x) : State.Reaches c s x.endSuspension := by
  unfold State.endSuspension
  split
  · exact h.onTam _ (.of_eq rfl rfl rfl rfl)
  · exact h

theorem State.startPulse_reaches (h : c = .coilPulseStart) : State.Reaches c s s.startPulse := by
  unfold State.startPulse
  split
  · next hc =>
    simp only [Bool.and_eq_true, beq_iff_eq] at hc
    obtain ⟨⟨⟨⟨-, hm⟩, hp⟩, hd⟩, hl⟩ := hc
    refine State.Reaches.refl.onSw _ (.pulse _ _ h rfl hm hd (by rintro e; simp [e] at hl) ?_ hp (by simp))
    split <;> simp [*]
  · exact .refl

/-- In ARMED the state may be left: no position is being sensed for a start there. -/
theorem State.mayLeave_of_armed (h : x.sw.state = .armed) : x.MayLeave :=
  State.mayLeave_of_rest (.inr (.inr h)) fun _ => by simp [h]

theorem State.press_reaches (h : c = .buttonPress) : State.Reaches c s s.press := by
  unfold State.press
  split
  · next hc =>
    simp only [Bool.and_eq_true, beq_iff_eq] at hc
    exact State.beginOperation_reaches .refl (.inr rfl) (State.mayLeave_of_armed hc.2) fun _ => .inr ⟨hc.2, hc.1.2, .inl h⟩
  · exact .refl

theorem State.examineRemote_reaches (h : State.Reaches c s x) (b : Byte) : State.Reaches c s (x.examineRemote b) := by
  unfold State.examineRemote
  with_reducible repeat' first
    | exact h | apply State.answer_reaches | apply State.handHold_reaches | apply State.await_reaches | split

/-- JAMMED, with RELAY-FAULT ended, may be left. -/
theorem State.mayLeave_of_jammed (hf : x.tam.relayFault = false) (hj : x.sw.state = .jammed) : x.MayLeave :=
  ⟨.inl hf, fun _ => .inl (by simp [hj]), fun _ => .inl (by simp [operatingState, hj])⟩

@[simp] theorem State.leaveJammed_sw (x : State) : x.leaveJammed.sw = x.sw := by
  simp only [State.leaveJammed]
  simp

theorem State.retryInto_reaches (h : State.Reaches c s x) {target : SwitchState} (ho : operatingState target)
    (hj : x.sw.state = .jammed) (hc : target = .closing → x.leaveJammed.ackRequired = false) :
    State.Reaches c s (x.retryInto target) :=
  State.answer_reaches (State.beginOperation_reaches (State.leaveJammed_reaches h) ho
    (State.mayLeave_of_jammed x.leaveJammed_relayFault (by simpa using hj)) fun e => .inl (hc e)) _ _

theorem State.leaveJammed_ackRequired (x : State) : x.leaveJammed.ackRequired = x.ackRequired := by
  simp [State.ackRequired, State.config, State.sound]

theorem State.examineRetry_reaches (h : State.Reaches c s x) : State.Reaches c s x.examineRetry := by
  unfold State.examineRetry
  split
  · exact State.answer_reaches h _ _
  · next hj =>
    have hj : x.sw.state = .jammed := by simpa using hj
    split
    · exact State.answer_reaches h _ _
    · split
      · exact State.retryInto_reaches h (.inl rfl) hj (by simp)
      · split
        · next ha =>
          exact State.retryInto_reaches h (.inr rfl) hj fun _ => by simpa [State.leaveJammed_ackRequired] using ha
        · exact State.await_reaches (h.onSw _ (.sense _ (by simp) (by simp)))

end Sys2Proof.Machine
end

section
/-! Every operation is a run of changes, continued: the account, the clock and the codes. -/

namespace Sys2Proof.Machine

variable {c : Instr} {s x : State}

/-! ### The credit test, the calendar and the back-off -/

theorem State.judgeCondition_reaches (h : State.Reaches c s x) (b : Bool) : State.Reaches c s (x.judgeCondition b) := by
  unfold State.judgeCondition
  dsimp only
  split
  · exact h
  · exact State.pend_reaches (h.onAcct _) _

theorem State.creditTest_reaches (h : State.Reaches c s x) (b : Bool) : State.Reaches c s (x.creditTest b) := by
  unfold State.creditTest
  split
  · exact h
  · refine State.judgeCondition_reaches ?_ b
    split
    · exact State.handHold_reaches h _ _
    · exact h

theorem State.evalFriendly_reaches (h : State.Reaches c s x) : State.Reaches c s x.evalFriendly := by
  unfold State.evalFriendly
  dsimp only
  split
  · exact h
  · exact State.creditTest_reaches (h.onCal _) _

theorem State.compareDay_reaches (h : State.Reaches c s x) : State.Reaches c s x.compareDay := by
  unfold State.compareDay
  dsimp only
  with_reducible repeat' first | exact h | apply State.Reaches.onCal | apply State.Reaches.onAcct | split

theorem State.bringInBackoff_reaches (h : State.Reaches c s x) : State.Reaches c s x.bringInBackoff := by
  unfold State.bringInBackoff
  split
  · split
    · exact State.request_reaches_of_isPlain (h.onSup _ id) rfl
    · exact h
  · exact h

theorem State.endWindow_reaches (h : State.Reaches c s x) (hc : c = .windowTimerExpiry ∨ c = .closeService ∨ c = .supplyFailing)
    (hw : x.life.state = .serviceWindow) : State.Reaches c s x.endWindow := by
  have h1 : State.Reaches c s (((x.onLife fun v => { v with state := .inService, window := none, timer := none }).pend
      .life).request .lifeRecord) :=
    State.request_reaches_of_isPlain (State.pend_reaches
      (h.onLife _ ⟨rfl, .inl rfl, .inr (.inr (.inr ⟨hc, hw, rfl⟩))⟩) _) rfl
  unfold State.endWindow
  with_reducible repeat' first | exact h1 | apply State.coverOnset_reaches | split

/-! ### The account unit -/

theorem State.takeInto_reaches (h : State.Reaches c s x) (rest : List Entry) {p : Purpose} (hp : p.fits x) :
    State.Reaches c s (x.takeInto rest p) :=
  State.request_reaches (h.onAcct _) hp

/-- A write of the account record fits where its record is in range with the stored one. -/
theorem Purpose.fits_of_account {p : Purpose} {a : AccountRec} (hp : p.account = some a)
    (ha : x.store.recs.account.inRange → x.config.account.inRange → a.inRange) : p.fits x := by
  refine ⟨fun b hb => ?_, ?_, ?_⟩
  · rw [hp] at hb
    exact Option.some.inj hb ▸ ha
  · rintro a b rfl
    simp [Purpose.account] at hp
  · rintro v a b d e rfl
    simp [Purpose.account] at hp

theorem State.chargeHead_reaches (h : State.Reaches c s x) : State.Reaches c s x.chargeHead := by
  unfold State.chargeHead
  split
  · split
    · split
      · exact h.onAcct _
      · exact State.takeInto_reaches h _ (Purpose.fits_of_account rfl fun ha _ => State.chargeOne_inRange _ ha)
    · exact h
  · exact h

theorem State.writePending_reaches (h : State.Reaches c s x) : State.Reaches c s x.writePending := by
  unfold State.writePending
  split
  · exact State.takeInto_reaches h _ (Purpose.fits_of_account rfl fun ha _ => ha.withPending _)
  · exact h

theorem State.takeBoundary_reaches (h : State.Reaches c s x) : State.Reaches c s x.takeBoundary := by
  unfold State.takeBoundary
  split
  · split
    · exact State.takeInto_reaches h _ (Purpose.fits_of_account rfl fun ha hc =>
        (ha.withPending _).closeDays (State.floor_ge hc) _ _)
    · exact h
  · exact h

theorem State.takeAdoption_reaches (h : State.Reaches c s x) : State.Reaches c s x.takeAdoption := by
  unfold State.takeAdoption
  split
  · split
    · exact State.request_reaches_of_isPlain (h.onAcct _) rfl
    · exact h
  · exact h

theorem State.setResult_reaches (h : State.Reaches c s x) (r : CodeResult) : State.Reaches c s (x.setResult r) :=
  h.onCode _ id

theorem State.endCode_reaches (h : State.Reaches c s x) (st : Status) (r : CodeResult) : State.Reaches c s (x.endCode st r) :=
  State.answer_reaches (State.setResult_reaches h r) _ _

theorem State.takeCode_reaches (h : State.Reaches c s x) : State.Reaches c s x.takeCode := by
  unfold State.takeCode
  split
  · split
    · split
      · next he => exact State.takeInto_reaches h _ (Purpose.fits_of_account rfl fun ha hc => State.codeEffect_inRange he ha hc)
      · dsimp only
        split
        · exact State.endCode_reaches (h.onAcct _) _ _
        · exact h.onAcct _
    · exact h
  · exact h

theorem State.examineEmergency_reaches (h : State.Reaches c s x) : State.Reaches c s x.examineEmergency := by
  unfold State.examineEmergency
  with_reducible repeat' first
    | exact h | apply State.answer_reaches | apply State.await_reaches | apply State.Reaches.onAcct | split

theorem State.takeEmergency_reaches (h : State.Reaches c s x) : State.Reaches c s x.takeEmergency := by
  unfold State.takeEmergency
  split
  · split
    · split
      · exact State.takeInto_reaches h _ (Purpose.fits_of_account rfl fun ha _ => ha.withPending _)
      · dsimp only
        split
        · exact State.answer_reaches (h.onAcct _) _ _
        · exact h.onAcct _
    · exact h
  · exact h

theorem State.takeEntry_reaches (h : State.Reaches c s x) : State.Reaches c s x.takeEntry := by
  unfold State.takeEntry
  split
  · split
    · exact State.takeInto_reaches h _ (Purpose.fits_of_isPlain rfl)
    · exact h
  · exact h

theorem accountWritten_reaches (h : State.Reaches c s x) (w : Write) : State.Reaches c s (accountWritten w x) := by
  simp only [accountWritten]
  with_reducible repeat' first | apply State.answer_reaches | apply State.creditTest_reaches | exact h | split

theorem boundaryWritten_reaches (h : State.Reaches c s x) (w : Write) : State.Reaches c s (boundaryWritten w x) :=
  State.compareDay_reaches (State.pend_reaches (State.creditTest_reaches (h.onCal _) _) _)

/-! ### Entry into service -/

theorem State.tamperEntry_reaches (h : State.Reaches c s x) : State.Reaches c s x.tamperEntry := by
  have h1 : State.Reaches c s (x.onTam fun t => { t with evidence := x.entryEvidence, slots := x.entrySlots }) :=
    h.onTam _ .entered
  refine State.notifyAll_reaches _ x.entryEvidence.log ?_
  change State.Reaches c s (if (x.entryEvidence != x.store.recs.evidence || x.entrySlots != x.store.recs.snapshot) = true
    then _ else _)
  split
  · exact State.request_reaches_of_isPlain h1 rfl
  · exact h1

theorem entryWritten_reaches (h : State.Reaches c s x) (hc : c = .entryWriteComplete) (w : Write) :
    State.Reaches c s (entryWritten w x) := by
  have h1 : State.Reaches c s ((((x.onSup fun u => { u with supply := { u.supply with trips := [], backoff := none } }).tamperEntry).onLife
      fun v => { v with state := .inService, window := none }).pend .life) :=
    State.pend_reaches ((State.tamperEntry_reaches (h.onSup _ id)).onLife _ ⟨rfl, .inl rfl, .inr (.inl ⟨hc, rfl⟩)⟩) _
  simp only [entryWritten]
  with_reducible repeat' first
    | exact h1 | apply State.answer_reaches | apply State.releaseHeld_reaches | apply State.judgeTamper_reaches
    | apply State.handHold_reaches | apply State.creditTest_reaches | split

/-! ### The clock -/

theorem State.newMinute_reaches (h : State.Reaches c s x) : State.Reaches c s x.newMinute := by
  unfold State.newMinute
  split
  · exact State.evalFriendly_reaches h
  · exact h

theorem State.activate_reaches (h : State.Reaches c s x) : State.Reaches c s x.activate := by
  unfold State.activate
  split
  · exact State.request_reaches_of_isPlain h rfl
  · exact h

theorem activationWritten_reaches (h : State.Reaches c s x) (w : Write) : State.Reaches c s (activationWritten w x) :=
  State.pend_reaches (State.evalFriendly_reaches h) _

theorem State.lockoutReached_reaches (h : State.Reaches c s x) : State.Reaches c s x.lockoutReached := by
  unfold State.lockoutReached
  split
  · exact State.request_reaches_of_isPlain h rfl
  · exact h

theorem lockoutWritten_reaches (h : State.Reaches c s x) (w : Write) : State.Reaches c s (lockoutWritten w x) := by
  unfold lockoutWritten
  split
  · exact State.latchEnd_reaches (h.onTam _ (.of_eq rfl rfl rfl rfl)) rfl
  · exact h

theorem State.backoffTest_reaches (h : State.Reaches c s x) : State.Reaches c s x.backoffTest := by
  unfold State.backoffTest
  split
  · split
    · exact State.request_reaches_of_isPlain (State.handHold_reaches (h.onSup _ id) _ _) rfl
    · exact h
  · exact h

theorem State.backoffReached_reaches (h : State.Reaches c s x) : State.Reaches c s x.backoffReached := by
  unfold State.backoffReached
  split
  · exact State.backoffTest_reaches (State.bringInBackoff_reaches h)
  · exact h

theorem State.clockTests_reaches (h : State.Reaches c s x) : State.Reaches c s x.clockTests :=
  State.backoffReached_reaches (State.lockoutReached_reaches (State.activate_reaches (State.compareDay_reaches h)))

theorem State.secondPasses_reaches (hc : c = .clockSecond) : State.Reaches c s s.secondPasses := by
  unfold State.secondPasses
  split
  · next hr =>
    have h1 := State.Reaches.ticked hc hr
    dsimp only
    split
    · exact State.clockTests_reaches (State.newMinute_reaches h1)
    · exact h1
  · exact .refl

theorem State.takeSetTime_reaches (h : State.Reaches c s x) {v : Nat} (hv : v ≤ maxClock) (d : Option Nat) :
    State.Reaches c s (x.takeSetTime v d) := by
  refine State.request_reaches (State.await_reaches h) ⟨by simp [Purpose.account], by simp, ?_⟩
  rintro _ _ _ _ _ h
  injection h with h
  exact h ▸ hv

theorem State.refuseSetTime_reaches (h : State.Reaches c s x) (v : Nat) : State.Reaches c s (x.refuseSetTime v) :=
  State.answer_reaches (State.clockStep_reaches h _ _ _) _ _

theorem State.examineSetTime_reaches (h : State.Reaches c s x) (v : Nat) : State.Reaches c s (x.examineSetTime v) := by
  unfold State.examineSetTime
  split
  · exact State.answer_reaches h _ _
  · split
    · exact State.answer_reaches h _ _
    · next hv =>
      have hv : v ≤ maxClock := Nat.le_of_not_lt hv
      with_reducible repeat' first
        | exact hv | exact h | apply State.answer_reaches | apply State.takeSetTime_reaches | apply State.refuseSetTime_reaches
        | split

theorem setTimeWritten_reaches (h : State.Reaches c s x) (hc : c = .setTimeWriteComplete) (w : Write)
    (hv : ∀ v a b d e, w.purpose = .setTime v a b d e → s.clockInRange → v ≤ maxClock) :
    State.Reaches c s (setTimeWritten w x) := by
  unfold setTimeWritten
  split
  · next v prior outcome a b e =>
    have h1 : State.Reaches c s (x.clockSet v) := State.endFault_reaches (h.clockSet v hc (hv _ _ _ _ _ e)) _
    have h2 := State.clockTests_reaches (State.evalFriendly_reaches (State.clockStep_reaches h1 prior v outcome))
    dsimp only
    split
    · exact State.answer_reaches h2 _ _
    · exact h2
  · exact h

/-! ### Codes -/

theorem State.refuseCode_reaches (h : State.Reaches c s x) (st : Status) (k q : Option Nat) :
    State.Reaches c s (x.refuseCode st k q) :=
  State.endCode_reaches h _ _

theorem State.countCode_reaches (h : State.Reaches c s x) (st : Status) (k q : Option Nat) :
    State.Reaches c s (x.countCode st k q) :=
  State.request_reaches_of_isPlain (State.await_reaches h) rfl

theorem State.takeClearTamper_reaches (h : State.Reaches c s x) (m q : Nat) : State.Reaches c s (x.takeClearTamper m q) :=
  State.request_reaches_of_isPlain (State.await_reaches (h.onTam _ (.of_eq rfl rfl rfl rfl))) rfl

theorem State.handEffect_reaches (h : State.Reaches c s x) (k q a : Nat) : State.Reaches c s (x.handEffect k q a) := by
  unfold State.handEffect
  split
  · exact State.takeClearTamper_reaches h _ _
  · exact State.request_reaches_of_isPlain (State.await_reaches h) rfl
  · exact State.request_reaches_of_isPlain (State.await_reaches h) rfl
  · exact State.await_reaches (h.onAcct _)

theorem State.examineWord_reaches (h : State.Reaches c s x) (u : Nat) : State.Reaches c s (x.examineWord u) := by
  unfold State.examineWord
  dsimp only
  with_reducible repeat' first
    | exact h | apply State.countCode_reaches | apply State.refuseCode_reaches | apply State.handEffect_reaches | split

theorem State.submit_reaches (h : State.Reaches c s x) (l : List Byte) : State.Reaches c s (x.submit l) := by
  unfold State.submit
  with_reducible repeat' first | exact h | apply State.refuseCode_reaches | apply State.examineWord_reaches | split

/-- New contents of the digit buffer keep its bounds when they are digits, at most 20. -/
theorem State.setDigits_reaches (h : State.Reaches c s x) {l : List Byte}
    (hl : x.code.bounded → l.length ≤ 20 ∧ ∀ d ∈ l, d.toNat ≤ 9) : State.Reaches c s (x.setDigits l) :=
  h.onCode _ fun hb => ⟨(hl hb).1, (hl hb).2, rfl⟩

theorem State.clearDigits_reaches (h : State.Reaches c s x) : State.Reaches c s (x.setDigits []) :=
  State.setDigits_reaches h fun _ => by simp

theorem State.keyEnter_reaches (h : State.Reaches c s x) : State.Reaches c s x.keyEnter := by
  unfold State.keyEnter
  dsimp only
  split
  · exact State.refuseCode_reaches (State.clearDigits_reaches h) _ _ _
  · exact State.submit_reaches (State.clearDigits_reaches h) _

theorem State.keyDigit_reaches (h : State.Reaches c s x) {key : Byte} (hk : key.toNat ≤ 9) : State.Reaches c s (x.keyDigit key) := by
  unfold State.keyDigit
  split
  · next hl =>
    refine State.answer_reaches (State.setDigits_reaches h fun hb => ⟨by simp; omega, fun d hd => ?_⟩) _ _
    simp only [List.mem_append, List.mem_singleton] at hd
    rcases hd with hd | rfl
    · exact hb.2.1 d hd
    · exact hk
  · exact State.answer_reaches (State.setDigits_reaches h fun hb => ⟨hb.1, hb.2.1⟩) _ _

theorem State.keyBack_reaches (h : State.Reaches c s x) : State.Reaches c s x.keyBack :=
  State.answer_reaches (State.setDigits_reaches h fun hb =>
    ⟨by rw [List.length_dropLast]; exact (Nat.sub_le _ _).trans hb.1, fun d hd => hb.2.1 d (List.mem_of_mem_dropLast hd)⟩) _ _

theorem State.examineKey_reaches (h : State.Reaches c s x) (key : Byte) : State.Reaches c s (x.examineKey key) := by
  unfold State.examineKey
  split
  · exact State.answer_reaches h _ _
  · split
    · exact State.keyDigit_reaches h ‹_›
    · split
      · exact State.answer_reaches (State.clearDigits_reaches h) _ _
      · split
        · exact State.keyBack_reaches h
        · split
          · exact State.keyEnter_reaches h
          · exact State.answer_reaches h _ _

theorem State.examineEnter_reaches (h : State.Reaches c s x) (l : List Byte) : State.Reaches c s (x.examineEnter l) := by
  unfold State.examineEnter
  dsimp only
  split
  · exact State.refuseCode_reaches (State.clearDigits_reaches h) _ _ _
  · exact State.submit_reaches (State.clearDigits_reaches h) _

theorem State.pauseExpires_reaches (h : State.Reaches c s x) : State.Reaches c s x.pauseExpires := by
  unfold State.pauseExpires
  split
  · exact State.pend_reaches (State.clearDigits_reaches h) _
  · exact h

theorem State.attackBegins_reaches (h : State.Reaches c s x) : State.Reaches c s x.attackBegins := by
  unfold State.attackBegins
  split
  · exact State.latchOnset_reaches (h.onTam _ (.of_eq rfl rfl rfl rfl)) rfl _ _
  · exact h

theorem countedWritten_reaches (h : State.Reaches c s x) (w : Write) : State.Reaches c s (countedWritten w x) := by
  simp only [countedWritten]
  with_reducible repeat' first
    | exact h | apply State.refuseCode_reaches | apply State.setResult_reaches | apply State.attackBegins_reaches | split

theorem State.clearLatches_reaches (h : State.Reaches c s x) (l : List EvClass) (q : Nat) (t : Option Nat) :
    State.Reaches c s (x.clearLatches l q t) :=
  State.releaseHeld_reaches (State.judgeTamper_reaches (State.notifyAll_reaches id l
    (h.setTam (.edit _ (EvRecord.keepsPlace_clearedBy l q t)))))

theorem State.openWindow_reaches (h : State.Reaches c s x) (hc : c = .codeAcceptWriteComplete) (m q : Nat) :
    State.Reaches c s (x.openWindow m q) := by
  have h1 := h.onLife (fun v => { v with state := .serviceWindow, window := some q, timer := some m })
    ⟨rfl, .inl rfl, .inr (.inr (.inl ⟨hc, rfl⟩))⟩
  unfold State.openWindow
  dsimp only
  split
  · exact h1
  · exact State.pend_reaches h1 _

theorem acceptEffect_reaches (h : State.Reaches c s x) (hc : c = .codeAcceptWriteComplete) (w : Write) :
    State.Reaches c s (acceptEffect w x).1 := by
  unfold acceptEffect
  split
  · exact State.creditTest_reaches h _
  · exact State.clearLatches_reaches h _ _ _
  · dsimp only
    exact h.onSw _ (.keep _ rfl rfl rfl rfl rfl)
  · exact State.openWindow_reaches h hc _ _
  · exact h

theorem acceptWritten_reaches (h : State.Reaches c s x) (hc : c = .codeAcceptWriteComplete) (w : Write) :
    State.Reaches c s (acceptWritten w x) := by
  simp only [acceptWritten]
  with_reducible repeat' first
    | exact hc | exact h | apply State.endCode_reaches | apply State.setResult_reaches | apply acceptEffect_reaches | split

end Sys2Proof.Machine
end

section
/-! Every operation is a run of changes, continued: starts, metrology, the link, service and the scan; and so is every command. -/

namespace Sys2Proof.Machine

variable {c : Instr} {s x : State}

/-! ### Starts -/

theorem State.begun_reaches {cause : StartCause} {found : StartReadings} (hc : c = .start found) :
    State.Reaches c s (s.begun cause found) :=
  .begun cause found hc

theorem State.begun_sup (cause : StartCause) (found : StartReadings) : (s.begun cause found).sup.overheat = false := rfl

theorem State.begun_sw (cause : StartCause) (found : StartReadings) :
    (s.begun cause found).sw.state = .opened ∧ (s.begun cause found).sw.progress = .idle := ⟨rfl, rfl⟩

theorem State.startMetrology_reaches (h : State.Reaches c s x) (found : StartReadings) :
    State.Reaches c s (x.startMetrology found) := by
  unfold State.startMetrology
  split
  · exact h.onReg _ ⟨fun _ => id, id⟩
  · exact h.onReg _ ⟨fun hr hx => ⟨hr, hx.2⟩, id⟩

theorem State.startMetrology_others (x : State) (found : StartReadings) :
    (x.startMetrology found).sup = x.sup ∧ (x.startMetrology found).sw = x.sw := by
  unfold State.startMetrology
  split <;> exact ⟨rfl, rfl⟩

theorem State.startSupervision_reaches (h : State.Reaches c s x) (ho : x.sup.overheat = false) (kind : StartKind) :
    State.Reaches c s (x.startSupervision kind) :=
  h.onSup _ fun hx => absurd hx (by simp [ho])

theorem State.startSwitch_reaches (h : State.Reaches c s x) (ho : x.sw.state = .opened) (hp : x.sw.progress = .idle) :
    State.Reaches c s x.startSwitch :=
  h.setSw (.start _ ho hp)

theorem State.repairLog_reaches (h : State.Reaches c s x) (hc : ∃ found, c = .start found) : State.Reaches c s x.repairLog :=
  State.notifyAll_reaches _ _ (h.onTam (fun _ => x.repairedTam) (.repaired hc))

theorem State.recordOutage_reaches (h : State.Reaches c s x) (kind : StartKind) : State.Reaches c s (x.recordOutage kind) := by
  unfold State.recordOutage
  split
  · exact State.appendRecord_reaches h (by simp [blankRecord]) (by simp [blankRecord])
  · exact h

theorem State.convertSlot_reaches (h : State.Reaches c s x) (which : Cover) (slot : CoverSlot) :
    State.Reaches c s (x.convertSlot which slot) := by
  unfold State.convertSlot
  dsimp only
  split
  · exact h
  · split
    · exact State.notifyEvidence_reaches (State.editLog_reaches h (EvRecord.keepsPlace_ite _ fun _ => by simp)) _
    · next hl =>
      exact State.appendRecord_reaches h (by simp [blankRecord]) fun _ =>
        ⟨fun _ => coverClass_latching which, by simpa [blankRecord] using hl⟩

theorem State.firstReading_reaches (h : State.Reaches c s x) {k : EvClass} (hk : k.latching = true) (p : Bool) (v : Option Int) :
    State.Reaches c s (x.firstReading k p v) := by
  unfold State.firstReading
  split
  · exact State.latchOnset_reaches h hk _ _
  · exact h

theorem State.startTamper_reaches (h : State.Reaches c s x) (hc : ∃ found, c = .start found) (kind : StartKind)
    (found : StartReadings) : State.Reaches c s (x.startTamper kind found) := by
  have h1 := State.convertSlot_reaches (State.convertSlot_reaches (State.recordOutage_reaches (State.repairLog_reaches h hc)
    kind) .main x.backup.retained.cover) .terminal x.backup.retained.term
  have h2 := h1.onTam (fun t => { t with
    coverOpen := found.coverOpen, termOpen := found.termOpen, magnet := found.magAsserted, codeAttack := x.lockedOut })
    (.of_eq rfl rfl rfl rfl)
  exact State.firstReading_reaches (State.firstReading_reaches (State.firstReading_reaches (State.firstReading_reaches h2 rfl _ _)
    rfl _ _) rfl _ _) rfl _ _

theorem State.startClock_reaches (h : State.Reaches c s x) : State.Reaches c s x.startClock := by
  unfold State.startClock
  split
  · exact h
  · exact State.raiseFault_reaches h _

theorem whenDue_isPlain {b : Bool} {p : Purpose} (hp : p.isPlain = true) : ∀ q ∈ whenDue b p, q.isPlain = true := by
  unfold whenDue
  split <;> simp [hp]

theorem State.startRequests_isPlain (x : State) (kind : StartKind) (due : Bool) :
    ∀ p ∈ x.startRequests kind due, p.isPlain = true := by
  unfold State.startRequests
  dsimp only
  simp only [List.forall_mem_append]
  refine ⟨⟨⟨⟨⟨⟨whenDue_isPlain rfl, whenDue_isPlain rfl⟩, whenDue_isPlain rfl⟩, whenDue_isPlain rfl⟩, whenDue_isPlain rfl⟩,
    whenDue_isPlain rfl⟩, ?_⟩
  split
  · simp [Purpose.isPlain]
  · simp only [List.forall_mem_append]
    refine ⟨?_, whenDue_isPlain rfl⟩
    split <;> simp [Purpose.isPlain]

/-- The state of a start once its records have been checked: the faults that check raises follow on State.begun. -/
def State.checked (cause : StartCause) (found : StartReadings) (s : State) : State :=
  let x := s.begun cause found
  let x1 := if x.store.unsound.isEmpty then x else x.raiseFault .storeFault
  if x.life.repaired.isEmpty then x1 else x1.raiseFault .storeRepaired

theorem State.checked_reaches {cause : StartCause} {found : StartReadings} (hc : c = .start found) :
    State.Reaches c s (s.checked cause found) := by
  simp only [State.checked]
  with_reducible repeat' first | exact State.begun_reaches hc | apply State.raiseFault_reaches | split

theorem State.checked_parts (cause : StartCause) (found : StartReadings) :
    (s.checked cause found).sup.overheat = false ∧ (s.checked cause found).sw.state = .opened ∧
      (s.checked cause found).sw.progress = .idle := by
  have h1 := s.begun_sup cause found
  have h2 := s.begun_sw cause found
  simp only [State.checked]
  (repeat' split) <;> simp [h1, h2]

theorem State.beginStart_reaches {cause : StartCause} {found : StartReadings} (hc : c = .start found) :
    State.Reaches c s (s.beginStart cause found) := by
  obtain ⟨hsup, hsw, hp⟩ := s.checked_parts cause found
  obtain ⟨e1, e2⟩ := (s.checked cause found).startMetrology_others found
  rw [← e1] at hsup
  rw [← e2] at hsw hp
  have h1 := State.startMetrology_reaches (State.checked_reaches (s := s) (cause := cause) hc) found
  have hk := fun (kind : StartKind) => State.startClock_reaches (State.startTamper_reaches (State.startSwitch_reaches
    (State.startSupervision_reaches h1 hsup kind) hsw hp) ⟨found, hc⟩ kind found)
  exact State.pump_reaches ((hk _).onStore _ (.refill _ ⟨found, hc⟩ (State.startRequests_isPlain _ _ _)))

theorem State.startWith_reaches {found : StartReadings} (hc : c = .start found) : State.Reaches c s (s.startWith found) := by
  unfold State.startWith
  split
  · exact State.beginStart_reaches hc
  · exact .refl

theorem State.endCalendar_reaches (h : State.Reaches c s x) : State.Reaches c s x.endCalendar :=
  State.creditTest_reaches (h.onCal _) _

theorem State.restartSilence_reaches (h : State.Reaches c s x) : State.Reaches c s x.restartSilence :=
  h.onLink _ (.of_eq rfl rfl rfl rfl)

theorem State.finishStart_reaches (h : State.Reaches c s x) (hc : c = .positionSensingEnd ∨ c = .startWriteComplete) :
    State.Reaches c s x.finishStart := by
  have h1 : State.Reaches c s ((x.onBackup fun b => { b with domain := .running }).onLink fun l => { l with receiver := .waitHigh }) :=
    (h.onBackup _ ⟨rfl, rfl, id, fun _ => .inr hc⟩).onLink _ (.of_eq rfl rfl rfl rfl)
  simp only [State.finishStart]
  exact State.restartSilence_reaches (State.pend_reaches (State.pend_reaches (State.pend_reaches (State.judgeTamper_reaches
    (State.handHold_reaches (State.clockTests_reaches (State.endCalendar_reaches h1)) _ _)) _) _) _)

theorem State.tryEndStart_reaches (h : State.Reaches c s x) (hc : c = .positionSensingEnd ∨ c = .startWriteComplete) :
    State.Reaches c s x.tryEndStart := by
  unfold State.tryEndStart
  split
  · split
    · exact h
    · exact State.finishStart_reaches h hc
  · exact h

theorem startWritten_reaches (h : State.Reaches c s x) (hc : c = .startWriteComplete) (w : Write) :
    State.Reaches c s (startWritten w x) := by
  refine State.tryEndStart_reaches (h.onBackup _ ⟨rfl, rfl, id, fun hr => ?_⟩) (.inr hc)
  dsimp only at hr
  split at hr
  · simp at hr
  · exact .inl hr

theorem State.sensed_reaches (h : State.Reaches c s x) (hc : c = .positionSensingEnd) : State.Reaches c s x.sensed := by
  unfold State.sensed
  split
  · split
    · exact h
    · next e => exact State.tryEndStart_reaches (State.setSensed_reaches h (.inr (.inl e))) (.inl hc)
    · next e => exact State.setSensed_reaches h (.inr (.inr e))
    · exact State.answer_reaches (State.setSensed_reaches (State.leaveJammed_reaches h) (.inl x.leaveJammed_relayFault)) _ _
  · exact h

/-! ### Metrology -/

theorem stuckAfter_le (n : Nat) (b : Bool) : stuckAfter n b ≤ 16 := by
  unfold stuckAfter
  split <;> omega

theorem length_lastN_le {α : Type} (n : Nat) (l : List α) : (lastN n l).length ≤ n := by
  rw [lastN, List.length_drop]
  omega

/-- What a block leaves is in range. -/
theorem registerBlock_inRange (cal : CalSettings) (m : MeasureSettings) (inp : BlockInputs) (acc : Accumulators)
    (counts : List Nat) (samples : List SampleSet) (hc : counts.length = 7) :
    (registerBlock cal m inp acc counts (blockResult samples)).acc.inRange ∧
      (registerBlock cal m inp acc counts (blockResult samples)).stuck.length = 7 ∧
      ∀ n ∈ (registerBlock cal m inp acc counts (blockResult samples)).stuck, n ≤ 16 := by
  refine ⟨⟨⟨Nat.mod_lt _ (by simp), Nat.mod_lt _ (by simp), Nat.mod_lt _ (by simp)⟩, Nat.mod_lt _ (by simp),
    ⟨Nat.mod_lt _ (by simp), Nat.mod_lt _ (by simp), Nat.mod_lt _ (by simp)⟩, Nat.mod_lt _ (by simp)⟩, ?_, ?_⟩
  · simp [registerBlock, blockResult, hc]
  · intro n hn
    obtain ⟨k, hk, rfl⟩ := List.mem_iff_getElem.1 hn
    simp only [registerBlock, List.getElem_zipWith]
    exact stuckAfter_le _ _

theorem State.judgeStuck_reaches (h : State.Reaches c s x) (a b : List Nat) : State.Reaches c s (x.judgeStuck a b) := by
  unfold State.judgeStuck
  with_reducible repeat' first | exact h | apply State.raiseFault_reaches | apply State.endFault_reaches | split

theorem State.acctTakes_reaches (h : State.Reaches c s x) (r : Registered) : State.Reaches c s (x.acctTakes r) := by
  unfold State.acctTakes
  dsimp only
  with_reducible repeat' first | exact h | apply State.Reaches.onAcct | split

theorem State.trip_reaches (h : State.Reaches c s x) : State.Reaches c s x.trip :=
  State.request_reaches_of_isPlain (State.handHold_reaches (h.onSup _ id) _ _) rfl

theorem State.superviseBlock_reaches (h : State.Reaches c s x) (w : SwitchState) (n : Nat) :
    State.Reaches c s (x.superviseBlock w n) := by
  unfold State.superviseBlock
  split
  · split
    · exact State.trip_reaches h
    · exact h.onSup _ id
  · exact h.onSup _ id

theorem State.register_reaches (h : State.Reaches c s x) (l : List SampleSet) (mag : Bool) :
    State.Reaches c s (x.register (blockResult l) mag) := by
  refine State.superviseBlock_reaches (State.tamperTakes_reaches (State.acctTakes_reaches (State.judgeStuck_reaches
    (h.onReg _ ⟨fun _ hx => ?_, fun _ => length_lastN_le _ _⟩) _ _) _) _) _ _
  exact registerBlock_inRange _ _ _ _ _ l hx.2.1

theorem State.blockDone_reaches (h : State.Reaches c s x) (l : List SampleSet) (mag : Bool) :
    State.Reaches c s (x.blockDone l mag) := by
  unfold State.blockDone
  split
  · exact State.register_reaches h l mag
  · exact h

theorem residueWritten_reaches (h : State.Reaches c s x) (w : Write) : State.Reaches c s (residueWritten w x) := by
  unfold residueWritten
  split
  · exact h.onReg _ ⟨fun _ => id, id⟩
  · split
    · exact State.answer_reaches h _ _
    · exact h
  · exact h

/-! ### The link -/

theorem State.endSilence_reaches (h : State.Reaches c s x) : State.Reaches c s x.endSilence := by
  unfold State.endSilence
  split
  · exact State.latchEnd_reaches (h.onTam _ (.of_eq rfl rfl rfl rfl)) rfl
  · exact h

theorem Link.handle_counts (l : Link) (k : Byte) (p : List Byte) :
    (l.handle k p).gapErrors = l.gapErrors ∧ (l.handle k p).crcErrors = l.crcErrors ∧
      (l.handle k p).formatErrors = l.formatErrors ∧ (l.handle k p).notices = l.notices := by
  unfold Link.handle
  (repeat' split) <;> simp

theorem State.validFrame_reaches (h : State.Reaches c s x) (k : Byte) (p : List Byte) : State.Reaches c s (x.validFrame k p) := by
  refine (State.endSilence_reaches (State.restartSilence_reaches h)).onLink _ ?_
  obtain ⟨hg, hc, hf, hn⟩ := Link.handle_counts (x.restartSilence.endSilence).link k p
  exact .of_eq hg hc hf hn

/-- A line error that is counted. -/
theorem State.onLink_counts_reaches (h : State.Reaches c s x) {f : Link → Link}
    (hf : f = Link.countFormat ∨ f = Link.countCrc ∨ f = Link.countGap) : State.Reaches c s (x.onLink f) := by
  rcases hf with rfl | rfl | rfl
  · exact h.onLink _ ⟨⟨.inl rfl, .inl rfl, .inr (saturate_le _ _)⟩, .inl rfl⟩
  · exact h.onLink _ ⟨⟨.inl rfl, .inr (saturate_le _ _), .inl rfl⟩, .inl rfl⟩
  · exact h.onLink _ ⟨⟨.inr (saturate_le _ _), .inl rfl, .inl rfl⟩, .inl rfl⟩

theorem State.frameDone_reaches (h : State.Reaches c s x) (l : List Byte) : State.Reaches c s (x.frameDone l) := by
  unfold State.frameDone
  dsimp only
  split
  · exact State.validFrame_reaches (h.onLink _ (.of_eq rfl rfl rfl rfl)) _ _
  · exact State.onLink_counts_reaches h (by simp)

theorem State.takeByte_reaches (h : State.Reaches c s x) (b : RxByte) : State.Reaches c s (x.takeByte b) := by
  unfold State.takeByte
  split
  · exact h
  · exact h
  · split
    · exact h.onLink _ (.of_eq rfl rfl rfl rfl)
    · exact h
  · split
    · exact State.onLink_counts_reaches h (by simp)
    · exact h.onLink _ (.of_eq rfl rfl rfl rfl)
  · split
    · exact State.onLink_counts_reaches h (by simp)
    · split
      · exact State.frameDone_reaches h _
      · exact h.onLink _ (.of_eq rfl rfl rfl rfl)

theorem State.takeBytes_reaches (h : State.Reaches c s x) (l : List RxByte) : State.Reaches c s (l.foldl State.takeByte x) := by
  induction l generalizing x with
  | nil => exact h
  | cons b l ih => exact ih (State.takeByte_reaches h b)

theorem State.takeFrame_reaches (h : State.Reaches c s x) (l : List RxByte) : State.Reaches c s (x.takeFrame l) := by
  unfold State.takeFrame
  split
  · exact State.takeBytes_reaches h l
  · exact h

theorem State.gapSeen_reaches (h : State.Reaches c s x) (b : RxByte) : State.Reaches c s (x.gapSeen b) := by
  unfold State.gapSeen
  split
  · exact State.takeByte_reaches (State.onLink_counts_reaches h (by simp)) b
  · exact h

theorem State.breakSeen_reaches (h : State.Reaches c s x) : State.Reaches c s x.breakSeen := by
  unfold State.breakSeen
  split
  · exact h.onLink _ (.of_eq rfl rfl rfl rfl)
  · exact h

theorem State.lineHigh_reaches (h : State.Reaches c s x) : State.Reaches c s x.lineHigh := by
  unfold State.lineHigh
  split
  · exact h.onLink _ (.of_eq rfl rfl rfl rfl)
  · exact h

theorem State.onRequest_reaches (k : Byte) (p : List Byte) {f : State → State}
    (hf : ∀ x, State.Reaches c s x → State.Reaches c s (f x)) : State.Reaches c s (s.onRequest k p f) :=
  s.onRequest_induct k p f .refl (fun h => State.validFrame_reaches h k p) hf

theorem State.transmit_reaches (hc : c = .transmitFrame) : State.Reaches c s s.transmit := by
  unfold State.transmit
  split
  · exact .refl
  · split
    · exact State.Reaches.refl.onLink _ (.of_eq rfl rfl rfl rfl)
    · split
      · exact State.Reaches.refl.onLink _ (.of_eq rfl rfl rfl rfl)
      · split
        · exact (State.Reaches.refl.onLink _ ⟨⟨.inl rfl, .inl rfl, .inl rfl⟩, .inr (.inr ⟨hc, rfl, _, rfl⟩)⟩).useFree _
        · exact .refl

theorem State.awaitRestart_reaches (h : State.Reaches c s x) : State.Reaches c s x.awaitRestart :=
  h.onBackup _ ⟨rfl, rfl, id, by simp⟩

theorem State.sent_reaches (h : State.Reaches c s x) : State.Reaches c s x.sent := by
  unfold State.sent
  dsimp only
  split
  · exact h
  · split
    · exact h
    · split
      · exact State.awaitRestart_reaches (h.onLink _ (.of_eq rfl rfl rfl rfl))
      · exact h.onLink _ (.of_eq rfl rfl rfl rfl)
    · split
      · exact State.awaitRestart_reaches (h.onLink _ (.of_eq rfl rfl rfl rfl))
      · exact h.onLink _ (.of_eq rfl rfl rfl rfl)
    · exact h.onLink _ (.of_eq rfl rfl rfl rfl)

theorem State.silenceExpires_reaches (h : State.Reaches c s x) : State.Reaches c s x.silenceExpires := by
  have h1 := h.onLink (fun l => { l with silenceRunning := false }) (.of_eq rfl rfl rfl rfl)
  unfold State.silenceExpires
  dsimp only
  split
  · split
    · exact h1
    · exact State.latchOnset_reaches (h1.onTam _ (.of_eq rfl rfl rfl rfl)) rfl _ _
  · exact h

theorem State.requestResidue_reaches (h : State.Reaches c s x) (v r : Bool) : State.Reaches c s (x.requestResidue v r) :=
  State.request_reaches_of_isPlain (h.onStore _ (.drop _)) rfl

theorem State.examineRestart_reaches (h : State.Reaches c s x) : State.Reaches c s x.examineRestart := by
  unfold State.examineRestart
  split
  · exact State.answer_reaches h _ _
  · exact State.requestResidue_reaches (State.await_reaches (h.onReg _ ⟨fun _ => id, id⟩)) _ _

/-! ### Power -/

theorem State.refuseDropped_reaches (h : State.Reaches c s x) (d : Option (InHand × Dropped)) :
    State.Reaches c s (x.refuseDropped d) := by
  unfold State.refuseDropped
  split
  · exact h
  · exact State.refuseCode_reaches h _ _ _
  · exact State.answer_reaches h _ _

theorem State.dropWaiting_reaches (h : State.Reaches c s x) : State.Reaches c s (x.onStore Store.dropWaiting) :=
  h.onStore _ (.drop _)

theorem State.completeSlots_reaches (h : State.Reaches c s x) : State.Reaches c s x.completeSlots := by
  unfold State.completeSlots
  split
  · exact State.request_reaches_of_isPlain (h.setTam (.slots _ Slot.keepsBounds_completed)) rfl
  · exact h

theorem State.releaseDropped_reaches (h : State.Reaches c s x) : State.Reaches c s x.releaseDropped := by
  unfold State.releaseDropped
  dsimp only
  split
  · exact State.releaseHeld_reaches h
  · exact h

theorem State.windowHoldup_reaches (h : State.Reaches c s x) (hc : c = .supplyFailing) : State.Reaches c s x.windowHoldup := by
  unfold State.windowHoldup
  split
  · exact State.endWindow_reaches h (.inr (.inr hc)) ‹_›
  · exact h

theorem State.respondHoldup_reaches (h : State.Reaches c s x) (hc : c = .supplyFailing) : State.Reaches c s x.respondHoldup := by
  have h1 : State.Reaches c s (((x.onStore Store.dropWaiting).dropQueue.onReg fun r => { r with blockOpen := false }).refuseDropped
      x.droppedRequest) :=
    State.refuseDropped_reaches ((((State.dropWaiting_reaches h).onAcct _).onCal _).onReg _ ⟨fun _ => id, id⟩) _
  have h2 := State.windowHoldup_reaches (State.completeSlots_reaches (State.releaseDropped_reaches (State.switchHoldup_reaches
    (State.requestResidue_reaches h1 true false)))) hc
  exact State.pend_reaches (h2.onLink _ (.of_eq rfl rfl rfl rfl)) _

theorem State.abandonStart_reaches (h : State.Reaches c s x) : State.Reaches c s x.abandonStart := by
  refine h.onBackup _ ⟨rfl, rfl, id, fun hr => ?_⟩
  dsimp only at hr
  split at hr
  · simp at hr
  · exact .inl hr

theorem State.failing_reaches (hc : c = .supplyFailing) : State.Reaches c s s.failing := by
  unfold State.failing
  split
  · next hm =>
    have h1 := State.Reaches.failing hc hm
    split
    · exact State.abandonStart_reaches (State.respondHoldup_reaches h1 hc)
    · exact State.dropWaiting_reaches h1
  · exact .refl

theorem State.requestAll_reaches (l : List Purpose) (hl : ∀ p ∈ l, p.isPlain = true) (h : State.Reaches c s x) :
    State.Reaches c s (l.foldl (fun y p => y.request p) x) := by
  induction l generalizing x with
  | nil => exact h
  | cons p l ih =>
    exact ih (fun q hq => hl q (by simp [hq])) (State.request_reaches_of_isPlain h (hl p (by simp)))

theorem State.deferredRequests_isPlain (x : State) : ∀ p ∈ x.deferredRequests, p.isPlain = true := by
  unfold State.deferredRequests
  simp only [List.forall_mem_append]
  exact ⟨⟨⟨whenDue_isPlain rfl, whenDue_isPlain rfl⟩, whenDue_isPlain rfl⟩, by simp [Purpose.isPlain]⟩

theorem State.deferAll_reaches (h : State.Reaches c s x) :
    State.Reaches c s (x.deferredRequests.foldl (fun y p => y.request p) x) :=
  State.requestAll_reaches _ x.deferredRequests_isPlain h

theorem State.deferredSwitch_reaches (h : State.Reaches c s x) : State.Reaches c s x.deferredSwitch := by
  unfold State.deferredSwitch
  split
  · exact State.request_reaches_of_isPlain (h.onSw _ (.keep _ rfl rfl rfl rfl rfl)) rfl
  · split
    · exact State.answer_reaches h _ _
    · exact h

theorem State.dip_reaches (h : State.Reaches c s x) : State.Reaches c s x.dip := by
  have h1 := State.requestResidue_reaches ((h.onBackup (fun b => { b with
    power := .mains, limitExpired := false, retained := b.retained.atDip }) ⟨rfl, rfl, by simp, .inl⟩).onReg
      (fun r => { r with blockOpen := true }) ⟨fun _ => id, id⟩) false false
  have h2 := h1.onSup (fun u => { u with supply := { u.supply with dips := saturate 65535 (u.supply.dips + 1) } }) id
  have h3 := State.request_reaches_of_isPlain (p := .supplyRecord)
    (State.deferAll_reaches h2) rfl
  exact State.pend_reaches (State.restartSilence_reaches (State.clockTests_reaches (State.deferredSwitch_reaches
    (State.switchDip_reaches h3)))) _

theorem State.supplyGood_reaches (h : State.Reaches c s x) : State.Reaches c s x.supplyGood := by
  have h1 := h.onBackup (fun b => { b with power := .mains }) ⟨rfl, rfl, by simp, .inl⟩
  unfold State.supplyGood
  with_reducible repeat' first | exact h | exact h1 | apply State.dip_reaches | split

theorem State.backupLost_reaches (h : State.Reaches c s x) : State.Reaches c s x.backupLost := by
  unfold State.backupLost
  split
  · exact h.onBackup _ (.of_eq rfl rfl rfl rfl)
  · exact h

theorem State.batteryCover_reaches (h : State.Reaches c s x) (which : Cover) (b : Bool) :
    State.Reaches c s (x.batteryCover which b) := by
  unfold State.batteryCover
  split
  · refine h.onBackup _ (.of_eq ?_ ?_ rfl rfl) <;> (dsimp only; split <;> rfl)
  · exact h

theorem State.resetReleased_reaches (h : State.Reaches c s x) : State.Reaches c s x.resetReleased := by
  unfold State.resetReleased
  split
  · refine h.onBackup _ ⟨rfl, rfl, id, fun hr => ?_⟩
    dsimp only at hr
    split at hr <;> simp at hr
  · exact h

/-! ### Reads, service, configuration and tariff -/

theorem State.examineStatus_reaches (h : State.Reaches c s x) (b : Byte) (hc : ∃ flag, c = .status flag)
    (hx : x.life.faults = s.life.faults) : State.Reaches c s (x.examineStatus b) := by
  unfold State.examineStatus
  dsimp only
  split
  · exact State.answer_reaches h _ _
  · exact (State.answer_reaches h _ _).onLife _ ⟨rfl, .inr ⟨hc, rfl, by simpa using hx⟩, .inl rfl⟩

theorem State.onStatus_reaches (b : Byte) (hc : ∃ flag, c = .status flag) :
    State.Reaches c s (s.onRequest 0x02 [b] (State.examineStatus b)) := by
  rcases s.onRequest_cases 0x02 [b] (State.examineStatus b) with e | e | ⟨-, e⟩ | ⟨-, -, -, e⟩ <;> rw [e]
  · exact .refl
  · exact State.validFrame_reaches .refl _ _
  · exact State.examineStatus_reaches .refl b hc rfl
  · exact State.examineStatus_reaches (State.validFrame_reaches .refl _ _) b hc (by simp)

/-- Examinations that only choose between replies. -/
theorem State.ite_answer_reaches (h : State.Reaches c s x) (p : Prop) [Decidable p] (a b : Status) (k l : List Byte) :
    State.Reaches c s (if p then x.answer a k else x.answer b l) := by
  split <;> exact State.answer_reaches h _ _

theorem State.examineLinkStatus_reaches (h : State.Reaches c s x) : State.Reaches c s x.examineLinkStatus :=
  (State.answer_reaches h _ _).onLink _ ⟨⟨.inr (Nat.zero_le _), .inr (Nat.zero_le _), .inr (Nat.zero_le _)⟩, .inl rfl⟩

theorem State.windowExpires_reaches (h : State.Reaches c s x) (hc : c = .windowTimerExpiry) : State.Reaches c s x.windowExpires := by
  unfold State.windowExpires
  split
  · next hw =>
    simp only [Bool.and_eq_true, beq_iff_eq] at hw
    exact State.endWindow_reaches h (.inl hc) hw.1.2
  · exact h

theorem State.examineCloseService_reaches (h : State.Reaches c s x) (hc : c = .closeService) :
    State.Reaches c s x.examineCloseService := by
  unfold State.examineCloseService
  split
  · next hw => exact State.endWindow_reaches (State.await_reaches h) (.inr (.inl hc)) hw
  · exact State.answer_reaches h _ _

theorem lifeWritten_reaches (h : State.Reaches c s x) (w : Write) : State.Reaches c s (lifeWritten w x) := by
  unfold lifeWritten
  split
  · exact State.answer_reaches h _ _
  · exact h

theorem switchWritten_reaches (h : State.Reaches c s x) (w : Write) : State.Reaches c s (switchWritten w x) := by
  unfold switchWritten
  split
  · exact State.answer_reaches h _ _
  · exact h

theorem Accumulators.inRange_zero : Accumulators.zero.inRange := by
  simp [Accumulators.inRange, Accumulators.zero, Tri.all3]

theorem State.takeCommission_reaches (h : State.Reaches c s x) : State.Reaches c s x.takeCommission := by
  have h1 := (h.onReg (fun r => { r with acc := .zero }) ⟨fun _ hx => ⟨Accumulators.inRange_zero, hx.2⟩, id⟩).onSup
    (fun u => { u with overCount := 0 }) id
  exact State.await_reaches (((State.clearDigits_reaches h1).onAcct _).onTam _ (.of_eq rfl rfl rfl rfl))

theorem State.examineCommission_reaches (h : State.Reaches c s x) : State.Reaches c s x.examineCommission := by
  unfold State.examineCommission
  with_reducible repeat' first | exact h | apply State.answer_reaches | apply State.takeCommission_reaches | split

theorem State.examineInstall_reaches (h : State.Reaches c s x) (n : BitVec 32) (k : BitVec 120) :
    State.Reaches c s (x.examineInstall n k) := by
  have h1 : State.Reaches c s (x.await.request (.identity n k)) := State.request_reaches_of_isPlain (State.await_reaches h) rfl
  unfold State.examineInstall
  with_reducible repeat' first | exact h | exact h1 | apply State.answer_reaches | split

theorem identityWritten_reaches (h : State.Reaches c s x) (w : Write) : State.Reaches c s (identityWritten w x) := by
  simp only [identityWritten]
  with_reducible repeat' first | exact h | apply State.answer_reaches | apply State.pend_reaches | split

theorem State.takeConfig_reaches (h : State.Reaches c s x) (v : SectionValue) : State.Reaches c s (x.takeConfig v) := by
  refine State.request_reaches (State.await_reaches h) ⟨by simp [Purpose.account], ?_, by simp⟩
  rintro a b hab
  injection hab with hv
  exact clampSection_account_inRange hv

theorem State.examineConfig_reaches (h : State.Reaches c s x) (b : Byte) (l : List Byte) :
    State.Reaches c s (x.examineConfig b l) := by
  unfold State.examineConfig
  with_reducible repeat' first | exact h | apply State.answer_reaches | apply State.takeConfig_reaches | split

theorem State.judgeArmed_reaches (h : State.Reaches c s x) :
    State.Reaches c s (if x.sw.state = .armed then x.judgeRest else x) := by
  split
  · exact State.judgeRest_reaches h
  · exact h

theorem State.applyConfig_reaches (h : State.Reaches c s x) (v : SectionValue) : State.Reaches c s (x.applyConfig v) := by
  unfold State.applyConfig
  split
  · exact State.creditTest_reaches h _
  · next w hasLimit =>
    have h1 : State.Reaches c s (if hasLimit = true then x.onSw fun w => { w with record := { w.record with codeLimit := none } }
        else x) := by
      split
      · exact h.onSw _ (.keep _ rfl rfl rfl rfl rfl)
      · exact h
    exact State.judgeArmed_reaches h1
  · exact State.restartSilence_reaches h
  · exact h

theorem configWritten_reaches (h : State.Reaches c s x) (w : Write) : State.Reaches c s (configWritten w x) := by
  simp only [configWritten]
  with_reducible repeat' first | exact h | apply State.answer_reaches | apply State.applyConfig_reaches | split

theorem State.takeTariff_reaches (h : State.Reaches c s x) (k n : Nat) (p : Pending) (st : Status) :
    State.Reaches c s (x.takeTariff k n p st) :=
  State.request_reaches_of_isPlain (State.await_reaches h) rfl

theorem State.tariffGuard_reaches (h : State.Reaches c s x) (body : State → List Byte) {act : State → State}
    (ha : State.Reaches c s (act x)) : State.Reaches c s (x.tariffGuard body act) := by
  unfold State.tariffGuard
  with_reducible repeat' first | exact h | exact ha | apply State.answer_reaches | split

theorem State.examineBegin_reaches (h : State.Reaches c s x) : State.Reaches c s x.examineBegin :=
  State.tariffGuard_reaches h _ (State.takeTariff_reaches h _ _ _ _)

theorem State.storeSection_reaches (h : State.Reaches c s x) (b : Byte) (l : List Byte) :
    State.Reaches c s (x.storeSection b l) := by
  unfold State.storeSection
  with_reducible repeat' first | exact h | apply State.answer_reaches | apply State.takeTariff_reaches | split

theorem State.examineSection_reaches (h : State.Reaches c s x) (b : Byte) (l : List Byte) :
    State.Reaches c s (x.examineSection b l) :=
  State.tariffGuard_reaches h _ (State.storeSection_reaches h b l)

theorem State.commitTariff_reaches (h : State.Reaches c s x) (t i : Nat) : State.Reaches c s (x.commitTariff t i) := by
  unfold State.commitTariff
  with_reducible repeat' first | exact h | apply State.answer_reaches | apply State.takeTariff_reaches | split

theorem State.examineCommit_reaches (h : State.Reaches c s x) (t i : Nat) : State.Reaches c s (x.examineCommit t i) :=
  State.tariffGuard_reaches h _ (State.commitTariff_reaches h t i)

theorem State.discardTariff_reaches (h : State.Reaches c s x) : State.Reaches c s x.discardTariff := by
  unfold State.discardTariff
  with_reducible repeat' first | exact h | apply State.answer_reaches | apply State.takeTariff_reaches | split

theorem State.examineDiscard_reaches (h : State.Reaches c s x) : State.Reaches c s x.examineDiscard :=
  State.tariffGuard_reaches h _ (State.discardTariff_reaches h)

theorem tariffWritten_reaches (h : State.Reaches c s x) (w : Write) : State.Reaches c s (tariffWritten w x) := by
  unfold tariffWritten
  split
  · refine State.activate_reaches ?_
    split
    · exact State.answer_reaches h _ _
    · exact h
  · exact h

theorem otherWritten_reaches (h : State.Reaches c s x) (w : Write) : State.Reaches c s (otherWritten w x) := by
  unfold otherWritten
  split
  · exact State.compareDay_reaches (h.onCal _)
  · exact h

/-! ### Inputs and the slow scan -/

theorem State.setCover_reaches (h : State.Reaches c s x) (which : Cover) (b : Bool) : State.Reaches c s (x.setCover which b) := by
  cases which <;> exact h.onTam _ (.of_eq rfl rfl rfl rfl)

theorem State.coverOpens_reaches (h : State.Reaches c s x) (which : Cover) : State.Reaches c s (x.coverOpens which) := by
  unfold State.coverOpens
  split
  · exact State.coverOnset_reaches (State.setCover_reaches h which true) which
  · exact h

theorem State.coverCloses_reaches (h : State.Reaches c s x) (which : Cover) : State.Reaches c s (x.coverCloses which) := by
  unfold State.coverCloses
  split
  · exact State.latchEnd_reaches (State.setCover_reaches h which false) (coverClass_latching which)
  · exact h

theorem State.magnetSeen_reaches (h : State.Reaches c s x) : State.Reaches c s x.magnetSeen := by
  unfold State.magnetSeen
  split
  · exact State.latchOnset_reaches (h.onTam _ (.of_eq rfl rfl rfl rfl)) rfl _ _
  · exact h

theorem State.magnetGone_reaches (h : State.Reaches c s x) : State.Reaches c s x.magnetGone := by
  unfold State.magnetGone
  split
  · exact State.latchEnd_reaches (h.onTam _ (.of_eq rfl rfl rfl rfl)) rfl
  · exact h

theorem State.scanSensors_reaches (h : State.Reaches c s x) (a b v : Nat) : State.Reaches c s (x.scanSensors a b v) := by
  have h1 := h.onSup (fun u => { u with
    sensor1 := u.sensor1.scan x.config.thermal.table a, sensor2 := u.sensor2.scan x.config.thermal.table b
    cell := some (cellVoltage v) }) id
  unfold State.scanSensors
  dsimp only
  split
  · exact State.raiseFault_reaches h1 _
  · exact h1

/-- OVERHEAT ends with no ACTIVE record of it. -/
theorem State.cooled_of_absent (h : State.Reaches c s x)
    (hn : ¬ (x.tam.evidence.log.any fun r => r.cls == .overheat && r.state == .active) = true) :
    State.Reaches c s (x.onSup fun u => { u with overheat := false }) := by
  have h1 := h.cooled none
  simp only [State.onTam, State.onSup, EvidenceRec.endActive_of_absent none hn] at h1
  exact h1

theorem State.judgeOverheat_reaches (h : State.Reaches c s x) : State.Reaches c s x.judgeOverheat := by
  unfold State.judgeOverheat
  dsimp only
  split
  · next hb =>
    simp only [Bool.and_eq_true, Bool.not_eq_true'] at hb
    have h1 := h.onSup (fun u => { u with
      overheat := heatJudged x.sup.overheat x.sup.goodTemps x.config.thermal.alarm x.config.thermal.hysteresis }) fun _ => hb.2
    unfold State.followOnset
    split
    · exact State.notifyEvidence_reaches (State.request_reaches_of_isPlain
        (h.follows _ _ h1 rfl rfl (.inl ⟨rfl, hb.1, hb.2⟩)) rfl) _
    · exact h1
  · split
    · next hb =>
      simp only [Bool.and_eq_true, Bool.not_eq_true'] at hb
      have h1 := h.cooled (x.onSup fun u => { u with overheat := false }).time
      rw [hb.2]
      unfold State.followEnd
      split
      · exact State.notifyEvidence_reaches (State.request_reaches_of_isPlain h1 rfl) _
      · next hn => exact State.cooled_of_absent h hn
    · next hn hm =>
      refine h.onSup _ fun hx => ?_
      simpa [hx] using hm

theorem State.judgeThermal_reaches (h : State.Reaches c s x) : State.Reaches c s x.judgeThermal := by
  have h1 := h.onSup (fun u => { u with
    thermal := heatJudged x.sup.thermal x.sup.goodTemps x.config.thermal.trip x.config.thermal.hysteresis
    scanned := true }) id
  unfold State.judgeThermal
  dsimp only
  split
  · exact State.handHold_reaches h1 _ _
  · exact h1

theorem State.judgeCell_reaches (h : State.Reaches c s x) : State.Reaches c s x.judgeCell := by
  have h1 := h.onSup (fun u => { u with backupLow := cellJudged x.sup.backupLow (x.sup.cell.getD 0) x.config.thermal.backup }) id
  unfold State.judgeCell
  dsimp only
  with_reducible repeat' first | exact h1 | apply State.raiseFault_reaches | apply State.endFault_reaches | split

theorem State.scan_reaches (h : State.Reaches c s x) (a b v : List Nat) : State.Reaches c s (x.scan a b v) := by
  unfold State.scan
  dsimp only
  split
  · exact State.judgeCell_reaches (State.judgeThermal_reaches (State.judgeOverheat_reaches (State.scanSensors_reaches h _ _ _)))
  · exact h

end Sys2Proof.Machine
end

section
/-! Every command is a run of changes, after which the switch-off that waited for the writes may follow. -/

namespace Sys2Proof.Machine

variable {c : Instr} {s t : State}

/-- A run of changes, and then perhaps the change to BATTERY. -/
def State.Ends (c : Instr) (s t : State) : Prop := ∃ x, State.Reaches c s x ∧ (t = x ∨ t = x.toBattery)

theorem State.Reaches.ends {x : State} (h : State.Reaches c s x) : State.Ends c s x := ⟨x, h, .inl rfl⟩

theorem State.Reaches.settle_ends {x : State} (h : State.Reaches c s x) : State.Ends c s x.settle :=
  ⟨x, h, x.settle_cases.imp id And.right⟩

theorem State.complete_ends {sel : Purpose → Bool} (effect : Write → State → State)
    (he : ∀ w rest, s.completes sel w rest → State.Reaches c s (effect w (s.stored w rest))) :
    State.Ends c s (s.complete sel effect) := by
  cases hf : takeFlight sel s.store.flight with
  | none =>
    rw [s.complete_none effect hf]
    exact State.Reaches.refl.ends
  | some r =>
    obtain ⟨w, rest⟩ := r
    rw [s.complete_eq effect hf]
    exact (State.pump_reaches (he w rest hf)).settle_ends

/-- A completion whose effect may follow on any run of changes. -/
theorem State.complete_ends_of_effect {sel : Purpose → Bool} (hc : completionOf c = some sel) {effect : Write → State → State}
    (he : ∀ w x, State.Reaches c s x → State.Reaches c s (effect w x)) : State.Ends c s (s.complete sel effect) :=
  State.complete_ends effect fun w rest hw => he w _ (.stored sel w rest hc hw)

theorem State.resetHeld_ends (hc : c = .resetAssert) : State.Ends c s s.resetHeld := by
  unfold State.resetHeld
  split
  · exact State.Reaches.refl.ends
  · exact (State.Reaches.held hc).settle_ends

theorem State.limitReached_ends : State.Ends c s s.limitReached := by
  unfold State.limitReached
  split
  · exact (State.Reaches.refl.onBackup _ (.of_eq rfl rfl rfl rfl)).settle_ends
  · exact State.Reaches.refl.ends

theorem State.domainLost_ends (hc : c = .mainDomainLoss) : State.Ends c s s.domainLost := by
  unfold State.domainLost
  split
  · exact ⟨_, State.Reaches.refl.onStore _ (.cut _ hc), .inr rfl⟩
  · exact State.Reaches.refl.ends

theorem State.examineReconnect_reaches {x : State} (h : State.Reaches c s x) (hc : c = .reconnect) (hsw : x.sw = s.sw)
    (hb : x.backup = s.backup) (hm : s.linkUp = true) : State.Reaches c s x.examineReconnect := by
  unfold State.examineReconnect
  split
  · exact State.answer_reaches h _ _
  · next ha =>
    have ha : x.sw.state = .armed := by simpa using ha
    split
    · exact State.answer_reaches h _ _
    · next hh =>
      have hmains : s.mains = true := by
        simp only [State.linkUp, Bool.and_eq_true, Bool.or_eq_true] at hm
        exact hm.2.resolve_right (by simpa [State.holdup, hb] using hh)
      exact State.answer_reaches (State.beginOperation_reaches h (.inr rfl) (State.mayLeave_of_armed ha)
        fun _ => .inr ⟨hsw ▸ ha, hmains, .inr hc⟩) _ _

/-- An end's arrival opens no record, and leaves the switch as it is. -/
theorem State.latchEnd_sw (s : State) (k : EvClass) : (s.latchEnd k).sw = s.sw := by
  simp only [State.latchEnd, State.arrive, State.takeArrival, State.recordEnd, State.editLog, Bool.false_eq_true, if_false]
  (repeat' split) <;> simp

/-- A frame's arrival leaves the switch as it is: it ends a condition and begins none. -/
theorem State.validFrame_sw (s : State) (k : Byte) (p : List Byte) : (s.validFrame k p).sw = s.sw := by
  unfold State.validFrame State.endSilence
  split
  · exact State.latchEnd_sw _ _
  · rfl

theorem State.onReconnect_reaches (hc : c = .reconnect) : State.Reaches c s (s.onRequest 0x13 [] State.examineReconnect) := by
  rcases s.onRequest_cases 0x13 [] State.examineReconnect with e | e | ⟨⟨hu, -⟩, e⟩ | ⟨hu, -, -, e⟩ <;> rw [e]
  · exact .refl
  · exact State.validFrame_reaches .refl _ _
  · exact State.examineReconnect_reaches .refl hc rfl rfl hu
  · exact State.examineReconnect_reaches (State.validFrame_reaches .refl _ _) hc (s.validFrame_sw _ _) (by simp) hu

theorem State.onSetTime_ends (hc : c = .setTimeWriteComplete) : State.Ends c s (s.complete Purpose.isSetTime setTimeWritten) := by
  have hk : completionOf c = some Purpose.isSetTime := by simp [hc, completionOf]
  refine State.complete_ends _ fun w rest hw => setTimeWritten_reaches (.stored _ w rest hk hw) hc w ?_
  intro v a b d e hp hr
  obtain ⟨-, hm, -⟩ := takeFlight_mem hw
  exact hr.2 w.purpose (by simp only [State.underWay, List.mem_append, List.mem_map]; exact .inl ⟨w, hm.mem_iff.2 (by simp), rfl⟩) v a b d e hp

/-- What a command does is a run of changes. -/
theorem exec_ends (h : exec c s = .next t) : State.Ends c s t := by
  have ans : ∀ (k : Byte) (p : List Byte) (st : State → Status) (b : State → List Byte),
      State.Ends c s (s.onRequest k p fun x => x.answer (st x) (b x)) := fun k p st b =>
    (State.onRequest_reaches k p fun x hx => State.answer_reaches hx _ _).ends
  have req : ∀ (k : Byte) (p : List Byte) (f : State → State), (∀ x, State.Reaches c s x → State.Reaches c s (f x)) →
      State.Ends c s (s.onRequest k p f) := fun k p f hf => (State.onRequest_reaches k p hf).ends
  cases c with
  | blockComplete l mag => exact Host.Outcome.next.inj h ▸ (State.blockDone_reaches .refl l mag).ends
  | chargeQuantum => exact Host.Outcome.next.inj h ▸ (State.chargeHead_reaches .refl).ends
  | pendingCountsWrite => exact Host.Outcome.next.inj h ▸ (State.writePending_reaches .refl).ends
  | accountWriteComplete =>
    exact Host.Outcome.next.inj h ▸ State.complete_ends_of_effect rfl fun w x hx => accountWritten_reaches hx w
  | takeDayBoundary => exact Host.Outcome.next.inj h ▸ (State.takeBoundary_reaches .refl).ends
  | dayBoundaryWriteComplete =>
    exact Host.Outcome.next.inj h ▸ State.complete_ends_of_effect rfl fun w x hx => boundaryWritten_reaches hx w
  | takeDayAdoption => exact Host.Outcome.next.inj h ▸ (State.takeAdoption_reaches .refl).ends
  | takeCodeEntry => exact Host.Outcome.next.inj h ▸ (State.takeCode_reaches .refl).ends
  | emergency => exact Host.Outcome.next.inj h ▸ req _ _ _ fun x hx => State.examineEmergency_reaches hx
  | takeEmergencyEntry => exact Host.Outcome.next.inj h ▸ (State.takeEmergency_reaches .refl).ends
  | takeEntryEntry => exact Host.Outcome.next.inj h ▸ (State.takeEntry_reaches .refl).ends
  | entryWriteComplete =>
    exact Host.Outcome.next.inj h ▸ State.complete_ends_of_effect rfl fun w x hx => entryWritten_reaches hx rfl w
  | clockSecond => exact Host.Outcome.next.inj h ▸ (State.secondPasses_reaches rfl).ends
  | tariffActivation => exact Host.Outcome.next.inj h ▸ (State.activate_reaches .refl).ends
  | tariffActivationComplete =>
    exact Host.Outcome.next.inj h ▸ State.complete_ends_of_effect rfl fun w x hx => activationWritten_reaches hx w
  | lockoutEnd => exact Host.Outcome.next.inj h ▸ (State.lockoutReached_reaches .refl).ends
  | lockoutEndWriteComplete =>
    exact Host.Outcome.next.inj h ▸ State.complete_ends_of_effect rfl fun w x hx => lockoutWritten_reaches hx w
  | backoffEnd => exact Host.Outcome.next.inj h ▸ (State.backoffReached_reaches .refl).ends
  | setTime value => exact Host.Outcome.next.inj h ▸ req _ _ _ fun x hx => State.examineSetTime_reaches hx _
  | setTimeWriteComplete => exact Host.Outcome.next.inj h ▸ State.onSetTime_ends rfl
  | codeKeyDigit key => exact Host.Outcome.next.inj h ▸ req _ _ _ fun x hx => State.examineKey_reaches hx _
  | codeKeyClear => exact Host.Outcome.next.inj h ▸ req _ _ _ fun x hx => State.examineKey_reaches hx _
  | codeKeyBack => exact Host.Outcome.next.inj h ▸ req _ _ _ fun x hx => State.examineKey_reaches hx _
  | codeKeyEnter => exact Host.Outcome.next.inj h ▸ req _ _ _ fun x hx => State.examineKey_reaches hx _
  | pauseTimerExpiry => exact Host.Outcome.next.inj h ▸ (State.pauseExpires_reaches .refl).ends
  | codeEnter digits => exact Host.Outcome.next.inj h ▸ req _ _ _ fun x hx => State.examineEnter_reaches hx _
  | countedFailureWriteComplete =>
    exact Host.Outcome.next.inj h ▸ State.complete_ends_of_effect rfl fun w x hx => countedWritten_reaches hx w
  | codeAcceptWriteComplete =>
    exact Host.Outcome.next.inj h ▸ State.complete_ends_of_effect rfl fun w x hx => acceptWritten_reaches hx rfl w
  | coilPulseStart => exact Host.Outcome.next.inj h ▸ (State.startPulse_reaches rfl).ends
  | blankingEnd => exact Host.Outcome.next.inj h ▸ (State.endBlanking_reaches .refl).ends
  | lsInputChange ls ms => exact Host.Outcome.next.inj h ▸ (State.lsChanges_reaches .refl ls ms).ends
  | attemptConfirmed => exact Host.Outcome.next.inj h ▸ (State.confirm_reaches .refl).ends
  | coilPulseEnd => exact Host.Outcome.next.inj h ▸ (State.endPulse_reaches .refl).ends
  | verificationWindowEnd => exact Host.Outcome.next.inj h ▸ (State.endWatch_reaches .refl).ends
  | buttonPress => exact Host.Outcome.next.inj h ▸ (State.press_reaches rfl).ends
  | reconnect => exact Host.Outcome.next.inj h ▸ (State.onReconnect_reaches rfl).ends
  | remoteHoldSet choice => exact Host.Outcome.next.inj h ▸ req _ _ _ fun x hx => State.examineRemote_reaches hx _
  | remoteHoldClear => exact Host.Outcome.next.inj h ▸ req _ _ _ fun x hx => State.examineRemote_reaches hx _
  | switchRecordWriteComplete =>
    exact Host.Outcome.next.inj h ▸ State.complete_ends_of_effect rfl fun w x hx => switchWritten_reaches hx w
  | relayRetry => exact Host.Outcome.next.inj h ▸ req _ _ _ fun x hx => State.examineRetry_reaches hx
  | positionSensingEnd => exact Host.Outcome.next.inj h ▸ (State.sensed_reaches .refl rfl).ends
  | bypassSuspensionEnd => exact Host.Outcome.next.inj h ▸ (State.endSuspension_reaches .refl).ends
  | slowScan a b v => exact Host.Outcome.next.inj h ▸ (State.scan_reaches .refl a b v).ends
  | coverOpenOnset which => exact Host.Outcome.next.inj h ▸ (State.coverOpens_reaches .refl which).ends
  | coverOpenEnd which => exact Host.Outcome.next.inj h ▸ (State.coverCloses_reaches .refl which).ends
  | magnetOnset => exact Host.Outcome.next.inj h ▸ (State.magnetSeen_reaches .refl).ends
  | magnetEnd => exact Host.Outcome.next.inj h ▸ (State.magnetGone_reaches .refl).ends
  | batteryCoverOpening which b => exact Host.Outcome.next.inj h ▸ (State.batteryCover_reaches .refl which b).ends
  | supplyFailing => exact Host.Outcome.next.inj h ▸ (State.failing_reaches rfl).ends
  | supplyGoodDip => exact Host.Outcome.next.inj h ▸ (State.supplyGood_reaches .refl).ends
  | holdupLimitExpiry => exact Host.Outcome.next.inj h ▸ State.limitReached_ends
  | mainDomainLoss => exact Host.Outcome.next.inj h ▸ State.domainLost_ends rfl
  | backupDomainLoss => exact Host.Outcome.next.inj h ▸ (State.backupLost_reaches .refl).ends
  | start found => exact Host.Outcome.next.inj h ▸ (State.startWith_reaches rfl).ends
  | startWriteComplete =>
    exact Host.Outcome.next.inj h ▸ State.complete_ends_of_effect rfl fun w x hx => startWritten_reaches hx rfl w
  | resetAssert => exact Host.Outcome.next.inj h ▸ State.resetHeld_ends rfl
  | resetRelease => exact Host.Outcome.next.inj h ▸ (State.resetReleased_reaches .refl).ends
  | residueWriteComplete =>
    exact Host.Outcome.next.inj h ▸ State.complete_ends_of_effect rfl fun w x hx => residueWritten_reaches hx w
  | durableWriteComplete record =>
    exact Host.Outcome.next.inj h ▸ State.complete_ends_of_effect rfl fun w x hx => otherWritten_reaches hx w
  | windowTimerExpiry => exact Host.Outcome.next.inj h ▸ (State.windowExpires_reaches .refl rfl).ends
  | closeService => exact Host.Outcome.next.inj h ▸ req _ _ _ fun x hx => State.examineCloseService_reaches hx rfl
  | lifeRecordWriteComplete =>
    exact Host.Outcome.next.inj h ▸ State.complete_ends_of_effect rfl fun w x hx => lifeWritten_reaches hx w
  | closeCommission => exact Host.Outcome.next.inj h ▸ req _ _ _ fun x hx => State.examineCommission_reaches hx
  | installKey serial key => exact Host.Outcome.next.inj h ▸ req _ _ _ fun x hx => State.examineInstall_reaches hx _ _
  | identityWriteComplete =>
    exact Host.Outcome.next.inj h ▸ State.complete_ends_of_effect rfl fun w x hx => identityWritten_reaches hx w
  | writeConfig sel contents => exact Host.Outcome.next.inj h ▸ req _ _ _ fun x hx => State.examineConfig_reaches hx _ _
  | configWriteComplete =>
    exact Host.Outcome.next.inj h ▸ State.complete_ends_of_effect rfl fun w x hx => configWritten_reaches hx w
  | tariffBegin => exact Host.Outcome.next.inj h ▸ req _ _ _ fun x hx => State.examineBegin_reaches hx
  | tariffSection sel contents => exact Host.Outcome.next.inj h ▸ req _ _ _ fun x hx => State.examineSection_reaches hx _ _
  | tariffCommit time ident => exact Host.Outcome.next.inj h ▸ req _ _ _ fun x hx => State.examineCommit_reaches hx _ _
  | tariffDiscard => exact Host.Outcome.next.inj h ▸ req _ _ _ fun x hx => State.examineDiscard_reaches hx
  | tariffWriteComplete =>
    exact Host.Outcome.next.inj h ▸ State.complete_ends_of_effect rfl fun w x hx => tariffWritten_reaches hx w
  | frame bytes => exact Host.Outcome.next.inj h ▸ (State.takeFrame_reaches .refl bytes).ends
  | gapError next => exact Host.Outcome.next.inj h ▸ (State.gapSeen_reaches .refl next).ends
  | lineBreak => exact Host.Outcome.next.inj h ▸ (State.breakSeen_reaches .refl).ends
  | transmitFrame => exact Host.Outcome.next.inj h ▸ (State.transmit_reaches rfl).ends
  | silenceTimerExpiry => exact Host.Outcome.next.inj h ▸ (State.silenceExpires_reaches .refl).ends
  | identify => exact Host.Outcome.next.inj h ▸ ans _ _ _ _
  | status b => exact Host.Outcome.next.inj h ▸ (State.onStatus_reaches b ⟨b, rfl⟩).ends
  | readInstant => exact Host.Outcome.next.inj h ▸ ans _ _ _ _
  | readEnergy => exact Host.Outcome.next.inj h ▸ ans _ _ _ _
  | readAccount => exact Host.Outcome.next.inj h ▸ ans _ _ _ _
  | readDays index => exact Host.Outcome.next.inj h ▸ req _ _ _ fun x hx => State.ite_answer_reaches hx _ _ _ _ _
  | readEvidence number => exact Host.Outcome.next.inj h ▸ ans _ _ _ _
  | readSnapshot slot half => exact Host.Outcome.next.inj h ▸ req _ _ _ fun x hx => State.ite_answer_reaches hx _ _ _ _ _
  | readCodeList => exact Host.Outcome.next.inj h ▸ ans _ _ _ _
  | readTariff which sel => exact Host.Outcome.next.inj h ▸ req _ _ _ fun x hx => State.ite_answer_reaches hx _ _ _ _ _
  | readConfig sel => exact Host.Outcome.next.inj h ▸ ans _ _ _ _
  | linkStatus => exact Host.Outcome.next.inj h ▸ req _ _ _ fun x hx => State.examineLinkStatus_reaches hx
  | echo payload => exact Host.Outcome.next.inj h ▸ ans _ _ _ _
  | restart => exact Host.Outcome.next.inj h ▸ req _ _ _ fun x hx => State.examineRestart_reaches hx
  | frameSent => exact Host.Outcome.next.inj h ▸ (State.sent_reaches .refl).ends
  | lineHighHunt => exact Host.Outcome.next.inj h ▸ (State.lineHigh_reaches .refl).ends

end Sys2Proof.Machine
end

section
/-! The durable store under every command: one write at a time, what starts in HOLDUP, what a write carries, when records change,
and the rules of the values that are stored. -/

namespace Sys2Proof.Machine

variable {c : Instr} {s t x : State}

/-! ### From commands to steps -/

/-- What every command keeps, whatever is queued behind it, every step keeps. -/
theorem step_keeps {P : State → Prop} (hq : ∀ s q, P s → P { s with pending := q })
    (he : ∀ c s t, P s → exec c s = .next t → P t) (s t : State) (hs : P s) (h : step s = .next t) : P t := by
  unfold step at h
  split at h
  · exact Host.Outcome.next.inj h ▸ hs
  · exact he _ _ _ (hq s _ hs) h

/-! ### The writes in flight (R161, R168) -/

theorem StoreStep.oneWrite {st : Store} (h : StoreStep c x st) (hx : x.oneWrite) : st.flight.length ≤ 1 := by
  cases h with
  | pump => exact x.pump_oneWrite hx
  | refill => simp
  | _ => exact hx

theorem State.completes_oneWrite {sel : Purpose → Bool} {w : Write} {rest : List Write} (h : s.completes sel w rest)
    (hs : s.oneWrite) : rest = [] := by
  obtain ⟨-, hp, -⟩ := takeFlight_mem h
  have h1 : s.store.flight.length ≤ 1 := hs
  rw [hp.length_eq] at h1
  simpa using h1

theorem State.Reaches.oneWrite (h : State.Reaches c s x) (hs : s.oneWrite) : x.oneWrite := by
  induction h with
  | onStore f _ st ih => exact st.oneWrite ih
  | stored sel w rest _ hw =>
    obtain rfl := State.completes_oneWrite hw hs
    simp [State.oneWrite, State.stored, State.onStore, Store.commit]
  | held | begun => simp [State.oneWrite, State.begun, State.loseWorking, State.onBackup, State.onStore, State.onLife]
  | refl | failing | ticked => exact hs
  | _ => assumption

/-- The writes in flight are old, or were started with what their purpose puts, from the records as they are; in HOLDUP only
permitted ones were. -/
def State.flightFrom (s x : State) : Prop :=
  ∀ w ∈ x.store.flight, w ∈ s.store.flight ∨
    ((∃ u : State, u.store.recs = x.store.recs ∧ w.puts = w.purpose.puts u) ∧
      (x.holdup = true → w.purpose.permittedInHoldup = true))

theorem StoreStep.flightFrom {st : Store} (h : StoreStep c x st) (hx : s.flightFrom x) :
    s.flightFrom { x with store := st } := by
  cases h with
  | pump =>
    rcases x.pump_spec with k | ⟨p, _, _, hp, k⟩
    · rwa [k]
    · intro w hw
      simp only [k, State.onStore, List.mem_singleton] at hw
      subst hw
      refine .inr ⟨⟨x, by simp [k, State.onStore], rfl⟩, fun hh => ?_⟩
      rcases hp with hm | ⟨-, hp⟩
      · exact absurd hh (by simp [State.holdup, State.mains] at hm ⊢; simp [hm])
      · exact hp
  | refill => intro w hw; simp at hw
  | _ => exact hx

theorem State.Reaches.flightFrom (h : State.Reaches c s x) : s.flightFrom x := by
  induction h with
  | onStore f _ st ih => exact st.flightFrom ih
  | onBackup f _ st ih =>
    refine fun w hw => (ih w hw).imp id (And.imp id fun hp hh => hp ?_)
    simp only [State.holdup, beq_iff_eq] at hh ⊢
    exact st.holdup hh
  | stored sel w rest _ hw => exact fun v hv => .inl ((takeFlight_mem hw).2.2.subset hv)
  | held | begun => intro w hw; simp [State.begun, State.loseWorking, State.onBackup, State.onStore, State.onLife] at hw
  | refl | failing | ticked => exact fun w hw => .inl hw
  | _ => assumption

/-- The change to BATTERY leaves nothing in flight. -/
theorem State.toBattery_flight (x : State) : x.toBattery.store.flight = [] := rfl

theorem State.toBattery_waiting (x : State) : x.toBattery.store.waiting = [] := rfl

theorem exec_flightFrom (h : exec c s = .next t) : s.flightFrom t := by
  obtain ⟨x, hx, rfl | rfl⟩ := exec_ends h
  · exact hx.flightFrom
  · intro w hw
    simp [State.toBattery_flight] at hw

theorem exec_oneWrite (h : exec c s = .next t) (hs : s.oneWrite) : t.oneWrite := by
  obtain ⟨x, hx, rfl | rfl⟩ := exec_ends h
  · exact hx.oneWrite hs
  · simp [State.oneWrite, State.toBattery_flight]

/-! ### The records change at completions, starts and the reset line (R184) -/

theorem StoreStep.recs {st : Store} (h : StoreStep c x st) : st.recs = x.store.recs := by
  cases h with
  | pump => exact x.pump_starts_if (Store.starts_refl _) |>.1
  | _ => rfl

theorem State.Reaches.recs (h : State.Reaches c s x) (hc : completionOf c = none) (hs : ∀ found, c ≠ .start found)
    (hr : c ≠ .resetAssert) : x.store.recs = s.store.recs := by
  induction h with
  | onStore f _ st ih => exact st.recs.trans ih
  | stored sel _ _ hk => simp [hc] at hk
  | held hk => exact absurd hk hr
  | begun _ found hk => exact absurd hk (hs found)
  | refl | failing | ticked => rfl
  | _ => assumption

/-! ### The values stored and carried -/

/-- The values of the twelve records. -/
def Records.values (r : Records) : List RecordValue :=
  [.config r.config, .identity r.identity, .life r.life, .account r.account, .code r.code, .days r.days, .tariff r.tariff,
    .evidence r.evidence, .snapshot r.snapshot, .switch r.switch, .supply r.supply, .residue r.residue]

/-- Every record as stored and every value that a write in flight carries is as P says. -/
def State.valuesHold (P : RecordValue → Prop) (s : State) : Prop := (∀ v ∈ s.store.recs.values, P v) ∧ ∀ v ∈ s.carried, P v

theorem Records.put_values {P : RecordValue → Prop} {r : Records} (hr : ∀ v ∈ r.values, P v) {w : RecordValue} (hw : P w) :
    ∀ v ∈ (r.put w).values, P v := by
  simp only [Records.values, List.forall_mem_cons] at hr ⊢
  cases w <;> simp_all [Records.put]

theorem Records.puts_values {P : RecordValue → Prop} {r : Records} (hr : ∀ v ∈ r.values, P v) {l : List RecordValue}
    (hl : ∀ v ∈ l, P v) : ∀ v ∈ (l.foldl Records.put r).values, P v := by
  induction l generalizing r with
  | nil => exact hr
  | cons w l ih =>
    simp only [List.forall_mem_cons] at hl
    exact ih (Records.put_values hr hl.1) hl.2

theorem State.stored_carried {sel : Purpose → Bool} {w : Write} {rest : List Write} (h : s.completes sel w rest) :
    (∀ v ∈ w.puts, v ∈ s.carried) ∧ ∀ v ∈ (s.stored w rest).carried, v ∈ s.carried := by
  obtain ⟨-, hp, -⟩ := takeFlight_mem h
  have hm : ∀ y ∈ w :: rest, ∀ v ∈ y.puts, v ∈ s.carried := fun y hy v hv =>
    List.mem_flatMap.2 ⟨y, hp.mem_iff.2 hy, hv⟩
  refine ⟨hm w (by simp), fun v hv => ?_⟩
  obtain ⟨y, hy, hv⟩ := List.mem_flatMap.1 hv
  exact hm y (by simpa using .inr hy) v hv

theorem State.valuesHold.stored {P : RecordValue → Prop} (hs : s.valuesHold P) {sel : Purpose → Bool} {w : Write}
    {rest : List Write} (h : s.completes sel w rest) : (s.stored w rest).valuesHold P := by
  obtain ⟨h1, h2⟩ := State.stored_carried h
  exact ⟨Records.puts_values hs.1 fun v hv => hs.2 v (h1 v hv), fun v hv => hs.2 v (h2 v hv)⟩

theorem State.absorb_recs (s : State) : s.absorb.store.recs = s.recordsAbsorbed := by
  rw [State.absorb_store]
  simp only [Store.completeAll, Store.commit_recs_foldl]
  rfl

theorem State.valuesHold.held {P : RecordValue → Prop} (hs : s.valuesHold P) :
    (s.absorb.loseWorking.onBackup fun b => { b with domain := .held }).valuesHold P := by
  refine ⟨?_, fun v hv => absurd hv (by simp [State.carried, State.loseWorking, State.onBackup])⟩
  change ∀ v ∈ s.absorb.store.recs.values, P v
  rw [State.absorb_recs]
  exact Records.puts_values hs.1 hs.2

/-- The shipped values of the records that a start reinitialises are as P says. -/
def shippedHold (P : RecordValue → Prop) : Prop :=
  P (.days .shipped) ∧ P (.tariff .shipped) ∧ P (.evidence .shipped) ∧ P (.snapshot freeSlots) ∧ P (.switch .shipped) ∧
    P (.supply .shipped)

theorem Records.reinit_values {P : RecordValue → Prop} (hp : shippedHold P) {r : Records} (hr : ∀ v ∈ r.values, P v)
    (l : List Record) : ∀ v ∈ (l.foldl Records.reinit r).values, P v := by
  induction l generalizing r with
  | nil => exact hr
  | cons k l ih =>
    refine ih ?_
    obtain ⟨h1, h2, h3, h4, h5, h6⟩ := hp
    simp only [Records.values, List.forall_mem_cons] at hr ⊢
    cases k <;> simp_all [Records.reinit]

theorem State.begun_recs (cause : StartCause) (found : StartReadings) (s : State) :
    ∃ l : List Record, (s.begun cause found).store.recs = l.foldl Records.reinit s.recordsFound := by
  rw [← s.absorbAtStart_spec.1]
  exact ⟨reinitRecords.filter (s.absorbAtStart.fails found), rfl⟩

theorem State.valuesHold.begun {P : RecordValue → Prop} (hs : s.valuesHold P) (hp : shippedHold P)
    (hw : ∀ w ∈ s.waitingPermitted, ∀ v ∈ w.puts, P v) (cause : StartCause) (found : StartReadings) :
    (s.begun cause found).valuesHold P := by
  refine ⟨?_, fun v hv => absurd hv (by simp [State.carried, State.begun, State.loseWorking, State.onBackup, State.onStore, State.onLife])⟩
  obtain ⟨l, e⟩ := s.begun_recs cause found
  rw [e]
  refine Records.reinit_values hp (Records.puts_values hs.1 fun v hv => ?_) l
  rcases List.mem_append.1 hv with hv | hv
  · exact hs.2 v hv
  · obtain ⟨w, hw', hv⟩ := List.mem_flatMap.1 hv
    exact hw w hw' v hv

/-- The writes that an abandoned start had waiting carry what their purposes put. -/
theorem State.waitingPermitted_puts {w : Write} (hw : w ∈ s.waitingPermitted) :
    w.purpose.permittedInHoldup = true ∧ w.puts = w.purpose.puts s := by
  unfold State.waitingPermitted at hw
  split at hw
  · obtain ⟨p, hp, rfl⟩ := List.mem_map.1 hw
    exact ⟨(List.mem_filter.1 hp).2, rfl⟩
  · simp at hw

theorem StoreStep.valuesHold {P : RecordValue → Prop} {st : Store} (h : StoreStep c x st) (hx : x.valuesHold P)
    (hp : ∀ p ∈ x.store.waiting, ∀ v ∈ p.puts x, P v) : State.valuesHold P { x with store := st } := by
  refine ⟨h.recs ▸ hx.1, ?_⟩
  cases h with
  | pump =>
    rcases x.pump_spec with k | ⟨p, _, hf, _, k⟩
    · rw [k]; exact hx.2
    · intro v hv
      simp only [k, State.carried, State.onStore, List.flatMap_cons, List.flatMap_nil, List.append_nil] at hv
      exact hp p (List.mem_of_find?_eq_some hf) v hv
  | refill => intro v hv; simp [State.carried] at hv
  | _ => exact hx.2

theorem State.valuesHold.toBattery {P : RecordValue → Prop} (hx : x.valuesHold P) : x.toBattery.valuesHold P :=
  ⟨hx.1, fun v hv => absurd hv (by simp [State.carried, State.toBattery_flight])⟩

/-- A rule of the stored values that whatever starts keeps is kept. -/
theorem State.Reaches.valuesHold {P : RecordValue → Prop}
    (hp : ∀ x : State, x.valuesHold P → ∀ p : Purpose, ∀ v ∈ p.puts x, P v) (hsh : shippedHold P) (hs : s.valuesHold P)
    (h : State.Reaches c s x) : x.valuesHold P := by
  induction h with
  | onStore f hx st ih => exact st.valuesHold ih fun p _ => hp _ ih p
  | stored sel w rest _ hw => exact hs.stored hw
  | held => exact hs.held
  | begun cause found =>
    exact hs.begun hsh (fun w hw v hv => hp s hs w.purpose v ((State.waitingPermitted_puts hw).2 ▸ hv)) cause found
  | refl | failing | ticked => exact hs
  | _ => assumption

theorem exec_valuesHold {P : RecordValue → Prop} (hp : ∀ x : State, x.valuesHold P → ∀ p : Purpose, ∀ v ∈ p.puts x, P v)
    (hsh : shippedHold P) (hs : s.valuesHold P) (h : exec c s = .next t) : t.valuesHold P := by
  obtain ⟨x, hx, rfl | rfl⟩ := exec_ends h
  · exact hx.valuesHold hp hsh hs
  · exact (hx.valuesHold hp hsh hs).toBattery

end Sys2Proof.Machine
end

section
/-! The obligations about the durable store: O3, O5 and O6, and the rules of the stored records, O7, O8 and O9. -/

namespace Sys2Proof.Machine

variable {c : Instr} {s t x : State}

/-! ### The life record, the code record and the identity record (R178, R87, R179) -/

/-- The rule of a life record (R178). -/
def RecordValue.lifeSound : RecordValue → Prop
  | .life v => v.state ≠ .halted
  | _ => True

theorem State.lifeRecordSound_iff (s : State) : s.lifeRecordSound ↔ s.valuesHold RecordValue.lifeSound := by
  simp only [State.lifeRecordSound, State.valuesHold, Records.values, List.forall_mem_cons, RecordValue.lifeSound]
  refine ⟨fun h => ⟨by simp [h.1], fun v hv => ?_⟩, fun h => ⟨h.1.2.2.1, fun v hv => h.2 _ hv⟩⟩
  cases v with
  | life v => exact h.2 v hv
  | _ => trivial

theorem Purpose.puts_lifeSound {x : State} (hx : x.valuesHold RecordValue.lifeSound) (p : Purpose) :
    ∀ v ∈ p.puts x, v.lifeSound := by
  have hl : x.lifeRecord.state ≠ .halted := by
    have := (x.lifeRecordSound_iff.2 hx).1
    unfold State.lifeRecord
    split
    · dsimp only
      split
      · simp
      · exact this
    · next h => exact fun e => h e
  unfold Purpose.puts
  (repeat' split) <;> simp_all [RecordValue.lifeSound]

theorem lifeSound_shipped : shippedHold RecordValue.lifeSound := by simp [shippedHold, RecordValue.lifeSound]

/-- The rule of a code record (R87, R89, R90). -/
def RecordValue.codeOrdered : RecordValue → Prop
  | .code v => v.ordered
  | _ => True

theorem State.codeRecordOrdered_iff (s : State) : s.codeRecordOrdered ↔ s.valuesHold RecordValue.codeOrdered := by
  simp only [State.codeRecordOrdered, State.valuesHold, Records.values, List.forall_mem_cons, RecordValue.codeOrdered]
  refine ⟨fun h => ⟨by simp [h.1], fun v hv => ?_⟩, fun h => ⟨h.1.2.2.2.2.1, fun v hv => h.2 _ hv⟩⟩
  cases v with
  | code v => exact h.2 v hv
  | _ => trivial

theorem insertAscending_of_mem {n : Nat} {l : List Nat} (h : l.Pairwise (· < ·)) (hn : n ∈ l) : insertAscending n l = l := by
  induction l with
  | nil => simp at hn
  | cons m rest ih =>
    obtain ⟨hm, hr⟩ := List.pairwise_cons.1 h
    unfold insertAscending
    rcases List.mem_cons.1 hn with rfl | hn
    · simp
    · have := hm n hn
      rw [if_neg (by omega), if_neg (by omega), ih hr hn]

theorem CodeRec.ordered.accept {r : CodeRec} (h : r.ordered) (sequence : Nat) : (r.accept sequence).ordered := by
  obtain ⟨ha, hl, -⟩ := h
  have hi : (insertAscending sequence r.accepted).Pairwise (· < ·) ∧ (insertAscending sequence r.accepted).length ≤ 33 := by
    by_cases hn : sequence ∈ r.accepted
    · rw [insertAscending_of_mem ha hn]
      exact ⟨ha, hl.trans (by simp)⟩
    · obtain ⟨h1, h2⟩ := insertAscending_spec sequence r.accepted ha hn
      refine ⟨h1, ?_⟩
      rw [h2.length_eq, List.length_cons]
      omega
  unfold CodeRec.accept acceptSequence
  dsimp only
  refine ⟨?_, ?_, Nat.zero_le _, Nat.zero_le _, by simp⟩
  · split
    · exact hi.1.sublist (List.tail_sublist _)
    · exact hi.1
  · split
    · simp only [List.length_tail]
      omega
    · next hn => exact Nat.le_of_not_lt hn

theorem CodeRec.ordered.countFailure {r : CodeRec} (h : r.ordered) (clock : Nat) : (r.countFailure clock).ordered := by
  obtain ⟨ha, hl, hf, hv, -⟩ := h
  unfold CodeRec.countFailure
  dsimp only
  split
  · exact ⟨ha, hl, by simp only; omega, hv, by simp only; omega⟩
  · exact ⟨ha, hl, by simp, Nat.min_le_left _ _, by simp⟩

theorem CodeRec.ordered.withLockEnd {r : CodeRec} (h : r.ordered) {e : Option Nat}
    (he : r.lockEnd.isSome = true → e.isSome = true) : CodeRec.ordered { r with lockEnd := e } := by
  obtain ⟨ha, hl, hf, hv, h5⟩ := h
  exact ⟨ha, hl, hf, hv, fun hk => he (h5 hk)⟩

theorem CodeRec.ordered.endLockout {r : CodeRec} (h : r.ordered) : r.endLockout.ordered := by
  obtain ⟨ha, hl, hf, hv, -⟩ := h
  exact ⟨ha, hl, Nat.zero_le _, hv, by simp [CodeRec.endLockout]⟩

theorem CodeRec.ordered_shipped : CodeRec.shipped.ordered := by simp [CodeRec.ordered, CodeRec.shipped]

theorem Purpose.puts_codeOrdered {x : State} (hx : x.valuesHold RecordValue.codeOrdered) (p : Purpose) :
    ∀ v ∈ p.puts x, v.codeOrdered := by
  have hc : x.store.recs.code.ordered := (x.codeRecordOrdered_iff.2 hx).1
  have hcarry : ∀ n, CodeRec.ordered { x.store.recs.code with lockEnd := x.store.recs.code.lockEnd.map fun _ => n } := fun n =>
    hc.withLockEnd (by simp)
  have hrearm : ∀ n, CodeRec.ordered { x.store.recs.code with lockEnd := some n } := fun n => hc.withLockEnd (by simp)
  unfold Purpose.puts
  (repeat' split) <;> simp [RecordValue.codeOrdered, hc.accept, hc.countFailure, hc.endLockout, CodeRec.ordered_shipped, hcarry,
    hrearm]

theorem codeOrdered_shipped : shippedHold RecordValue.codeOrdered := by simp [shippedHold, RecordValue.codeOrdered]

/-- The rule of an identity record that a write carries (R179), and of a stored one where the flag was set before. -/
def RecordValue.keyInstalled : RecordValue → Prop
  | .identity v => v.installed = true
  | _ => True

theorem Purpose.puts_keyInstalled (x : State) (p : Purpose) : ∀ v ∈ p.puts x, v.keyInstalled := by
  unfold Purpose.puts
  (repeat' split) <;> simp [RecordValue.keyInstalled]

theorem keyInstalled_shipped : shippedHold RecordValue.keyInstalled := by simp [shippedHold, RecordValue.keyInstalled]

theorem State.identitySound_iff (s : State) : s.identitySound ↔ ∀ v ∈ s.carried, v.keyInstalled := by
  refine ⟨fun h v hv => ?_, fun h v hv => h _ hv⟩
  cases v with
  | identity v => exact h v hv
  | _ => trivial

theorem State.keyInstalled_iff (s : State) :
    s.valuesHold RecordValue.keyInstalled ↔ s.store.recs.identity.installed = true ∧ s.identitySound := by
  rw [State.identitySound_iff]
  simp [State.valuesHold, Records.values, RecordValue.keyInstalled]

theorem State.identitySound_of_flight {s x : State} (hs : s.identitySound) (h : s.flightFrom x) : x.identitySound := by
  intro v hv
  obtain ⟨w, hw, hv⟩ := List.mem_flatMap.1 hv
  rcases h w hw with h | ⟨⟨u, -, hp⟩, -⟩
  · exact hs v (List.mem_flatMap.2 ⟨w, h, hv⟩)
  · exact Purpose.puts_keyInstalled u w.purpose _ (hp ▸ hv)

/-! ### Registration (R4, R5, R8, R13, R14, R19, R25) -/

/-- The rule of a residue record. -/
def RecordValue.residueInRange : RecordValue → Prop
  | .residue v => v.acc.inRange
  | _ => True

theorem State.registrationInRange_iff (s : State) :
    s.registrationInRange ↔ s.valuesHold RecordValue.residueInRange ∧ s.reg.inRange ∧ s.reg.trace.length ≤ 8 := by
  simp only [State.registrationInRange, State.valuesHold, Records.values, List.forall_mem_cons, RecordValue.residueInRange,
    Registration.inRange]
  constructor
  · rintro ⟨h1, h2, h3, h4, h5, h6⟩
    refine ⟨⟨by simp [h2], fun v hv => ?_⟩, ⟨h1, h4, h5⟩, h6⟩
    cases v with
    | residue v => exact h3 v hv
    | _ => trivial
  · rintro ⟨⟨h2, h3⟩, ⟨h1, h4, h5⟩, h6⟩
    exact ⟨h1, by simpa using h2, fun v hv => h3 _ hv, h4, h5, h6⟩

theorem Purpose.puts_residueInRange (hx : x.reg.inRange) (p : Purpose) : ∀ v ∈ p.puts x, v.residueInRange := by
  unfold Purpose.puts
  (repeat' split) <;> simp [RecordValue.residueInRange, hx.1]

theorem residueInRange_shipped : shippedHold RecordValue.residueInRange := by simp [shippedHold, RecordValue.residueInRange]

theorem Registration.inRange_begin : Registration.begin.inRange ∧ Registration.begin.trace.length ≤ 8 :=
  ⟨⟨Accumulators.inRange_zero, rfl, by simp [Registration.begin]⟩, by simp [Registration.begin]⟩

theorem State.Reaches.registrationInRange (h : State.Reaches c s x) (hs : s.registrationInRange) : x.registrationInRange := by
  rw [State.registrationInRange_iff] at hs ⊢
  induction h with
  | onStore f _ st ih => exact ⟨st.valuesHold ih.1 fun p _ => Purpose.puts_residueInRange ih.2.1 p, ih.2⟩
  | onReg f _ st ih => exact ⟨ih.1, st.inRange (by simpa [RecordValue.residueInRange, Records.values] using ih.1.1) ih.2.1,
      st.trace ih.2.2⟩
  | stored sel w rest _ hw => exact ⟨hs.1.stored hw, hs.2⟩
  | held => exact ⟨hs.1.held, Registration.inRange_begin⟩
  | begun cause found =>
    exact ⟨hs.1.begun residueInRange_shipped (fun w hw v hv =>
      Purpose.puts_residueInRange hs.2.1 w.purpose v ((State.waitingPermitted_puts hw).2 ▸ hv)) cause found,
      Registration.inRange_begin⟩
  | refl | failing | ticked => exact hs
  | _ => assumption

theorem exec_registrationInRange (h : exec c s = .next t) (hs : s.registrationInRange) : t.registrationInRange := by
  obtain ⟨x, hx, rfl | rfl⟩ := exec_ends h
  · exact hx.registrationInRange hs
  · have hk := hx.registrationInRange hs
    rw [State.registrationInRange_iff] at hk ⊢
    exact ⟨hk.1.toBattery, Registration.inRange_begin⟩

/-! ### The account record (R49) -/

/-- The rules of an account record and of the ACCOUNT settings. -/
def RecordValue.accountInRange : RecordValue → Prop
  | .account v => v.inRange
  | .config v => v.account.inRange
  | _ => True

/-- The rule of a write that is asked for: what it carries of the account is in range. -/
def Purpose.accountInRange (p : Purpose) : Prop :=
  (∀ a, p.account = some a → a.inRange) ∧ ∀ a b, p = .config (.account a) b → a.inRange

theorem State.accountInRange_iff (s : State) :
    s.accountInRange ↔ s.valuesHold RecordValue.accountInRange ∧ ∀ p ∈ s.underWay, p.accountInRange := by
  simp only [State.accountInRange, State.valuesHold, Records.values, List.forall_mem_cons, RecordValue.accountInRange,
    Purpose.accountInRange]
  constructor
  · rintro ⟨h1, h2, h3, h4, h5, h6⟩
    refine ⟨⟨by simp [h1, h4], fun v hv => ?_⟩, fun p hp => ⟨h3 p hp, h6 p hp⟩⟩
    cases v with
    | account v => exact h2 v hv
    | config v => exact h5 v hv
    | _ => trivial
  · rintro ⟨⟨h1, h2⟩, h3⟩
    simp only [true_and, List.not_mem_nil, false_implies, implies_true, and_true] at h1
    exact ⟨h1.2, fun v hv => h2 _ hv, fun p hp => (h3 p hp).1, h1.1, fun v hv => h2 _ hv, fun p hp => (h3 p hp).2⟩

theorem ConfigRec.put_account_inRange {r : ConfigRec} (hr : r.account.inRange) {v : SectionValue}
    (hv : ∀ a, v = .account a → a.inRange) : (r.put v).account.inRange := by
  unfold ConfigRec.put
  dsimp only
  split
  case h_3 x => exact hv x rfl
  all_goals exact hr

theorem Purpose.puts_accountInRange (hx : x.valuesHold RecordValue.accountInRange) {p : Purpose} (hp : p.accountInRange) :
    ∀ v ∈ p.puts x, v.accountInRange := by
  have hc : x.store.recs.config.account.inRange := by
    simpa [RecordValue.accountInRange] using hx.1 (.config x.store.recs.config) (by simp [Records.values])
  obtain ⟨h1, h2⟩ := hp
  unfold Purpose.puts
  split <;> simp only [List.forall_mem_cons, List.not_mem_nil, false_implies, implies_true, and_true,
    RecordValue.accountInRange]
  case h_1 | h_2 | h_3 | h_5 => exact h1 _ rfl
  case h_6 => exact AccountRec.inRange_atEntry (State.config_account_inRange hc)
  case h_17 => (repeat' split) <;> simp
  case h_20 => exact ConfigRec.put_account_inRange hc (by simp)
  case h_21 => exact ConfigRec.put_account_inRange hc fun a ha => h2 a _ (by rw [ha])

theorem accountInRange_shipped : shippedHold RecordValue.accountInRange := by simp [shippedHold, RecordValue.accountInRange]

theorem Purpose.fits.accountInRange {p : Purpose} (h : p.fits x) (hx : x.valuesHold RecordValue.accountInRange) :
    p.accountInRange := by
  have ha : x.store.recs.account.inRange := hx.1 (.account x.store.recs.account) (by simp [Records.values])
  have hc : x.store.recs.config.account.inRange := hx.1 (.config x.store.recs.config) (by simp [Records.values])
  exact ⟨fun a e => h.1 a e ha (State.config_account_inRange hc), h.2.1⟩

theorem Purpose.accountInRange_of_isPlain {p : Purpose} (h : p.isPlain = true) : p.accountInRange := by
  cases p <;> simp [Purpose.accountInRange, Purpose.isPlain, Purpose.account] at h ⊢

theorem Purpose.isPlain_of_permitted {p : Purpose} (h : p.permittedInHoldup = true) : p.isPlain = true := by
  cases p <;> simp_all [Purpose.permittedInHoldup, Purpose.isPlain]

theorem addRequest_forall {P : Purpose → Prop} (hm : ∀ a b, P (.evidenceLog a b)) {p : Purpose} (hp : P p) {l : List Purpose}
    (hl : ∀ q ∈ l, P q) : ∀ q ∈ addRequest p l, P q := by
  induction l with
  | nil => simpa [addRequest] using hp
  | cons q l ih =>
    simp only [List.forall_mem_cons] at hl
    unfold addRequest
    split <;> simp only [List.forall_mem_cons]
    · exact hl
    · exact hl
    · exact ⟨hm _ _, hl.2⟩
    · exact ⟨hl.1, ih hl.2⟩

/-- A change of the store keeps a rule of the writes asked for that the one asked for keeps. -/
theorem StoreStep.underWay {P : Purpose → Prop} (hm : ∀ a b, P (.evidenceLog a b)) (hplain : ∀ p : Purpose, p.isPlain = true → P p)
    (hf : ∀ p : Purpose, p.fits x → P p) {st : Store} (h : StoreStep c x st) (hx : ∀ p ∈ x.underWay, P p) :
    ∀ p ∈ State.underWay { x with store := st }, P p := by
  have hx' := hx
  simp only [State.underWay, List.forall_mem_append] at hx ⊢
  cases h with
  | pump => exact List.forall_mem_append.1 fun p hp => hx' p (x.pump_underWay.mem_iff.1 hp)
  | ask p hp => exact ⟨hx.1, addRequest_forall hm (hf p hp) hx.2⟩
  | drop f => exact ⟨hx.1, fun p hp => hx.2 p (List.mem_of_mem_filter hp)⟩
  | refill l _ hl => exact ⟨by simp, fun p hp => hplain p (hl p hp)⟩
  | cut => exact hx

theorem State.stored_underWay {sel : Purpose → Bool} {w : Write} {rest : List Write} (h : s.completes sel w rest) :
    ∀ p ∈ (s.stored w rest).underWay, p ∈ s.underWay := by
  intro p hp
  obtain ⟨-, -, hsub⟩ := takeFlight_mem h
  have e : (s.stored w rest).underWay = rest.map Write.purpose ++ s.store.waiting := rfl
  rw [e] at hp
  exact ((hsub.map Write.purpose).append_right _).subset hp

theorem State.Reaches.accountInRange (h : State.Reaches c s x) (hs : s.accountInRange) : x.accountInRange := by
  rw [State.accountInRange_iff] at hs ⊢
  induction h with
  | onStore f _ st ih =>
    refine ⟨st.valuesHold ih.1 fun p hp => Purpose.puts_accountInRange ih.1 (ih.2 p (by simp [State.underWay, hp])), ?_⟩
    exact st.underWay (fun a b => Purpose.accountInRange_of_isPlain rfl) (fun p => Purpose.accountInRange_of_isPlain)
      (fun p hp => hp.accountInRange ih.1) ih.2
  | stored sel w rest _ hw => exact ⟨hs.1.stored hw, fun p hp => hs.2 p (State.stored_underWay hw p hp)⟩
  | held => exact ⟨hs.1.held, fun p hp => absurd hp (by simp [State.underWay, State.loseWorking, State.onBackup])⟩
  | begun cause found =>
    refine ⟨hs.1.begun accountInRange_shipped (fun w hw v hv => ?_) cause found, fun p hp => absurd hp
      (by simp [State.underWay, State.begun, State.loseWorking, State.onStore, State.onLife])⟩
    obtain ⟨hp, e⟩ := State.waitingPermitted_puts hw
    exact Purpose.puts_accountInRange hs.1 (Purpose.accountInRange_of_isPlain (Purpose.isPlain_of_permitted hp)) v (e ▸ hv)
  | refl | failing | ticked => exact hs
  | _ => assumption

theorem exec_accountInRange (h : exec c s = .next t) (hs : s.accountInRange) : t.accountInRange := by
  obtain ⟨x, hx, rfl | rfl⟩ := exec_ends h
  · exact hx.accountInRange hs
  · have hk := hx.accountInRange hs
    rw [State.accountInRange_iff] at hk ⊢
    exact ⟨hk.1.toBattery, fun p hp => absurd hp (by simp [State.underWay, State.toBattery_flight, State.toBattery_waiting])⟩

end Sys2Proof.Machine
end

section
open Sys2Proof Sys2Proof.Machine

/-- Settles O5: writes start from an empty flight alone (State.Reaches.oneWrite). -/
theorem oneWriteAtATime : Obligations.OneWriteAtATime :=
  ⟨fun _ _ _ hs h => exec_oneWrite h hs, step_keeps (fun _ _ hs => hs) fun _ _ _ hs h => exec_oneWrite h hs⟩

/-- Settles O8: registration, the residue record and its writes in range together (State.Reaches.registrationInRange). -/
theorem registrationStaysInRange : Obligations.RegistrationStaysInRange :=
  ⟨fun _ _ _ hs h => exec_registrationInRange h hs, step_keeps (fun _ _ hs => hs) fun _ _ _ hs h => exec_registrationInRange h hs⟩

/-- Settles O9: what is asked for is worked from a record in range, and what starts carries it (State.Reaches.accountInRange). -/
theorem accountRecordStaysInRange : Obligations.AccountRecordStaysInRange :=
  ⟨fun _ _ _ hs h => exec_accountInRange h hs, step_keeps (fun _ _ hs => hs) fun _ _ _ hs h => exec_accountInRange h hs⟩

/-- Settles O3: no change but a completion, a start and the reset line touches the records (State.Reaches.recs). -/
theorem recordsChangeOnlyAtCompletions : Obligations.RecordsChangeOnlyAtCompletions := by
  intro c s t h hc hs hr
  obtain ⟨x, hx, rfl | rfl⟩ := exec_ends h
  · exact hx.recs hc hs hr
  · exact hx.recs hc hs hr

/-- Settles O6: a write starts in HOLDUP only as one that HOLDUP permits (State.Reaches.flightFrom). -/
theorem holdupStartsOnlyPermittedWrites : Obligations.HoldupStartsOnlyPermittedWrites := by
  intro c s t w h hh hw
  exact (exec_flightFrom h w hw).imp id fun hp => hp.2 hh

/-- Settles O7: each rule is kept by what a write puts where the records keep it (Purpose.puts_lifeSound, puts_codeOrdered,
puts_keyInstalled). -/
theorem storedRecordsKeepTheirRules : Obligations.StoredRecordsKeepTheirRules := by
  intro c s t h
  refine ⟨fun hs => ?_, fun hs => ?_, fun hs => ⟨State.identitySound_of_flight hs (exec_flightFrom h), fun hk => ?_⟩⟩
  · rw [State.lifeRecordSound_iff] at hs ⊢
    exact exec_valuesHold (fun x hx => Purpose.puts_lifeSound hx) lifeSound_shipped hs h
  · rw [State.codeRecordOrdered_iff] at hs ⊢
    exact exec_valuesHold (fun x hx => Purpose.puts_codeOrdered hx) codeOrdered_shipped hs h
  · exact (t.keyInstalled_iff.1 (exec_valuesHold (fun x _ => Purpose.puts_keyInstalled x) keyInstalled_shipped
      (s.keyInstalled_iff.2 ⟨hk, hs⟩) h)).1

end

section
/-! What the operations on the log and its slots keep: the order of the log, the bounds of the slots, and that each slot in use is
named by one record (R153, R154, R159, R162, R163). -/

namespace Sys2Proof.Machine

/-! ### A log made from an ordered one -/

/-- The record b stands in a log for a: its class is a's, its state a's or final, its slot a's or none. -/
def EvRecord.standsFor (a b : EvRecord) : Prop :=
  b.cls = a.cls ∧ (b.state = a.state ∨ b.isFinal) ∧ (b.slot = a.slot ∨ b.slot = none)

theorem EvRecord.standsFor_refl (a : EvRecord) : a.standsFor a := ⟨rfl, .inl rfl, .inl rfl⟩

theorem standsFor_same (l : List EvRecord) : List.Forall₂ EvRecord.standsFor l l :=
  List.forall₂_same.2 fun a _ => a.standsFor_refl

/-- A record that is not final had its state before. -/
theorem EvRecord.standsFor.state {a b : EvRecord} (h : a.standsFor b) {st : EvState} (hst : st = .opened ∨ st = .active)
    (hb : b.state = st) : a.state = st := by
  rcases h.2.1 with e | e | e
  · exact e ▸ hb
  · exact absurd (e.symm.trans hb) (by rcases hst with rfl | rfl <;> simp)
  · exact absurd (e.symm.trans hb) (by rcases hst with rfl | rfl <;> simp)

theorem classes_sublist {l m : List EvRecord} (h : List.Forall₂ EvRecord.standsFor l m) {st : EvState}
    (hst : st = .opened ∨ st = .active) :
    ((m.filter fun r => r.state = st).map EvRecord.cls).Sublist ((l.filter fun r => r.state = st).map EvRecord.cls) := by
  induction h with
  | nil => simp
  | @cons a b l m hab _ ih =>
    by_cases hb : b.state = st
    · simp only [List.filter_cons, hb, hab.state hst hb, decide_true, if_true, List.map_cons, hab.1]
      exact ih.cons_cons _
    · by_cases ha : a.state = st
      · simp only [List.filter_cons, hb, ha, decide_true, decide_false, if_true, Bool.false_eq_true, if_false, List.map_cons]
        exact ih.cons _
      · simpa only [List.filter_cons, hb, ha, decide_false, Bool.false_eq_true, if_false] using ih

theorem slots_sublist {l m : List EvRecord} (h : List.Forall₂ EvRecord.standsFor l m) :
    (m.filterMap EvRecord.slot).Sublist (l.filterMap EvRecord.slot) := by
  induction h with
  | nil => simp
  | @cons a b l m hab _ ih =>
    rcases hab.2.2 with e | e
    · cases ha : a.slot with
      | none => simpa only [List.filterMap_cons, e, ha] using ih
      | some k => simpa only [List.filterMap_cons, e, ha] using ih.cons_cons k
    · cases ha : a.slot with
      | none => simpa only [List.filterMap_cons, e, ha] using ih
      | some k => simpa only [List.filterMap_cons, e, ha] using ih.cons k

theorem standsFor_of_mem {l m : List EvRecord} (h : List.Forall₂ EvRecord.standsFor l m) {b : EvRecord} (hb : b ∈ m) :
    ∃ a ∈ l, a.standsFor b := by
  induction h with
  | nil => simp at hb
  | cons hab _ ih =>
    rcases List.mem_cons.1 hb with rfl | hb
    · exact ⟨_, by simp, hab⟩
    · obtain ⟨a, ha, hs⟩ := ih hb
      exact ⟨a, by simp [ha], hs⟩

theorem EvidenceRec.ordered.of_standsFor {e : EvidenceRec} (he : e.ordered) {log : List EvRecord}
    (h : List.Forall₂ EvRecord.standsFor e.log log) : EvidenceRec.ordered { e with log := log } := by
  obtain ⟨hl, h1, h2, ho, ha, hr, hs⟩ := he
  refine ⟨h.length_eq ▸ hl, h1, h2, ho.sublist (classes_sublist h (.inl rfl)), ha.sublist (classes_sublist h (.inr rfl)),
    fun b hb => ?_, hs.sublist (slots_sublist h)⟩
  obtain ⟨a, ham, hab⟩ := standsFor_of_mem h hb
  rw [hab.1]
  exact ⟨fun hbs => (hr a ham).1 (hab.state (.inl rfl) hbs), fun hbs => (hr a ham).2 (hab.state (.inr rfl) hbs)⟩

theorem EvidenceRec.ordered.of_sublist {e : EvidenceRec} (he : e.ordered) {log : List EvRecord} (h : log.Sublist e.log) :
    EvidenceRec.ordered { e with log := log } := by
  obtain ⟨hl, h1, h2, ho, ha, hr, hs⟩ := he
  exact ⟨h.length_le.trans hl, h1, h2, ho.sublist ((h.filter _).map _), ha.sublist ((h.filter _).map _),
    fun b hb => hr b (h.subset hb), hs.sublist (h.filterMap _)⟩

theorem EvidenceRec.ordered.withNext {e : EvidenceRec} (he : e.ordered) {n : Nat} (h1 : 1 ≤ n) (h2 : n ≤ 4294967295) :
    EvidenceRec.ordered { e with next := n } := by
  obtain ⟨hl, -, -, rest⟩ := he
  exact ⟨hl, h1, h2, rest⟩

/-- A record joins an ordered log with room: OPEN as the only one of its latching class, ACTIVE as the only one of its following
class, with a slot that no record names. -/
theorem EvidenceRec.ordered.append {e : EvidenceRec} (he : e.ordered) (hroom : e.log.length < 48) {r : EvRecord}
    (ho : r.state = .opened → r.cls.latching = true ∧ ∀ x ∈ e.log, x.state = .opened → x.cls ≠ r.cls)
    (ha : r.state = .active → (r.cls = .overheat ∨ r.cls = .relayFault) ∧ ∀ x ∈ e.log, x.state = .active → x.cls ≠ r.cls)
    (hs : ∀ k, r.slot = some k → ∀ x ∈ e.log, x.slot ≠ some k) : EvidenceRec.ordered { e with log := e.log ++ [r] } := by
  obtain ⟨hl, h1, h2, hoo, haa, hr, hss⟩ := he
  have classes : ∀ st, (r.state = st → ∀ x ∈ e.log, x.state = st → x.cls ≠ r.cls) →
      ((e.log.filter fun x => x.state = st).map EvRecord.cls).Nodup →
      (((e.log ++ [r]).filter fun x => x.state = st).map EvRecord.cls).Nodup := by
    intro st hne hnd
    by_cases hst : r.state = st
    · simp only [List.filter_append, List.filter_cons, hst, decide_true, if_true, List.filter_nil, List.map_append, List.map_cons,
        List.map_nil]
      refine hnd.append (List.nodup_singleton _) fun k hk hk' => ?_
      obtain ⟨x, hx, rfl⟩ := List.mem_map.1 hk
      simp only [List.mem_filter, decide_eq_true_eq] at hx
      exact hne hst x hx.1 hx.2 (by simpa using hk')
    · simpa [List.filter_append, List.filter_cons, hst] using hnd
  refine ⟨by simp; omega, h1, h2, classes _ (fun h => (ho h).2) hoo, classes _ (fun h => (ha h).2) haa, fun x hx => ?_, ?_⟩
  · rcases List.mem_append.1 hx with hx | hx
    · exact hr x hx
    · obtain rfl := List.mem_singleton.1 hx
      exact ⟨fun h => (ho h).1, fun h => (ha h).1⟩
  · cases hk : r.slot with
    | none => simpa [List.filterMap_append, List.filterMap_cons, hk] using hss
    | some k =>
      simp only [List.filterMap_append, List.filterMap_cons, hk, List.filterMap_nil]
      refine hss.append (List.nodup_singleton _) fun j hj hj' => ?_
      obtain ⟨x, hx, hxj⟩ := List.mem_filterMap.1 hj
      obtain rfl := List.mem_singleton.1 hj'
      exact hs _ hk x hx hxj

/-- In an ordered log of 48 some record is final: at most nine are OPEN, at most two ACTIVE. -/
theorem EvidenceRec.ordered.exists_final {e : EvidenceRec} (he : e.ordered) (hl : 48 ≤ e.log.length) : ∃ r ∈ e.log, r.isFinal := by
  obtain ⟨-, -, -, ho, ha, hr, -⟩ := he
  by_contra hn
  have hst : ∀ r ∈ e.log, r.state = .opened ∨ r.state = .active := by
    intro r hr'
    have : ¬ r.isFinal := fun h => hn ⟨r, hr', h⟩
    cases h : r.state <;> simp_all [EvRecord.isFinal]
  have h9 : (e.log.filter fun r => r.state = .opened).length ≤ (allClasses.filter EvClass.latching).length := by
    rw [← List.length_map (f := EvRecord.cls)]
    refine (List.subperm_of_subset ho fun k hk => ?_).length_le
    obtain ⟨x, hx, rfl⟩ := List.mem_map.1 hk
    simp only [List.mem_filter, decide_eq_true_eq] at hx ⊢
    exact ⟨by cases x.cls <;> decide, (hr x hx.1).1 hx.2⟩
  have h2 : (e.log.filter fun r => r.state = .active).length ≤ [EvClass.overheat, .relayFault].length := by
    rw [← List.length_map (f := EvRecord.cls)]
    refine (List.subperm_of_subset ha fun k hk => ?_).length_le
    obtain ⟨x, hx, rfl⟩ := List.mem_map.1 hk
    simp only [List.mem_filter, decide_eq_true_eq] at hx
    simpa using (hr x hx.1).2 hx.2
  have hsum := List.length_eq_length_filter_add (l := e.log) fun r => decide (r.state = .opened)
  have hrest : (e.log.filter fun r => !decide (r.state = .opened)) = e.log.filter fun r => decide (r.state = .active) := by
    refine List.filter_congr fun r hr' => ?_
    rcases hst r hr' with h | h <;> simp [h]
  rw [hrest] at hsum
  have : (allClasses.filter EvClass.latching).length = 9 := by decide
  simp only [List.length_cons, List.length_nil] at h2
  omega

/-! ### Slots named by records -/

/-- Of the slots other than k, each record that names one names one in use under its number, and each in use is so named; no
record names k. -/
def slotsNamedBut (k : Nat) (log : List EvRecord) (slots : List (Option Slot)) : Prop :=
  (∀ r ∈ log, ∀ j, r.slot = some j → j ≠ k ∧ ∃ sl, slots[j]? = some (some sl) ∧ sl.number = r.number) ∧
    ∀ j sl, j ≠ k → slots[j]? = some (some sl) → ∃ r ∈ log, r.slot = some j ∧ r.number = sl.number

theorem slotsNamed.of_free {k : Nat} {log : List EvRecord} {slots : List (Option Slot)} (h : slotsNamed log slots)
    (hk : slots[k]? = some none) : slotsNamedBut k log slots := by
  refine ⟨fun r hr j hj => ⟨?_, h.1 r hr j hj⟩, fun j sl _ hj => h.2 j sl hj⟩
  rintro rfl
  obtain ⟨sl, hsl, -⟩ := h.1 r hr _ hj
  simp [hk] at hsl

theorem nodup_slot_split {older newer : List EvRecord} {r : EvRecord} {k : Nat}
    (h : ((older ++ r :: newer).filterMap EvRecord.slot).Nodup) (hk : r.slot = some k) :
    ∀ x ∈ older ++ newer, x.slot ≠ some k := by
  simp only [List.filterMap_append, List.filterMap_cons, hk] at h
  obtain ⟨-, h2, h3⟩ := List.nodup_append.1 h
  intro x hx hxk
  rcases List.mem_append.1 hx with hx | hx
  · exact h3 k (List.mem_filterMap.2 ⟨x, hx, hxk⟩) k (by simp) rfl
  · exact (List.nodup_cons.1 h2).1 (List.mem_filterMap.2 ⟨x, hx, hxk⟩)

/-- Where a record that names k leaves, or gives the slot up, the others name the others. -/
theorem slotsNamed.of_release {older newer others : List EvRecord} {r : EvRecord} {k : Nat} {slots : List (Option Slot)}
    (h : slotsNamed (older ++ r :: newer) slots) (hnd : ((older ++ r :: newer).filterMap EvRecord.slot).Nodup)
    (hk : r.slot = some k) (ho : ∀ x ∈ others, x ∈ older ++ newer ∨ x.slot = none) (hsub : ∀ x ∈ older ++ newer, x ∈ others) :
    slotsNamedBut k others slots := by
  have hne := nodup_slot_split hnd hk
  have hmem : ∀ x ∈ older ++ newer, x ∈ older ++ r :: newer := fun x hx => by
    simp only [List.mem_append, List.mem_cons] at hx ⊢
    tauto
  refine ⟨fun x hx j hj => ?_, fun j sl hjk hj => ?_⟩
  · rcases ho x hx with hx | hx
    · exact ⟨fun e => hne x hx (e ▸ hj), h.1 x (hmem x hx) j hj⟩
    · simp [hx] at hj
  · obtain ⟨x, hx, hxj, hxn⟩ := h.2 j sl hj
    have hx' : x ∈ older ++ newer := by
      simp only [List.mem_append, List.mem_cons] at hx ⊢
      rcases hx with hx | rfl | hx
      · exact .inl hx
      · exact absurd (hk.symm.trans hxj) (by simpa using Ne.symm hjk)
      · exact .inr hx
    exact ⟨x, hsub x hx', hxj, hxn⟩

theorem slotsNamedBut.free {k : Nat} {log : List EvRecord} {slots : List (Option Slot)} (h : slotsNamedBut k log slots) :
    slotsNamed log (slots.set k none) := by
  refine ⟨fun r hr j hj => ?_, fun j sl hj => ?_⟩
  · obtain ⟨hne, sl, hsl, hn⟩ := h.1 r hr j hj
    exact ⟨sl, by rw [List.getElem?_set_ne (Ne.symm hne), hsl], hn⟩
  · by_cases hjk : j = k
    · subst hjk
      rw [List.getElem?_set_self'] at hj
      cases hs : slots[j]? <;> simp [hs] at hj
    · exact h.2 j sl hjk (by rwa [List.getElem?_set_ne (Ne.symm hjk)] at hj)

theorem slotsNamedBut.place {k : Nat} {log : List EvRecord} {slots : List (Option Slot)} (h : slotsNamedBut k log slots)
    (hk : k < slots.length) {r : EvRecord} (hr : r.slot = some k) {sl : Slot} (hn : sl.number = r.number) :
    slotsNamed (log ++ [r]) (slots.set k (some sl)) := by
  refine ⟨fun x hx j hj => ?_, fun j sl' hj => ?_⟩
  · rcases List.mem_append.1 hx with hx | hx
    · obtain ⟨hne, sl', hsl, hn'⟩ := h.1 x hx j hj
      exact ⟨sl', by rw [List.getElem?_set_ne (Ne.symm hne), hsl], hn'⟩
    · obtain rfl := List.mem_singleton.1 hx
      obtain rfl := Option.some.inj (hr.symm.trans hj)
      exact ⟨sl, by rw [List.getElem?_set_self hk], hn⟩
  · by_cases hjk : j = k
    · subst hjk
      rw [List.getElem?_set_self hk] at hj
      obtain rfl := Option.some.inj (Option.some.inj hj)
      exact ⟨r, by simp, hr, hn.symm⟩
    · rw [List.getElem?_set_ne (Ne.symm hjk)] at hj
      obtain ⟨x, hx, hxj, hxn⟩ := h.2 j sl' hjk hj
      exact ⟨x, by simp [hx], hxj, hxn⟩

theorem slotsNamed.append {log : List EvRecord} {slots : List (Option Slot)} (h : slotsNamed log slots) {r : EvRecord}
    (hr : r.slot = none) : slotsNamed (log ++ [r]) slots := by
  refine ⟨fun x hx j hj => ?_, fun j sl hj => ?_⟩
  · rcases List.mem_append.1 hx with hx | hx
    · exact h.1 x hx j hj
    · obtain rfl := List.mem_singleton.1 hx
      simp [hr] at hj
  · obtain ⟨x, hx, hxj, hxn⟩ := h.2 j sl hj
    exact ⟨x, by simp [hx], hxj, hxn⟩

/-! ### The bounds of the slots -/

/-- The bounds of one slot. -/
def Slot.inBounds (sl : Slot) : Prop := sl.pre.length ≤ 8 ∧ sl.post.length ≤ 8 ∧ (sl.collecting = true → sl.post.length < 8)

theorem slotsOrdered.set {slots : List (Option Slot)} (h : slotsOrdered slots) (k : Nat) {o : Option Slot}
    (ho : ∀ sl, o = some sl → sl.inBounds) : slotsOrdered (slots.set k o) := by
  refine ⟨by simpa using h.1, fun sl hsl => ?_⟩
  rcases List.mem_or_eq_of_mem_set hsl with hm | e
  · exact h.2 sl hm
  · exact ho sl e.symm

theorem slotsOrdered.map {slots : List (Option Slot)} (h : slotsOrdered slots) {f : Slot → Slot} (hf : Slot.keepsBounds f) :
    slotsOrdered (slots.map (Option.map f)) := by
  refine ⟨by simpa using h.1, fun sl hsl => ?_⟩
  obtain ⟨o, ho, e⟩ := List.mem_map.1 hsl
  obtain ⟨sl', rfl, rfl⟩ := Option.map_eq_some_iff.1 e
  obtain ⟨h1, h2, h3⟩ := h.2 sl' ho
  obtain ⟨-, hp, hb⟩ := hf sl'
  exact ⟨hp ▸ h1, hb ⟨h2, h3⟩⟩

theorem slotsNamed.map {log : List EvRecord} {slots : List (Option Slot)} (h : slotsNamed log slots) {f : Slot → Slot}
    (hf : ∀ sl, (f sl).number = sl.number) : slotsNamed log (slots.map (Option.map f)) := by
  refine ⟨fun r hr k hk => ?_, fun k sl hsl => ?_⟩
  · obtain ⟨sl, hsl, hn⟩ := h.1 r hr k hk
    exact ⟨f sl, by simp [hsl], (hf sl).trans hn⟩
  · rw [List.getElem?_map, Option.map_eq_some_iff] at hsl
    obtain ⟨o, ho, e⟩ := hsl
    obtain ⟨sl', rfl, rfl⟩ := Option.map_eq_some_iff.1 e
    rw [hf]
    exact h.2 k sl' ho

/-- Records changed in place, with number and slot as they were, name the slots they named. -/
theorem slotsNamed.edit {log : List EvRecord} {slots : List (Option Slot)} (h : slotsNamed log slots) {f : EvRecord → EvRecord}
    (hf : ∀ r, (f r).number = r.number ∧ (f r).slot = r.slot) : slotsNamed (log.map f) slots := by
  refine ⟨fun r hr k hk => ?_, fun k sl hsl => ?_⟩
  · obtain ⟨r', hr', rfl⟩ := List.mem_map.1 hr
    rw [(hf r').2] at hk
    rw [(hf r').1]
    exact h.1 r' hr' k hk
  · obtain ⟨r, hr, h1, h2⟩ := h.2 k sl hsl
    exact ⟨f r, List.mem_map_of_mem hr, (hf r).2.trans h1, (hf r).1.trans h2⟩

/-! ### A record is appended -/

theorem makeRoom_keeps {e : EvidenceRec} (he : e.ordered) {slots : List (Option Slot)} (hs : slotsOrdered slots)
    (hn : slotsNamed e.log slots) :
    (makeRoom e.log slots).1.Sublist e.log ∧ (makeRoom e.log slots).1.length < 48 ∧ slotsOrdered (makeRoom e.log slots).2 ∧
      slotsNamed (makeRoom e.log slots).1 (makeRoom e.log slots).2 := by
  obtain ⟨hsame, hout⟩ := roomMade_makeRoom e.log slots
  by_cases hl : e.log.length < 48
  · obtain ⟨h1, h2⟩ := hsame (.inl hl)
    rw [h1, h2]
    exact ⟨List.Sublist.refl _, hl, hs, hn⟩
  · rcases removeOldestFinal_spec e.log with ⟨-, hnone⟩ | ⟨older, r, newer, -, hlog, hf, ho⟩
    · obtain ⟨r, hr, hf⟩ := he.exists_final (Nat.le_of_not_lt hl)
      exact absurd hf (hnone r hr)
    · obtain ⟨h1, h2, h3⟩ := hout older r newer (Nat.le_of_not_lt hl) hlog hf ho
      have hlen : e.log.length ≤ 48 := he.1
      have hnd := he.2.2.2.2.2.2
      rw [hlog] at hn hnd hlen
      rw [h1]
      refine ⟨hlog ▸ (List.sublist_cons_self r newer).append_left older, by simp at hlen ⊢; omega, ?_⟩
      cases hk : r.slot with
      | none =>
        rw [h3 hk]
        refine ⟨hs, fun x hx => hn.1 x ?_, fun k sl hsl => ?_⟩
        · simp only [List.mem_append, List.mem_cons] at hx ⊢
          tauto
        · obtain ⟨x, hx, hxk, hxn⟩ := hn.2 k sl hsl
          refine ⟨x, ?_, hxk, hxn⟩
          simp only [List.mem_append, List.mem_cons] at hx ⊢
          rcases hx with hx | rfl | hx
          · exact .inl hx
          · simp [hk] at hxk
          · exact .inr hx
      | some k =>
        rw [h2 k hk]
        exact ⟨hs.set k (by simp), (hn.of_release hnd hk (fun x hx => .inl hx) fun x hx => hx).free⟩

theorem chooseSlot_keeps {log : List EvRecord} {slots : List (Option Slot)} (hnd : (log.filterMap EvRecord.slot).Nodup)
    (hn : slotsNamed log slots) {k : Nat} {log' : List EvRecord} (h : chooseSlot log slots = some (k, log')) :
    List.Forall₂ EvRecord.standsFor log log' ∧ slotsNamedBut k log' slots ∧ k < slots.length := by
  unfold chooseSlot freeSlot at h
  split at h
  · next j hj =>
    obtain ⟨rfl, rfl⟩ := Prod.mk.inj (Option.some.inj h)
    obtain ⟨hlt, hnone, -⟩ := List.findIdx?_eq_some_iff_getElem.1 hj
    have hk : slots[j]? = some none := by rw [List.getElem?_eq_getElem hlt]; simpa using hnone
    exact ⟨standsFor_same log, hn.of_free hk, hlt⟩
  · rcases takeFromFinal_spec log with ⟨h1, -⟩ | ⟨older, r, newer, j, h1, hlog, hf, hk, -⟩
    · simp [h1] at h
    · rw [h1] at h
      obtain ⟨rfl, rfl⟩ := Prod.mk.inj (Option.some.inj h)
      have hlt : j < slots.length := by
        obtain ⟨sl, hsl, -⟩ := hn.1 r (by simp [hlog]) j hk
        exact (List.getElem?_eq_some_iff.1 hsl).1
      rw [hlog] at hn hnd
      refine ⟨?_, hn.of_release hnd hk (fun x hx => ?_) fun x hx => ?_, hlt⟩
      · rw [hlog]
        exact List.rel_append (standsFor_same older) (.cons ⟨rfl, .inl rfl, .inr rfl⟩ (standsFor_same newer))
      · simp only [List.mem_append, List.mem_cons] at hx ⊢
        rcases hx with hx | rfl | hx
        · exact .inl (.inl hx)
        · exact .inr rfl
        · exact .inl (.inr hx)
      · simp only [List.mem_append, List.mem_cons] at hx ⊢
        tauto

theorem nextNumber_bounds {n : Nat} (h2 : n ≤ 4294967295) : 1 ≤ nextNumber n ∧ nextNumber n ≤ 4294967295 := by
  unfold nextNumber
  split <;> omega

/-- A record appended to an ordered log leaves it and its slots in order; an ACTIVE record there is that record or has stood there
before. -/
theorem logAppend_keeps {r : EvRecord} {seek : Bool} {trace : List Summary} {ev : EvidenceRec} {slots : List (Option Slot)}
    (he : ev.ordered) (hs : slotsOrdered slots) (hn : slotsNamed ev.log slots) (ht : trace.length ≤ 8)
    (ho : r.state = .opened → r.cls.latching = true ∧ ∀ x ∈ ev.log, x.state = .opened → x.cls ≠ r.cls)
    (ha : r.state = .active → (r.cls = .overheat ∨ r.cls = .relayFault) ∧ ∀ x ∈ ev.log, x.state = .active → x.cls ≠ r.cls) :
    (logAppend r seek trace ev slots).1.ordered ∧ slotsOrdered (logAppend r seek trace ev slots).2.1 ∧
      slotsNamed (logAppend r seek trace ev slots).1.log (logAppend r seek trace ev slots).2.1 ∧
      ∀ x ∈ (logAppend r seek trace ev slots).1.log, x.state = .active →
        (∃ y ∈ ev.log, y.state = .active ∧ y.cls = x.cls) ∨ (r.state = .active ∧ x.cls = r.cls) := by
  obtain ⟨hsub, hroom, hs1, hn1⟩ := makeRoom_keeps he hs hn
  obtain ⟨hb1, hb2⟩ := nextNumber_bounds he.2.2.1
  have he1 := he.of_sublist hsub
  -- the log that is appended to: its records stand for records of ev.log
  have key : ∀ (log : List EvRecord) (o : Option Nat), List.Forall₂ EvRecord.standsFor (makeRoom ev.log slots).1 log →
      (∀ k, o = some k → ∀ x ∈ log, x.slot ≠ some k) →
      EvidenceRec.ordered ⟨log ++ [{ r with number := ev.next, slot := o }], nextNumber ev.next⟩ ∧
        ∀ x ∈ log ++ [{ r with number := ev.next, slot := o }], x.state = .active →
          (∃ y ∈ ev.log, y.state = .active ∧ y.cls = x.cls) ∨ (r.state = .active ∧ x.cls = r.cls) := by
    intro log o hf hk
    have hold : ∀ st, st = .opened ∨ st = .active → ∀ x ∈ log, x.state = st → ∃ y ∈ ev.log, y.state = st ∧ y.cls = x.cls := by
      intro st hst x hx hxs
      obtain ⟨y, hy, hyx⟩ := standsFor_of_mem hf hx
      exact ⟨y, hsub.subset hy, hyx.state hst hxs, hyx.1.symm⟩
    refine ⟨((he1.of_standsFor hf).append (hf.length_eq ▸ hroom) (r := { r with number := ev.next, slot := o })
      (fun h => ⟨(ho h).1, fun x hx hxs => ?_⟩) (fun h => ⟨(ha h).1, fun x hx hxs => ?_⟩) hk).withNext hb1 hb2, fun x hx hxs => ?_⟩
    · obtain ⟨y, hy, hys, hyc⟩ := hold _ (.inl rfl) x hx hxs
      exact hyc ▸ (ho h).2 y hy hys
    · obtain ⟨y, hy, hys, hyc⟩ := hold _ (.inr rfl) x hx hxs
      exact hyc ▸ (ha h).2 y hy hys
    · rcases List.mem_append.1 hx with hx | hx
      · exact .inl (hold _ (.inr rfl) x hx hxs)
      · obtain rfl := List.mem_singleton.1 hx
        exact .inr ⟨hxs, rfl⟩
  unfold logAppend
  dsimp only
  split
  · next k log hc =>
    have hc' : chooseSlot (makeRoom ev.log slots).1 (makeRoom ev.log slots).2 = some (k, log) := by
      split at hc
      · exact hc
      · simp at hc
    obtain ⟨hf, hbut, hlt⟩ := chooseSlot_keeps he1.2.2.2.2.2.2 hn1 hc'
    obtain ⟨h1, h2⟩ := key log (some k) hf fun j hj x hx e => (hbut.1 x hx k (Option.some.inj hj ▸ e)).1 rfl
    exact ⟨h1, hs1.set k (by rintro sl ⟨⟩; exact ⟨ht, by simp, by simp⟩), hbut.place hlt rfl rfl, h2⟩
  · obtain ⟨h1, h2⟩ := key _ none (standsFor_same _) (by simp)
    exact ⟨h1, hs1, hn1.append rfl, h2⟩

end Sys2Proof.Machine
end

section
/-! The log and the slots under every command (O10), with the order of the switch controller (O13). -/

namespace Sys2Proof.Machine

variable {c : Instr} {s t x : State}

/-! ### The switch controller (R105, R116, R119, R120) -/

theorem Switch.enters_ordered (w : Switch) (target : SwitchState) (h : w.sensing ≠ some .atDip) :
    (operatingState (w.enters target).state → 1 ≤ (w.enters target).attempt ∧ (w.enters target).attempt ≤ 3 ∧
      (w.enters target).progress ≠ .idle) ∧
    (¬ operatingState (w.enters target).state → (w.enters target).attempt = 0 ∧ (w.enters target).progress = .idle) ∧
    ((w.enters target).sensing = some .atDip → (w.enters target).progress = .abandoned) := by
  by_cases ho : operatingState target
  · rw [Switch.enters_of_operating ho]
    exact ⟨fun _ => by simp, fun hn => absurd ho hn, fun hs => absurd hs h⟩
  · rw [Switch.enters_of_rest ho]
    exact ⟨fun hn => absurd hn ho, fun _ => ⟨rfl, rfl⟩, fun hs => absurd hs h⟩

theorem SwStep.switchOrdered {w : Switch} (h : SwStep c s x w) (hx : x.switchOrdered) : State.switchOrdered { x with sw := w } := by
  obtain ⟨ho, hr, hd⟩ := hx
  have hop : x.sw.progress ≠ .idle → operatingState x.sw.state := fun hp => by
    by_contra hn
    exact hp (hr hn).2
  cases h with
  | keep w h1 h2 h3 h4 h5 =>
    simp only [State.switchOrdered, h1, h2, h3, h5]
    exact ⟨ho, hr, hd⟩
  | enters target hl =>
    refine Switch.enters_ordered _ _ fun hs => ?_
    have ha := hd hs
    rcases hl.dip hs with h | h
    · exact h (hop (by simp [ha]))
    · exact h ha
  | position target => exact Switch.enters_ordered _ _ (by simp)
  | jam hp ha => exact ⟨by simp [operatingState], fun _ => ⟨rfl, rfl⟩, fun hs => absurd (hd hs) ha⟩
  | retry hp ha h3 =>
    refine ⟨fun hst => ⟨by simp, by simp only; omega, by simp⟩, fun hn => absurd (hop hp) hn, fun hs => absurd (hd hs) ha⟩
  | progress p hp ha hne =>
    exact ⟨fun hst => ⟨(ho hst).1, (ho hst).2.1, hne⟩, fun hn => absurd (hop hp) hn, fun hs => absurd (hd hs) ha⟩
  | release => exact ⟨ho, hr, hd⟩
  | pulse d p _ hxs _ _ _ _ hw hne =>
    subst hxs
    have hst := hop (by simp [hw])
    exact ⟨fun _ => ⟨(ho hst).1, (ho hst).2.1, hne⟩, fun hn => absurd hst hn, fun hs => absurd (hd hs) (by simp [hw])⟩
  | sense y _ hy => exact ⟨ho, hr, fun hs => hy (Option.some.inj hs)⟩
  | lapse p hp =>
    rcases hp with rfl | ⟨hs, rfl⟩
    · exact ⟨ho, hr, by simp⟩
    · have hst := hop (by simp [hd hs])
      exact ⟨fun _ => ⟨(ho hst).1, (ho hst).2.1, by simp⟩, fun hn => absurd hst hn, by simp⟩
  | start r _ _ => exact ⟨ho, hr, by simp⟩

theorem State.loseWorking_switchOrdered (x : State) : x.loseWorking.switchOrdered :=
  ⟨by simp [State.loseWorking, operatingState], fun _ => ⟨rfl, rfl⟩, by simp [State.loseWorking]⟩

theorem State.Reaches.switchOrdered (h : State.Reaches c s x) (hs : s.switchOrdered) : x.switchOrdered := by
  induction h with
  | onSw f _ st ih => exact st.switchOrdered ih
  | held => exact State.loseWorking_switchOrdered s.absorb
  | begun cause found => exact State.loseWorking_switchOrdered s.absorbAtStart
  | refl | stored | failing | ticked => exact hs
  | _ => assumption

theorem exec_switchOrdered (h : exec c s = .next t) (hs : s.switchOrdered) : t.switchOrdered := by
  obtain ⟨x, hx, rfl | rfl⟩ := exec_ends h
  · exact hx.switchOrdered hs
  · exact State.loseWorking_switchOrdered x

/-- With an ordered switch, RELAY-FAULT only in JAMMED and a start's sensing only in OPEN are kept. -/
theorem SwStep.jammed {w : Switch} (h : SwStep c s x w) (hx : x.switchOrdered) (hj : x.tam.relayFault = true → x.sw.state = .jammed)
    (hs : x.sw.sensing = some .atStart → x.sw.state = .opened) :
    (x.tam.relayFault = true → w.state = .jammed) ∧ (w.sensing = some .atStart → w.state = .opened) := by
  obtain ⟨ho, hr, hd⟩ := hx
  have hop : x.sw.progress ≠ .idle → operatingState x.sw.state := fun hp => by
    by_contra hn
    exact hp (hr hn).2
  have hidle : x.tam.relayFault = true → x.sw.progress = .idle := fun hf => (hr (by simp [operatingState, hj hf])).2
  have hsens : x.sw.sensing = some .atStart → x.sw.progress = .idle := fun h => (hr (by simp [operatingState, hs h])).2
  have henter : ∀ (v : Switch) (target : SwitchState), (v.enters target).sensing = v.sensing := fun v target => by
    by_cases h : operatingState target
    · rw [Switch.enters_of_operating h]
    · rw [Switch.enters_of_rest h]
  cases h with
  | keep w h1 _ _ _ h5 => simpa only [h1, h5] using ⟨hj, hs⟩
  | enters target hl =>
    refine ⟨fun hf => ?_, fun h => ?_⟩
    · rcases hl.fault with h | h | h
      · simp [h] at hf
      · exact absurd (hj hf) h
      · exact absurd (hidle hf) h
    · rw [henter] at h
      rcases hl.start h with h' | h'
      · exact absurd (hs h) h'
      · exact absurd (hsens h) h'
  | position target hl =>
    refine ⟨fun hf => ?_, fun h => by simp [henter] at h⟩
    rcases hl with h | h | h
    · simp [h] at hf
    · exact absurd (hj hf) (by simp [hs h])
    · exact absurd (hidle hf) (by simp [hd h])
  | jam hp => exact ⟨fun _ => rfl, fun h => absurd (hsens h) hp⟩
  | retry hp => exact ⟨hj, hs⟩
  | progress => exact ⟨hj, hs⟩
  | release => exact ⟨hj, hs⟩
  | pulse => exact ⟨hj, hs⟩
  | sense y hy => exact ⟨hj, fun h => absurd (Option.some.inj h) hy⟩
  | lapse => exact ⟨hj, by simp⟩
  | start r h => exact ⟨hj, fun _ => h⟩

/-! ### The log in working state -/

/-- The part of State.logOrdered that speaks of the working state. -/
structure State.logWorks (x : State) : Prop where
  evidence : x.tam.evidence.ordered
  slots : slotsOrdered x.tam.slots
  named : slotsNamed x.tam.evidence.log x.tam.slots
  trace : x.reg.trace.length ≤ 8
  active : ∀ r ∈ x.tam.evidence.log, r.state = .active →
    (r.cls = .overheat ∧ x.sup.overheat = true) ∨ (r.cls = .relayFault ∧ x.tam.relayFault = true)
  held : x.heldLatching
  switch : x.switchOrdered
  jammed : x.tam.relayFault = true → x.sw.state = .jammed
  start : x.sw.sensing = some .atStart → x.sw.state = .opened

/-- The rule of the records that the tamper unit stores. -/
def RecordValue.logOrdered : RecordValue → Prop
  | .evidence v => v.ordered
  | .snapshot v => slotsOrdered v
  | _ => True

theorem State.logOrdered_iff (s : State) : s.logOrdered ↔ s.valuesHold RecordValue.logOrdered ∧ s.logWorks := by
  simp only [State.logOrdered, State.valuesHold, Records.values, List.forall_mem_cons, RecordValue.logOrdered]
  constructor
  · rintro ⟨⟨e1, e2, e3⟩, ⟨s1, s2, s3⟩, hn, ht, ha, hh, hsw, hj, hst⟩
    refine ⟨⟨by simp [e2, s2], fun v hv => ?_⟩, ⟨e1, s1, hn, ht, ha, hh, hsw, hj, hst⟩⟩
    cases v with
    | evidence v => exact e3 v hv
    | snapshot v => exact s3 v hv
    | _ => trivial
  · rintro ⟨⟨h1, h2⟩, hw⟩
    simp only [true_and, List.not_mem_nil, false_implies, implies_true, and_true] at h1
    exact ⟨⟨hw.evidence, h1.1, fun v hv => h2 _ hv⟩, ⟨hw.slots, h1.2, fun v hv => h2 _ hv⟩, hw.named, hw.trace, hw.active, hw.held,
      hw.switch, hw.jammed, hw.start⟩

theorem slotsOrdered_free : slotsOrdered freeSlots := ⟨rfl, by simp [freeSlots]⟩

theorem EvidenceRec.ordered_shipped : EvidenceRec.shipped.ordered := by simp [EvidenceRec.ordered, EvidenceRec.shipped]

theorem logOrdered_shipped : shippedHold RecordValue.logOrdered := by
  simp [shippedHold, RecordValue.logOrdered, slotsOrdered_free, EvidenceRec.ordered_shipped]

theorem State.loseWorking_logWorks (x : State) : x.loseWorking.logWorks where
  evidence := EvidenceRec.ordered_shipped
  slots := slotsOrdered_free
  named := by
    refine ⟨by simp [State.loseWorking, Tamper.begin, EvidenceRec.shipped], fun k sl hk => ?_⟩
    simp only [State.loseWorking, Tamper.begin, freeSlots] at hk
    exact absurd (List.mem_of_getElem? hk) (by simp)
  trace := Registration.inRange_begin.2
  active := by simp [State.loseWorking, Tamper.begin, EvidenceRec.shipped]
  held := by simp [State.heldLatching, State.loseWorking, Tamper.begin]
  switch := x.loseWorking_switchOrdered
  jammed := by simp [State.loseWorking, Tamper.begin]
  start := by simp [State.loseWorking]

/-! ### The log at entry (R165) -/

theorem appendAgain_slots_nodup (time : Option Nat) (seeks : EvClass → Bool) (trace : List Summary) (l : List EvRecord) (n k : Nat) :
    ((appendAgain time seeks trace n k l).1.filterMap EvRecord.slot).Nodup := by
  induction l generalizing n k with
  | nil => simp [appendAgain]
  | cons r rest ih =>
    unfold appendAgain
    split
    · simp only [List.filterMap_cons, List.nodup_cons]
      refine ⟨fun hk => ?_, ih _ _⟩
      obtain ⟨x, hx, hxk⟩ := List.mem_filterMap.1 hk
      have := ((appendAgain_slots time seeks trace rest (n + 1) (k + 1)).1 x hx k hxk).1
      omega
    · simpa only [List.filterMap_cons] using ih _ _

/-- The log and slots that an entry makes are in order, and hold the ACTIVE records alone. -/
theorem State.entryLog_keeps (he : x.tam.evidence.ordered) (ht : x.reg.trace.length ≤ 8) :
    x.entryLog.1.ordered ∧ slotsOrdered x.entryLog.2 ∧ slotsNamed x.entryLog.1.log x.entryLog.2 ∧
      ∀ r ∈ x.entryLog.1.log, r.state = .active ∧ ∃ y ∈ x.tam.evidence.log, y.state = .active ∧ y.cls = r.cls := by
  obtain ⟨hl, -, -, -, hact, hcls, -⟩ := he
  unfold State.entryLog EvidenceRec.atEntry
  dsimp only
  set kept := x.tam.evidence.log.filter fun r => r.state = .active with hkept
  set seeks := fun k => (x.policy k).snapshot && k.snapshotable
  obtain ⟨h1, h2, -⟩ := appendAgain_spec x.time seeks x.reg.trace 1 0 kept
  obtain ⟨h3, h4⟩ := appendAgain_slots x.time seeks x.reg.trace kept 1 0
  have hnd := appendAgain_slots_nodup x.time seeks x.reg.trace kept 1 0
  set A := appendAgain x.time seeks x.reg.trace 1 0 kept with hA
  have hlen : A.1.length = kept.length := by simpa using congrArg List.length h1
  have hle : kept.length ≤ 48 := (List.length_filter_le _ _).trans hl
  have hstate : ∀ r ∈ A.1, r.state = .active := fun r hr => by
    have hm : r.state ∈ kept.map EvRecord.state := h2 ▸ List.mem_map_of_mem hr
    obtain ⟨y, hy, e⟩ := List.mem_map.1 hm
    rw [hkept] at hy
    simp only [List.mem_filter, decide_eq_true_eq] at hy
    exact e ▸ hy.2
  have hclass : ∀ r ∈ A.1, ∃ y ∈ x.tam.evidence.log, y.state = .active ∧ y.cls = r.cls := fun r hr => by
    have hm : r.cls ∈ kept.map EvRecord.cls := h1 ▸ List.mem_map_of_mem hr
    obtain ⟨y, hy, e⟩ := List.mem_map.1 hm
    rw [hkept] at hy
    simp only [List.mem_filter, decide_eq_true_eq] at hy
    exact ⟨y, hy.1, hy.2, e⟩
  have hsl : ∀ sl ∈ A.2, sl.pre = x.reg.trace ∧ sl.post = [] := fun sl hsl => by
    obtain ⟨j, hj⟩ := List.mem_iff_getElem?.1 hsl
    obtain ⟨r, hr, hrj⟩ := h4 j sl hj
    obtain ⟨-, -, h⟩ := h3 r hr _ hrj
    simp only [Nat.zero_add, Nat.sub_zero] at h
    obtain rfl := Option.some.inj (h.symm.trans hj)
    exact ⟨rfl, rfl⟩
  have hget : ∀ (j : Nat) (sl : Slot), ((A.2.map some ++ freeSlots).take 4)[j]? = some (some sl) → A.2[j]? = some sl := by
    intro j sl h
    rw [List.getElem?_take] at h
    split at h
    · by_cases hj : j < A.2.length
      · rw [List.getElem?_append_left (by simpa using hj), List.getElem?_map] at h
        obtain ⟨y, hy, e⟩ := Option.map_eq_some_iff.1 h
        exact Option.some.inj e ▸ hy
      · rw [List.getElem?_append_right (by simpa using hj)] at h
        exact absurd (List.mem_of_getElem? h) (by simp [freeSlots])
    · simp at h
  refine ⟨⟨by simp only; omega, by simp, by simp only; omega, ?_, ?_, fun r hr => ?_, hnd⟩, ⟨by simp [freeSlots], fun sl h => ?_⟩, ⟨?_, ?_⟩,
    fun r hr => ⟨hstate r hr, hclass r hr⟩⟩
  · simp only
    rw [List.filter_eq_nil_iff.2 fun r hr => by simp [hstate r hr]]
    simp
  · simp only
    rw [List.filter_eq_self.2 fun r hr => by simp [hstate r hr], h1]
    exact hact
  · refine ⟨fun h => absurd h (by simp [hstate r hr]), fun _ => ?_⟩
    obtain ⟨y, hy, hys, e⟩ := hclass r hr
    exact e ▸ (hcls y hy).2 hys
  · obtain ⟨j, hj⟩ := List.mem_iff_getElem?.1 h
    obtain ⟨e1, e2⟩ := hsl sl (List.mem_of_getElem? (hget j sl hj))
    exact ⟨e1 ▸ ht, by simp [e2], by simp [e2]⟩
  · intro r hr k hk
    obtain ⟨-, hk4, h⟩ := h3 r hr k hk
    simp only [Nat.sub_zero] at h
    refine ⟨⟨r.number, x.reg.trace, [], true⟩, ?_, rfl⟩
    rw [List.getElem?_take, if_pos hk4, List.getElem?_append_left (by simpa using (List.getElem?_eq_some_iff.1 h).1),
      List.getElem?_map, h]
    rfl
  · intro k sl hk
    have hk' := hget k sl hk
    obtain ⟨r, hr, hrk⟩ := h4 k sl hk'
    simp only [Nat.zero_add] at hrk
    obtain ⟨-, -, h⟩ := h3 r hr k hrk
    simp only [Nat.sub_zero] at h
    obtain rfl := Option.some.inj (h.symm.trans hk')
    exact ⟨r, hr, hrk, rfl⟩

/-- Logs that differ in onset times alone name the same slots. -/
theorem slotsNamed.of_untimed {l m : List EvRecord} {slots : List (Option Slot)} (h : slotsNamed l slots)
    (e : l.map EvRecord.untimed = m.map EvRecord.untimed) : slotsNamed m slots := by
  have hs : ∀ a b : EvRecord, a.untimed = b.untimed → a.slot = b.slot ∧ a.number = b.number := fun a b hab =>
    ⟨(congrArg EvRecord.slot hab :), (congrArg EvRecord.number hab :)⟩
  refine ⟨fun r hr k hk => ?_, fun k sl hk => ?_⟩
  · have hm : r.untimed ∈ l.map EvRecord.untimed := e ▸ List.mem_map_of_mem hr
    obtain ⟨y, hy, hyr⟩ := List.mem_map.1 hm
    obtain ⟨h1, h2⟩ := hs y r hyr
    exact h2 ▸ h.1 y hy k (h1.trans hk)
  · obtain ⟨r, hr, h1, h2⟩ := h.2 k sl hk
    have hm : r.untimed ∈ m.map EvRecord.untimed := e ▸ List.mem_map_of_mem hr
    obtain ⟨y, hy, hyr⟩ := List.mem_map.1 hm
    obtain ⟨k1, k2⟩ := hs y r hyr
    exact ⟨y, hy, k1.trans h1, k2.trans h2⟩

theorem State.entryTam_keeps (hx : x.logWorks) (hs : x.store.recs.evidence.ordered) :
    State.logWorks { x with tam := { x.tam with evidence := x.entryEvidence, slots := x.entrySlots } } := by
  obtain ⟨h1, h2, h3, h4⟩ := State.entryLog_keeps hx.evidence hx.trace
  have hev : x.entryEvidence.ordered ∧ slotsNamed x.entryEvidence.log x.entryLog.2 ∧
      ∀ r ∈ x.entryEvidence.log, ∃ y ∈ x.tam.evidence.log, y.state = .active ∧ y.cls = r.cls := by
    unfold State.entryEvidence
    split
    · next he =>
      simp only [Bool.and_eq_true, decide_eq_true_eq] at he
      refine ⟨hs, h3.of_untimed he.1, fun r hr => ?_⟩
      have hm : r.untimed ∈ x.entryLog.1.log.map EvRecord.untimed := he.1 ▸ List.mem_map_of_mem hr
      obtain ⟨y, hy, hyr⟩ := List.mem_map.1 hm
      obtain ⟨z, hz, hzs, hzc⟩ := (h4 y hy).2
      exact ⟨z, hz, hzs, hzc.trans (congrArg EvRecord.cls hyr :)⟩
    · exact ⟨h1, h3, fun r hr => (h4 r hr).2⟩
  have hsl : slotsOrdered x.entrySlots ∧ slotsNamed x.entryEvidence.log x.entrySlots := by
    unfold State.entrySlots
    split
    · exact ⟨h2, hev.2.1⟩
    · exact ⟨h2.map Slot.keepsBounds_completed, hev.2.1.map fun _ => rfl⟩
  refine { hx with evidence := hev.1, slots := hsl.1, named := hsl.2, active := fun r hr _ => ?_, held := hx.held }
  obtain ⟨y, hy, hys, hyc⟩ := hev.2.2 r hr
  exact hyc ▸ hx.active y hy hys

/-! ### The log at a start (R164) -/

theorem mem_freeOrphans {log : List EvRecord} {slots : List (Option Slot)} {k : Nat} {sl : Slot}
    (h : (freeOrphans log slots)[k]? = some (some sl)) :
    slots[k]? = some (some sl) ∧ ∃ r ∈ log, r.number = sl.number ∧ r.slot = some k := by
  unfold freeOrphans at h
  rw [List.getElem?_map, List.getElem?_zipIdx, Option.map_map, Option.map_eq_some_iff] at h
  obtain ⟨o, ho, e⟩ := h
  cases o with
  | none => simp at e
  | some sl' =>
    simp only [Function.comp_apply, Nat.zero_add] at e
    split at e
    · next ha =>
      obtain rfl := Option.some.inj e
      obtain ⟨r, hr, h⟩ := List.any_eq_true.1 ha
      simp only [Bool.and_eq_true, beq_iff_eq] at h
      exact ⟨ho, r, hr, h.1, h.2⟩
    · simp at e

theorem EvRecord.atStart_keeps (slots : List (Option Slot)) (r : EvRecord) :
    r.standsFor (r.atStart slots) ∧ (r.atStart slots).number = r.number ∧ (r.atStart slots).state ≠ .active ∧
      (r.atStart slots).slot = if r.ownsSlot slots then r.slot else none := by
  unfold EvRecord.atStart
  dsimp only
  split <;> split <;> simp_all [EvRecord.standsFor, EvRecord.isFinal]

theorem State.repairedTam_keeps (he : x.store.recs.evidence.ordered) (hs : slotsOrdered x.store.recs.snapshot) :
    x.repairedTam.evidence.ordered ∧ slotsOrdered x.repairedTam.slots ∧
      slotsNamed x.repairedTam.evidence.log x.repairedTam.slots ∧ ∀ r ∈ x.repairedTam.evidence.log, r.state ≠ .active := by
  unfold State.repairedTam Tamper.begin
  dsimp only
  set log := x.store.recs.evidence.log
  set slots := freeOrphans log x.store.recs.snapshot with hslots
  have hkeep := EvRecord.atStart_keeps slots
  have hord : slotsOrdered slots := by
    refine ⟨by rw [hslots]; simpa [freeOrphans] using hs.1, fun sl hsl => ?_⟩
    obtain ⟨k, hk⟩ := List.mem_iff_getElem?.1 hsl
    exact hs.2 sl (List.mem_of_getElem? (mem_freeOrphans hk).1)
  refine ⟨he.of_standsFor (List.forall₂_map_right_iff.2 (List.forall₂_same.2 fun r _ => (hkeep r).1)),
    hord.map Slot.keepsBounds_completed, slotsNamed.map ⟨fun r hr k hk => ?_, fun k sl hk => ?_⟩ fun _ => rfl, fun r hr => ?_⟩
  · obtain ⟨y, hy, rfl⟩ := List.mem_map.1 hr
    obtain ⟨-, hn, -, hsl⟩ := hkeep y
    rw [hsl] at hk
    split at hk
    · next ho =>
      rw [hn]
      unfold EvRecord.ownsSlot at ho
      rw [hk] at ho
      dsimp only at ho
      split at ho
      · next sl hsl =>
        refine ⟨sl, ?_, by simpa using ho⟩
        rw [List.getD_eq_getElem?_getD] at hsl
        cases hg : slots[k]? with
        | none => simp [hg] at hsl
        | some o => simpa [hg] using hsl
      · simp at ho
    · simp at hk
  · obtain ⟨hk0, y, hy, hyn, hyk⟩ := mem_freeOrphans (log := log) hk
    obtain ⟨-, hn, -, hsl⟩ := hkeep y
    refine ⟨y.atStart slots, List.mem_map_of_mem hy, ?_, hn.trans hyn⟩
    rw [hsl, if_pos, hyk]
    simp [EvRecord.ownsSlot, hyk, List.getD_eq_getElem?_getD, hk, hyn]
  · obtain ⟨y, hy, rfl⟩ := List.mem_map.1 hr
    exact (hkeep y).2.2.1

/-! ### The changes keep the log in order -/

theorem EvRecord.keepsPlace.standsFor {f : EvRecord → EvRecord} (hf : EvRecord.keepsPlace f) (l : List EvRecord) :
    List.Forall₂ EvRecord.standsFor l (l.map f) :=
  List.forall₂_map_right_iff.2 (List.forall₂_same.2 fun r _ => ⟨(hf r).1, (hf r).2.2.2, .inl (hf r).2.2.1⟩)

/-- Records changed in place leave the log in order and name the slots they named. -/
theorem State.logWorks.edit (hx : x.logWorks) {f : EvRecord → EvRecord} (hf : EvRecord.keepsPlace f) :
    EvidenceRec.ordered { x.tam.evidence with log := x.tam.evidence.log.map f } ∧
      slotsNamed (x.tam.evidence.log.map f) x.tam.slots ∧ ∀ r ∈ x.tam.evidence.log.map f, r.state = .active →
        ∃ y ∈ x.tam.evidence.log, r = f y ∧ y.state = .active ∧ y.cls = r.cls := by
  refine ⟨hx.evidence.of_standsFor (hf.standsFor _), hx.named.edit fun r => ⟨(hf r).2.1, (hf r).2.2.1⟩, fun r hr hs => ?_⟩
  obtain ⟨y, hy, rfl⟩ := List.mem_map.1 hr
  refine ⟨y, hy, rfl, ?_, (hf y).1.symm⟩
  rcases (hf y).2.2.2 with e | e | e
  · exact e ▸ hs
  · exact absurd (e.symm.trans hs) (by simp)
  · exact absurd (e.symm.trans hs) (by simp)

/-- After the ACTIVE records of a class have ended none of it is ACTIVE. -/
theorem EvRecord.endActive_cls {k : EvClass} {time : Option Nat} {r : EvRecord} (h : (r.endActive k time).state = .active) :
    (r.endActive k time).cls ≠ k := by
  unfold EvRecord.endActive at h ⊢
  split at h
  · simp at h
  · next hn =>
    rw [if_neg hn]
    exact fun e => hn ⟨e, h⟩

theorem isLatched_false {log : List EvRecord} {k : EvClass} (h : isLatched log k = false) :
    ∀ x ∈ log, x.state = .opened → x.cls ≠ k := by
  simpa [isLatched, imp_not_comm] using h

theorem TamStep.logWorks {t : Tamper} (h : TamStep c s x t) (hs : s.heldLatching) (hx : x.logWorks)
    (he : x.store.recs.evidence.ordered) (hsl : slotsOrdered x.store.recs.snapshot) : State.logWorks { x with tam := t } := by
  cases h with
  | keep t h1 h2 h3 h4 =>
    refine ⟨h1 ▸ hx.evidence, h2 ▸ hx.slots, h1 ▸ h2 ▸ hx.named, hx.trace, ?_, fun a ha => (h4 a ha).elim (hx.held a) fun k => k hs,
      hx.switch, fun hf => hx.jammed (h3 ▸ hf), hx.start⟩
    simpa only [h1, h3] using hx.active
  | append r seek ha ho =>
    obtain ⟨k1, k2, k3, k4⟩ := logAppend_keeps (seek := seek) hx.evidence hx.slots hx.named hx.trace
      (fun h => ⟨(ho h).1 hs, isLatched_false (ho h).2⟩) fun h => absurd h ha
    refine { hx with evidence := k1, slots := k2, named := k3, active := fun y hy hys => ?_, held := hx.held }
    rcases k4 y hy hys with ⟨z, hz, hzs, hzc⟩ | ⟨h, -⟩
    · exact hzc ▸ hx.active z hz hzs
    · exact absurd h ha
  | edit f hf =>
    obtain ⟨k1, k2, k3⟩ := hx.edit hf
    refine { hx with evidence := k1, named := k2, active := fun r hr hrs => ?_, held := hx.held }
    obtain ⟨y, hy, -, hys, hyc⟩ := k3 r hr hrs
    exact hyc ▸ hx.active y hy hys
  | recover time =>
    obtain ⟨k1, k2, k3⟩ := hx.edit (EvRecord.keepsPlace_endActive .relayFault time)
    refine { hx with evidence := k1, named := k2, active := fun r hr hrs => ?_, held := hx.held, jammed := by simp }
    obtain ⟨y, hy, e, hys, hyc⟩ := k3 r hr hrs
    rcases hyc ▸ hx.active y hy hys with h | h
    · exact .inl h
    · exact absurd h.1 (e ▸ EvRecord.endActive_cls (e ▸ hrs))
  | broken hj =>
    exact { hx with active := fun r hr hrs => (hx.active r hr hrs).imp id fun h => ⟨h.1, rfl⟩, held := hx.held, jammed := fun _ => hj }
  | slots f hf => exact { hx with slots := hx.slots.map hf, named := hx.named.map fun sl => (hf sl).1, held := hx.held }
  | repaired hc =>
    obtain ⟨k1, k2, k3, k4⟩ := State.repairedTam_keeps he hsl
    exact { hx with
      evidence := k1, slots := k2, named := k3, active := fun r hr hrs => absurd hrs (k4 r hr)
      held := by intro a ha; simp [State.repairedTam, Tamper.begin] at ha
      jammed := by simp [State.repairedTam, Tamper.begin] }
  | entered => exact State.entryTam_keeps hx he

/-- An ACTIVE record may join: none of its class is ACTIVE, as its condition was absent just before. -/
theorem State.logWorks.follows {y : State} (hx : x.logWorks) (hy : y.logWorks) (he : x.tam.evidence = y.tam.evidence) {r : EvRecord}
    (hr : r.state = .active) (hb : y.condBegins x r.cls) (seek : Bool) :
    State.logWorks (x.onTam fun t => { t with
      evidence := (logAppend r seek x.reg.trace t.evidence t.slots).1
      slots := (logAppend r seek x.reg.trace t.evidence t.slots).2.1 }) := by
  have hnone : ∀ z ∈ x.tam.evidence.log, z.state = .active → z.cls ≠ r.cls := by
    intro z hz hzs e
    rcases hy.active z (he ▸ hz) hzs with ⟨k1, k2⟩ | ⟨k1, k2⟩ <;> rcases hb with ⟨b1, b2, -⟩ | ⟨b1, b2, -⟩
    · simp [b2] at k2
    · exact absurd (k1.symm.trans (e.trans b1)) (by simp)
    · exact absurd (k1.symm.trans (e.trans b1)) (by simp)
    · exact b2 (hy.switch.2.1 (by simp [operatingState, hy.jammed k2])).2
  obtain ⟨k1, k2, k3, k4⟩ := logAppend_keeps (seek := seek) hx.evidence hx.slots hx.named hx.trace (fun h => absurd (hr.symm.trans h) (by simp))
    fun _ => ⟨hb.imp And.left And.left, hnone⟩
  refine { hx with evidence := k1, slots := k2, named := k3, active := fun z hz hzs => ?_, held := hx.held }
  rcases k4 z hz hzs with ⟨w, hw, hws, hwc⟩ | ⟨-, hzr⟩
  · exact hwc ▸ hx.active w hw hws
  · rw [hzr]
    exact hb.imp (fun h => ⟨h.1, h.2.2⟩) fun h => ⟨h.1, h.2.2⟩

theorem State.logWorks.cooled (hx : x.logWorks) (time : Option Nat) :
    State.logWorks ((x.onSup fun u => { u with overheat := false }).onTam fun t => { t with
      evidence := { t.evidence with log := t.evidence.log.map (EvRecord.endActive .overheat time) } }) := by
  obtain ⟨k1, k2, k3⟩ := hx.edit (EvRecord.keepsPlace_endActive .overheat time)
  refine { hx with evidence := k1, named := k2, active := fun r hr hrs => ?_, held := hx.held, switch := hx.switch }
  obtain ⟨y, hy, e, hys, hyc⟩ := k3 r hr hrs
  rcases hyc ▸ hx.active y hy hys with h | h
  · exact absurd h.1 (e ▸ EvRecord.endActive_cls (e ▸ hrs))
  · exact .inr h

theorem Purpose.puts_logOrdered (hx : x.logWorks) (p : Purpose) : ∀ v ∈ p.puts x, v.logOrdered := by
  obtain ⟨h1, h2, -, -⟩ := State.entryLog_keeps hx.evidence hx.trace
  have h3 := hx.evidence
  have h4 := hx.slots
  have h5 : ∀ l q t, (x.tam.evidence.clearing l q t).ordered := fun l q t => (hx.edit (EvRecord.keepsPlace_clearedBy l q t)).1
  unfold Purpose.puts
  split
  case h_17 ev snap => cases ev <;> cases snap <;> simp [RecordValue.logOrdered, h3, h4]
  all_goals simp [RecordValue.logOrdered, h1, h2, h3, h4, h5]

theorem State.valuesHold.logRecords (h : x.valuesHold RecordValue.logOrdered) :
    x.store.recs.evidence.ordered ∧ slotsOrdered x.store.recs.snapshot :=
  ⟨h.1 (.evidence x.store.recs.evidence) (by simp [Records.values]), h.1 (.snapshot x.store.recs.snapshot) (by simp [Records.values])⟩

theorem State.Reaches.logOrdered (h : State.Reaches c s x) (hs : s.logOrdered) : x.logOrdered := by
  rw [State.logOrdered_iff] at hs ⊢
  induction h with
  | onStore f _ st ih => exact ⟨st.valuesHold ih.1 fun p _ => Purpose.puts_logOrdered ih.2 p, { ih.2 with }⟩
  | onTam f _ st ih => exact ⟨ih.1, st.logWorks hs.2.held ih.2 ih.1.logRecords.1 ih.1.logRecords.2⟩
  | onSw f _ st ih =>
    obtain ⟨h1, h2⟩ := st.jammed ih.2.switch ih.2.jammed ih.2.start
    exact ⟨ih.1, { ih.2 with switch := st.switchOrdered ih.2.switch, jammed := h1, start := h2 }⟩
  | onSup f _ st ih =>
    exact ⟨ih.1, { ih.2 with active := fun r hr hrs => (ih.2.active r hr hrs).imp (fun h => ⟨h.1, st h.2⟩) id }⟩
  | onReg f _ st ih => exact ⟨ih.1, { ih.2 with trace := st.trace ih.2.trace }⟩
  | follows r seek _ _ he hr hb ihy ihx => exact ⟨ihx.1, ihx.2.follows ihy.2 he hr hb seek⟩
  | cooled time _ ih => exact ⟨ih.1, ih.2.cooled time⟩
  | stored sel w rest _ hw => exact ⟨hs.1.stored hw, { hs.2 with }⟩
  | held => exact ⟨hs.1.held, { State.loseWorking_logWorks s.absorb with }⟩
  | begun cause found =>
    exact ⟨hs.1.begun logOrdered_shipped (fun w hw v hv =>
      Purpose.puts_logOrdered hs.2 w.purpose v ((State.waitingPermitted_puts hw).2 ▸ hv)) cause found,
      { State.loseWorking_logWorks s.absorbAtStart with }⟩
  | refl => exact hs
  | failing | ticked => exact ⟨hs.1, { hs.2 with }⟩
  | onBackup _ _ _ ih | clockSet _ _ _ _ ih | onCal _ _ ih | onAcct _ _ ih | onCode _ _ _ ih | onLife _ _ _ ih | raised _ _ _ ih
  | ended _ _ ih | onLink _ _ _ ih | useFree _ _ ih => exact ⟨ih.1, { ih.2 with }⟩

theorem exec_logOrdered (h : exec c s = .next t) (hs : s.logOrdered) : t.logOrdered := by
  obtain ⟨x, hx, rfl | rfl⟩ := exec_ends h
  · exact hx.logOrdered hs
  · have hk := hx.logOrdered hs
    rw [State.logOrdered_iff] at hk ⊢
    exact ⟨hk.1.toBattery, { State.loseWorking_logWorks x with }⟩

end Sys2Proof.Machine
end

section
open Sys2Proof Sys2Proof.Machine

/-- Settles O10: every change keeps the log, its slots and the switch in order, and so does what starts (State.Reaches.logOrdered). -/
theorem logAndSlotsStayInOrder : Obligations.LogAndSlotsStayInOrder :=
  ⟨fun _ _ _ hs h => exec_logOrdered h hs, step_keeps (fun s _ hs => by
    rw [State.logOrdered_iff] at hs ⊢
    exact ⟨hs.1, { hs.2 with }⟩) fun _ _ _ hs h => exec_logOrdered h hs⟩

/-- Settles O13: every change of the switch controller keeps its order (SwStep.switchOrdered). -/
theorem attemptCountFollowsTheSwitchState : Obligations.AttemptCountFollowsTheSwitchState :=
  fun _ _ _ hs h => exec_switchOrdered h hs

end

section
/-! Rules of the whole machine under every command: the buffer and the link (O12), closing and the coil lines (O14, O15), the life
state (O16), the clock (O17) and the faults (O11). -/

namespace Sys2Proof.Machine

variable {c : Instr} {s t x : State}

/-! ### The digit buffer and the link (R75, R77, R194, R198) -/

/-- The bounds of the link. -/
def Link.bounded (l : Link) : Prop :=
  l.gapErrors ≤ 65535 ∧ l.crcErrors ≤ 65535 ∧ l.formatErrors ≤ 65535 ∧ l.notices.Nodup

theorem State.linkBounded_iff (s : State) : s.linkBounded ↔ s.code.bounded ∧ s.link.bounded := by
  simp only [State.linkBounded, CodeUnit.bounded, Link.bounded, and_assoc]

theorem LinkStep.bounded {l : Link} (h : LinkStep c s x l) (hx : x.link.bounded) : l.bounded := by
  obtain ⟨hg, hc, hf, hn⟩ := hx
  obtain ⟨kg, kc, kf⟩ := h.counters
  refine ⟨kg.elim (fun e => e ▸ hg) id, kc.elim (fun e => e ▸ hc) id, kf.elim (fun e => e ▸ hf) id, ?_⟩
  rcases h.notices with e | ⟨n, hn', e⟩ | ⟨-, -, f, e⟩ <;> rw [e]
  · exact hn
  · exact List.nodup_append.2 ⟨hn, List.nodup_singleton n, fun a ha b hb hab => hn' (by
      obtain rfl := List.mem_singleton.1 hb
      exact hab ▸ ha)⟩
  · exact hn.filter f

theorem Link.bounded_begin : Link.begin.bounded := by simp [Link.bounded, Link.begin]

theorem CodeUnit.bounded_begin : CodeUnit.begin.bounded := by simp [CodeUnit.bounded, CodeUnit.begin]

/-- A notice made pending is a change of the link. -/
theorem State.pend_linkStep (x : State) (n : Notice) : LinkStep c s x (x.pend n).link := by
  refine ⟨⟨.inl rfl, .inl rfl, .inl rfl⟩, ?_⟩
  by_cases hn : x.link.notices.contains n
  · exact .inl (by simp only [State.pend, State.onLink, if_pos hn])
  · exact .inr (.inl ⟨n, by simpa using hn, by simp only [State.pend, State.onLink, if_neg hn]⟩)

theorem State.pend_linkBounded {n : Notice} (h : x.linkBounded) : (x.pend n).linkBounded := by
  rw [State.linkBounded_iff] at h ⊢
  exact ⟨h.1, (State.pend_linkStep (c := .lineBreak) (s := x) x n).bounded h.2⟩

theorem State.Reaches.linkBounded (h : State.Reaches c s x) (hs : s.linkBounded) : x.linkBounded := by
  induction h with
  | onCode f _ st ih =>
    rw [State.linkBounded_iff] at ih ⊢
    exact ⟨st ih.1, ih.2⟩
  | onLink f _ st ih =>
    rw [State.linkBounded_iff] at ih ⊢
    exact ⟨ih.1, st.bounded ih.2⟩
  | raised f _ _ ih => exact State.pend_linkBounded ih
  | ended f _ ih => exact State.pend_linkBounded ih
  | held | begun => exact (State.linkBounded_iff _).2 ⟨CodeUnit.bounded_begin, Link.bounded_begin⟩
  | refl | stored | failing | ticked => exact hs
  | _ => assumption

/-! ### Closing and the coil lines (R105, R108, R113) -/

theorem StoreStep.settings {st : Store} (h : StoreStep c x st) :
    st.recs = x.store.recs ∧ st.unsound = x.store.unsound := by
  refine ⟨h.recs, ?_⟩
  cases h with
  | pump => rcases x.pump_spec with k | ⟨_, _, _, _, k⟩ <;> rw [k]; rfl
  | _ => rfl

/-- Whether an acknowledgement is required stays through changes of the store. -/
theorem StoreStep.ackRequired {st : Store} (h : StoreStep c x st) : State.ackRequired { x with store := st } = x.ackRequired := by
  obtain ⟨h1, h2⟩ := h.settings
  unfold State.ackRequired State.config State.sound
  rw [h1, h2]

theorem Switch.enters_state (w : Switch) (target : SwitchState) : (w.enters target).state = target ∧ (w.enters target).drive = w.drive := by
  by_cases h : operatingState target
  · rw [Switch.enters_of_operating h]
    exact ⟨rfl, rfl⟩
  · rw [Switch.enters_of_rest h]
    exact ⟨rfl, rfl⟩

theorem SwStep.mayClose {w : Switch} (h : SwStep c s x w) (hw : w.state = .closing) : x.sw.state = .closing ∨ State.mayClose c s x := by
  cases h with
  | keep w h1 => exact .inl (h1 ▸ hw)
  | enters target _ _ hc => exact .inr (hc ((x.sw.enters_state target).1 ▸ hw))
  | position target _ _ hc => exact .inr (hc ((Switch.enters_state _ target).1 ▸ hw))
  | jam => simp at hw
  | _ => exact .inl hw

/-- CLOSING has been entered only where it may be (R108, R113). -/
theorem State.Reaches.mayClose (h : State.Reaches c s x) (hx : x.sw.state = .closing) (hs : s.sw.state ≠ .closing) :
    State.mayClose c s x := by
  induction h with
  | onStore f _ st ih => exact (ih hx).imp (fun k => st.ackRequired.trans k) id
  | onSw f _ st ih => exact (st.mayClose hx).elim (fun k => ih k) id
  | held => simp [State.loseWorking, State.onBackup] at hx
  | begun cause found => simp [State.begun, State.loseWorking, State.onStore, State.onLife] at hx
  | refl | stored | failing | ticked => exact absurd hx hs
  | onBackup _ _ _ ih | clockSet _ _ _ _ ih | onReg _ _ _ ih | onCal _ _ ih | onAcct _ _ ih | onCode _ _ _ ih | onSup _ _ _ ih
  | onTam _ _ _ ih | follows _ _ _ _ _ _ _ _ ih | cooled _ _ ih | onLife _ _ _ ih | raised _ _ _ ih | ended _ _ ih
  | onLink _ _ _ ih | useFree _ _ ih => exact ih hx

theorem SwStep.drive {w : Switch} (h : SwStep c s x w) (hc : c ≠ .coilPulseStart) : w.drive = x.sw.drive ∨ w.drive = .none := by
  cases h with
  | keep w _ _ _ h4 => exact .inl h4
  | enters target => exact .inl (x.sw.enters_state target).2
  | position target => exact .inl (Switch.enters_state _ target).2
  | release => exact .inr rfl
  | pulse d p h => exact absurd h hc
  | _ => exact .inl rfl

theorem State.Reaches.drive (h : State.Reaches c s x) (hc : c ≠ .coilPulseStart) : x.sw.drive = s.sw.drive ∨ x.sw.drive = .none := by
  induction h with
  | onSw f _ st ih => exact (st.drive hc).elim (fun k => k ▸ ih) .inr
  | held | begun => exact .inr rfl
  | refl | stored | failing | ticked => exact .inl rfl
  | _ => assumption

/-! ### The life state (R178, R183) -/

/-- No block works after the command, and no start ends by it. -/
def State.stopped (c : Instr) (x : State) : Prop :=
  x.backup.domain ≠ .running ∧ c ≠ .positionSensingEnd ∧ c ≠ .startWriteComplete

theorem BackupStep.stopped {b : Backup} (h : BackupStep c x b) (hx : x.stopped c) : b.domain ≠ .running := by
  obtain ⟨h1, h2, h3⟩ := hx
  exact fun hr => (h.running hr).elim h1 (fun k => k.elim h2 h3)

/-- The events that change the life state of a running part. -/
def State.lifeEvent (c : Instr) (s x : State) : Prop :=
  (c = .entryWriteComplete ∧ x.life.state = .inService) ∨ (c = .codeAcceptWriteComplete ∧ x.life.state = .serviceWindow) ∨
    ((c = .windowTimerExpiry ∨ c = .closeService ∨ c = .supplyFailing) ∧ s.life.state = .serviceWindow ∧
      x.life.state = .inService)

theorem LifeStep.lifeEvent {l : Life} (h : LifeStep c s x l) (hx : x.life.state = s.life.state ∨ State.lifeEvent c s x) :
    l.state = s.life.state ∨ State.lifeEvent c s { x with life := l } := by
  rcases h.state with e | k | k | ⟨hc, hw, hi⟩
  · simpa only [State.lifeEvent, e] using hx
  · exact .inr (.inl k)
  · exact .inr (.inr (.inl k))
  · refine .inr (.inr (.inr ⟨hc, ?_, hi⟩))
    rcases hx with e | ⟨k, -⟩ | ⟨k, -⟩ | ⟨-, k, -⟩
    · exact e ▸ hw
    · rcases hc with rfl | rfl | rfl <;> simp at k
    · rcases hc with rfl | rfl | rfl <;> simp at k
    · exact k

theorem State.Reaches.lifeEvent (h : State.Reaches c s x) :
    x.stopped c ∨ x.life.state = s.life.state ∨ State.lifeEvent c s x := by
  induction h with
  | onBackup f _ st ih => exact ih.imp (fun k => ⟨st.stopped k, k.2⟩) id
  | onLife f _ st ih => exact ih.imp id st.lifeEvent
  | held h => exact .inl ⟨by simp [State.onBackup], by simp [h], by simp [h]⟩
  | begun cause found h => exact .inl ⟨by simp [State.begun, State.loseWorking, State.onStore, State.onLife, State.onBackup, State.useFree],
      by simp [h], by simp [h]⟩
  | refl | stored | failing | ticked => exact .inr (.inl rfl)
  | _ => assumption

theorem State.toBattery_running (x : State) : x.toBattery.running = false := by
  unfold State.running State.toBattery
  simp only [State.loseWorking, State.useFree, State.onBackup]
  split <;> rfl

/-! ### The clock (R29, R30, R36, R173) -/

/-- A write that is asked for leads the clock no further than its greatest value. -/
def Purpose.clockInRange (p : Purpose) : Prop := ∀ v a b d e, p = .setTime v a b d e → v ≤ maxClock

theorem Purpose.clockInRange_of_isPlain {p : Purpose} (h : p.isPlain = true) : p.clockInRange := by
  rintro v a b d e rfl
  simp [Purpose.isPlain] at h

theorem State.absorb_clock (s : State) :
    s.absorb.backup.retained.clock = s.clock ∧ s.absorb.backup.retained.valid = s.clockValid ∧
      s.absorb.backup.retained.intact = s.backup.retained.intact := by
  unfold State.absorb
  dsimp only
  split <;> exact ⟨rfl, rfl, rfl⟩

/-- A start leaves the clock as it is, or makes it 0 and INVALID where retained memory is not intact. -/
theorem State.begun_clock (cause : StartCause) (found : StartReadings) :
    ((s.begun cause found).clock = s.clock ∧ (s.begun cause found).clockValid = s.clockValid) ∨
      (s.backup.retained.intact = false ∧ (s.begun cause found).clock = 0 ∧ (s.begun cause found).clockValid = false) := by
  obtain ⟨h1, h2, h3⟩ := s.absorb_clock
  have e : ∃ kind, (s.begun cause found).backup.retained = s.absorb.backup.retained.atStart kind := ⟨_, rfl⟩
  obtain ⟨kind, e⟩ := e
  simp only [State.clock, State.clockValid] at h1 h2 ⊢
  rw [e]
  unfold Retained.atStart
  by_cases hi : s.backup.retained.intact = true
  · rw [hi] at h3
    simp only [h3, if_true]
    refine .inl ?_
    split <;> exact ⟨h1, h2⟩
  · have hi : s.backup.retained.intact = false := by simpa using hi
    rw [hi] at h3
    simp only [h3, Bool.false_eq_true, if_false]
    refine .inr ⟨hi, ?_⟩
    split <;> exact ⟨rfl, rfl⟩

theorem State.enterHoldup_clock (s : State) : s.enterHoldup.clock = s.clock ∧ s.enterHoldup.clockValid = s.clockValid := by
  by_cases h : s.backup.retained.offMark = true <;> simp [State.enterHoldup, State.clock, State.clockValid, State.onBackup, h]

theorem State.Reaches.clockInRange (h : State.Reaches c s x) (hs : s.clockInRange) : x.clockInRange := by
  induction h with
  | onStore f _ st ih =>
    exact ⟨ih.1, st.underWay (fun a b => Purpose.clockInRange_of_isPlain rfl) (fun p => Purpose.clockInRange_of_isPlain)
      (fun p hp => hp.2.2) ih.2⟩
  | onBackup f _ st ih => exact ⟨(st.clock.le.trans ih.1 :), ih.2⟩
  | clockSet value _ _ hv ih => exact ⟨hv hs, ih.2⟩
  | stored sel w rest _ hw => exact ⟨hs.1, fun p hp => hs.2 p (State.stored_underWay hw p hp)⟩
  | ticked _ hr =>
    simp only [State.clockRuns, Bool.and_eq_true, decide_eq_true_eq] at hr
    exact ⟨hr.2, hs.2⟩
  | held =>
    refine ⟨?_, fun p hp => absurd hp (by simp [State.underWay, State.loseWorking, State.onBackup])⟩
    exact s.absorb_clock.1.le.trans hs.1
  | begun cause found =>
    refine ⟨?_, fun p hp => absurd hp (by simp [State.underWay, State.begun, State.loseWorking, State.onStore, State.onLife])⟩
    rcases s.begun_clock cause found with ⟨e, -⟩ | ⟨-, e, -⟩ <;> rw [e]
    · exact hs.1
    · exact Nat.zero_le _
  | failing => exact ⟨s.enterHoldup_clock.1.le.trans hs.1, hs.2⟩
  | refl => exact hs
  | onReg _ _ _ ih | onCal _ _ ih | onAcct _ _ ih | onCode _ _ _ ih | onSup _ _ _ ih | onSw _ _ _ ih
  | onTam _ _ _ ih | follows _ _ _ _ _ _ _ _ ih | cooled _ _ ih | onLife _ _ _ ih | raised _ _ _ ih | ended _ _ ih
  | onLink _ _ _ ih | useFree _ _ ih => exact ih

/-- The three events that change the clock. -/
def State.clockEvent (c : Instr) (s x : State) : Prop :=
  (c = .clockSecond ∧ x.clock = s.clock + 1 ∧ x.clockValid = s.clockValid) ∨ (c = .setTimeWriteComplete ∧ x.clockValid = true) ∨
    ((∃ found, c = .start found) ∧ s.backup.retained.intact = false ∧ x.clock = 0 ∧ x.clockValid = false)

theorem State.Reaches.clockEvent (h : State.Reaches c s x) :
    (x.clock = s.clock ∧ x.clockValid = s.clockValid) ∨ State.clockEvent c s x := by
  induction h with
  | onBackup f _ st ih =>
    have h1 : (State.onBackup f _).clock = _ := st.clock
    have h2 : (State.onBackup f _).clockValid = _ := st.valid
    rw [State.clockEvent, h1, h2]
    exact ih
  | clockSet value _ hc => exact .inr (.inr (.inl ⟨hc, rfl⟩))
  | ticked hc => exact .inr (.inl ⟨hc, rfl, rfl⟩)
  | held => exact .inl ⟨s.absorb_clock.1, s.absorb_clock.2.1⟩
  | begun cause found hc => exact (s.begun_clock cause found).imp id fun h => .inr (.inr ⟨⟨found, hc⟩, h⟩)
  | failing => exact .inl s.enterHoldup_clock
  | refl | stored => exact .inl ⟨rfl, rfl⟩
  | onStore _ _ _ ih | onReg _ _ _ ih | onCal _ _ ih | onAcct _ _ ih | onCode _ _ _ ih | onSup _ _ _ ih | onSw _ _ _ ih
  | onTam _ _ _ ih | follows _ _ _ _ _ _ _ _ ih | cooled _ _ ih | onLife _ _ _ ih | raised _ _ _ ih | ended _ _ ih
  | onLink _ _ _ ih | useFree _ _ ih => exact ih

/-! ### The faults (R189, R190) -/

theorem State.faultsFollow_of_eq (h : x.life.faults = s.life.faults) : s.faultsFollow x :=
  ⟨[], [], by simp [h], by simp⟩

theorem State.faultsFollow_of_nil (h : x.life.faults = []) : s.faultsFollow x := by
  refine ⟨s.life.faults, [], ?_, by simp⟩
  rw [h, List.append_nil, eq_comm, List.filter_eq_nil_iff]
  simp

theorem State.faultsFollow.raised {y : State} (h : s.faultsFollow x) {f : FaultKind} (hf : y.life.faults = x.life.faults ++ [f])
    (hm : ∀ g ∈ x.life.memory, g ∈ y.life.memory) (hy : f ∈ y.life.memory) : s.faultsFollow y := by
  obtain ⟨e, r, h1, h2⟩ := h
  refine ⟨e, r ++ [f], by rw [hf, h1, List.append_assoc], fun g hg => ?_⟩
  rcases List.mem_append.1 hg with hg | hg
  · exact hm g (h2 g hg)
  · exact List.mem_singleton.1 hg ▸ hy

theorem State.faultsFollow.ended {y : State} (h : s.faultsFollow x) {f : FaultKind}
    (hf : y.life.faults = x.life.faults.filter (· ≠ f)) (hm : y.life.memory = x.life.memory) : s.faultsFollow y := by
  obtain ⟨e, r, h1, h2⟩ := h
  refine ⟨f :: e, r.filter (· ≠ f), ?_, fun g hg => hm ▸ h2 g (List.mem_of_mem_filter hg)⟩
  rw [hf, h1, List.filter_append, List.filter_filter]
  congr 1
  refine List.filter_congr fun g _ => ?_
  simp [eq_comm]

/-- The memory with a fault that is raised. -/
theorem mem_raised_memory (f : FaultKind) (l : List FaultKind) :
    (∀ g ∈ l, g ∈ if l.contains f then l else l ++ [f]) ∧ f ∈ (if l.contains f then l else l ++ [f]) ∧
      (l.Nodup → (if l.contains f then l else l ++ [f]).Nodup) := by
  by_cases h : l.contains f = true
  · rw [if_pos h]
    exact ⟨fun _ => id, by simpa using h, id⟩
  · rw [if_neg h]
    refine ⟨fun g hg => by simp [hg], by simp, fun hl => ?_⟩
    refine List.nodup_append.2 ⟨hl, List.nodup_singleton f, fun a ha b hb e => h ?_⟩
    obtain rfl := List.mem_singleton.1 hb
    simpa using e ▸ ha

theorem State.Reaches.faultsFollow (h : State.Reaches c s x) : s.faultsFollow x := by
  induction h with
  | onLife f _ st ih =>
    rcases st.memory with e | ⟨-, -, e⟩
    · obtain ⟨a, r, h1, h2⟩ := ih
      exact ⟨a, r, st.faults.trans h1, fun g hg => by
        show g ∈ (f _).memory
        rw [e]
        exact h2 g hg⟩
    · exact State.faultsFollow_of_eq (st.faults.trans e)
  | raised f _ _ ih =>
    obtain ⟨h1, h2, -⟩ := mem_raised_memory f _
    exact ih.raised rfl h1 h2
  | ended f _ ih => exact ih.ended rfl rfl
  | held | begun => exact State.faultsFollow_of_nil rfl
  | refl | stored | failing | ticked => exact State.faultsFollow_of_eq rfl
  | _ => assumption

theorem State.Reaches.faultsOrdered (h : State.Reaches c s x) (hs : s.faultsOrdered) : x.faultsOrdered := by
  induction h with
  | onLife f _ st ih =>
    refine ⟨?_, ?_⟩
    · show (f _).faults.Nodup
      rw [st.faults]
      exact ih.1
    · show (f _).memory.Nodup
      rcases st.memory with e | ⟨-, e, -⟩ <;> rw [e]
      · exact ih.2
      · exact List.nodup_nil
  | raised f _ hf ih =>
    refine ⟨List.nodup_append.2 ⟨ih.1, List.nodup_singleton f, fun a ha b hb e => hf ?_⟩, (mem_raised_memory f _).2.2 ih.2⟩
    obtain rfl := List.mem_singleton.1 hb
    exact e ▸ ha
  | ended f _ ih => exact ⟨ih.1.filter _, ih.2⟩
  | held | begun => exact ⟨List.nodup_nil, List.nodup_nil⟩
  | refl | stored | failing | ticked => exact hs
  | _ => assumption

theorem LinkStep.mem_notices {l : Link} (h : LinkStep c s x l) (hx : x.life.faults ≠ s.life.faults) {n : Notice}
    (hn : n ∈ x.link.notices) : n ∈ l.notices := by
  rcases h.notices with e | ⟨m, -, e⟩ | ⟨-, e, -⟩
  · exact e ▸ hn
  · rw [e]
    simp [hn]
  · exact absurd (congrArg Life.faults e) hx

theorem State.Reaches.faultNotice (h : State.Reaches c s x) :
    x.stopped c ∨ (x.life.faults ≠ s.life.faults → .fault ∈ x.link.notices) := by
  induction h with
  | onBackup f _ st ih => exact ih.imp (fun k => ⟨st.stopped k, k.2⟩) id
  | onLife f _ st ih =>
    refine ih.imp id fun k hne => k ?_
    rwa [← st.faults]
  | raised f => exact .inr fun _ => State.pend_mem _ _
  | ended f => exact .inr fun _ => State.pend_mem _ _
  | onLink f _ st ih => exact ih.imp id fun k hne => st.mem_notices hne (k hne)
  | held h => exact .inl ⟨by simp [State.onBackup], by simp [h], by simp [h]⟩
  | begun cause found h => exact .inl ⟨by simp [State.begun, State.loseWorking, State.onStore, State.onLife, State.onBackup, State.useFree],
      by simp [h], by simp [h]⟩
  | refl | stored | failing | ticked => exact .inr fun h => absurd rfl h
  | _ => assumption

theorem State.Reaches.faultMemory (h : State.Reaches c s x) (hc : ∀ flag, c ≠ .status flag) :
    x.stopped c ∨ ∀ f ∈ s.life.memory, f ∈ x.life.memory := by
  induction h with
  | onBackup f _ st ih => exact ih.imp (fun k => ⟨st.stopped k, k.2⟩) id
  | onLife f _ st ih =>
    refine ih.imp id fun k g hg => ?_
    show g ∈ (f _).memory
    rcases st.memory with e | ⟨⟨flag, e⟩, -⟩
    · rw [e]
      exact k g hg
    · exact absurd e (hc flag)
  | raised f _ _ ih => exact ih.imp id fun k g hg => (mem_raised_memory f _).1 g (k g hg)
  | held h => exact .inl ⟨by simp [State.onBackup], by simp [h], by simp [h]⟩
  | begun cause found h => exact .inl ⟨by simp [State.begun, State.loseWorking, State.onStore, State.onLife, State.onBackup, State.useFree],
      by simp [h], by simp [h]⟩
  | refl | stored | failing | ticked => exact .inr fun _ => id
  | ended f _ ih => exact ih
  | _ => assumption

end Sys2Proof.Machine
end

section
open Sys2Proof Sys2Proof.Machine

/-- Settles O12: every change of the buffer and of the link keeps their bounds (State.Reaches.linkBounded). -/
theorem bufferAndLinkStayBounded : Obligations.BufferAndLinkStayBounded := by
  intro c s t hs h
  obtain ⟨x, hx, rfl | rfl⟩ := exec_ends h
  · exact hx.linkBounded hs
  · exact (State.linkBounded_iff _).2 ⟨CodeUnit.bounded_begin, Link.bounded_begin⟩

/-- Settles O14: CLOSING is entered only where it may be, and the settings stay from there (State.Reaches.mayClose). -/
theorem closingNeedsAcknowledgement : Obligations.ClosingNeedsAcknowledgement := by
  intro c s t h ht hs
  obtain ⟨x, hx, rfl | rfl⟩ := exec_ends h
  · exact hx.mayClose ht hs
  · simp [State.toBattery, State.loseWorking] at ht

/-- Settles O15: no change but a pulse start drives a line (State.Reaches.drive). -/
theorem onlyAPulseStartDrivesACoil : Obligations.OnlyAPulseStartDrivesACoil := by
  intro c s t h hne hch
  by_cases hc : c = .coilPulseStart
  · subst hc
    obtain rfl : s.startPulse = t := Host.Outcome.next.inj h
    unfold State.startPulse at hne hch ⊢
    split at hch
    · next hp =>
      rw [if_pos hp]
      simp only [Bool.and_eq_true, beq_iff_eq] at hp
      obtain ⟨⟨⟨⟨-, hm⟩, -⟩, hd⟩, hl⟩ := hp
      refine ⟨rfl, hm, hd, by rintro e; simp [e] at hl, rfl, ?_⟩
      simp only [State.onSw]
      split <;> simp_all
    · exact absurd rfl hch
  · obtain ⟨x, hx, rfl | rfl⟩ := exec_ends h
    · exact absurd (hx.drive hc) (by simp [hne, hch])
    · exact absurd rfl hne

/-- Settles O16: while the part runs only the named events change the life state (State.Reaches.lifeEvent). -/
theorem lifeStateChangesOnlyByItsEvents : Obligations.LifeStateChangesOnlyByItsEvents := by
  intro c s t h hr hne
  obtain ⟨x, hx, rfl | rfl⟩ := exec_ends h
  · rcases hx.lifeEvent with k | k | k
    · exact absurd (by simpa [State.running] using hr) k.1
    · exact absurd k hne
    · exact k
  · simp [State.toBattery_running] at hr

/-- Settles O17: the clock stays in range with every SET-TIME under way, and changes by its three events alone
(State.Reaches.clockInRange, State.Reaches.clockEvent). -/
theorem clockChangesOnlyByItsEvents : Obligations.ClockChangesOnlyByItsEvents := by
  refine ⟨fun c s t hs h => ?_, fun c s t h hne => ?_⟩
  · obtain ⟨x, hx, rfl | rfl⟩ := exec_ends h
    · exact hx.clockInRange hs
    · exact ⟨(hx.clockInRange hs).1, fun p hp => absurd hp (by simp [State.underWay, State.toBattery_flight, State.toBattery_waiting])⟩
  · obtain ⟨x, hx, rfl | rfl⟩ := exec_ends h
    · exact hx.clockEvent.resolve_left fun k => hne.elim (fun n => n k.1) fun n => n k.2
    · exact hx.clockEvent.resolve_left fun k => hne.elim (fun n => n k.1) fun n => n k.2

/-- Settles O11: a raising joins the newest end and the memory, an end removes its fault, and both make the notice
(State.Reaches.faultsFollow, faultsOrdered, faultNotice, faultMemory). -/
theorem faultsKeepTheirOrder : Obligations.FaultsKeepTheirOrder := by
  intro c s t h
  obtain ⟨x, hx, rfl | rfl⟩ := exec_ends h
  · have hrun : t.running = true → ¬ t.stopped c := fun hr k => k.1 (by simpa [State.running] using hr)
    exact ⟨hx.faultsOrdered, hx.faultsFollow, fun hr => hx.faultNotice.resolve_left (hrun hr),
      fun hr hc => (hx.faultMemory hc).resolve_left (hrun hr)⟩
  · exact ⟨fun _ => ⟨List.nodup_nil, List.nodup_nil⟩, State.faultsFollow_of_nil rfl,
      fun hr => absurd hr (by simp [State.toBattery_running]), fun hr => absurd hr (by simp [State.toBattery_running])⟩

/-- Settles O1: the definition of a step, case by case on the queue. -/
theorem stepTakesFrontCommand : Obligations.StepTakesFrontCommand := by
  refine fun s => ⟨fun c rest h => ?_, fun h => ?_⟩
  · simp [step, h]
  · simp [step, h]

/-- Settles O2: each shipped value is read off, and the invariants hold of the empty store, log and link. -/
theorem resetIsTheShippedPart : Obligations.ResetIsTheShippedPart := by
  have hn : slotsNamed State.reset.tam.evidence.log State.reset.tam.slots :=
    (State.loseWorking_logWorks State.reset).named
  refine ⟨rfl, rfl, rfl, rfl, rfl, rfl, rfl, rfl, rfl, rfl, rfl, rfl, rfl, rfl, rfl, rfl, rfl, rfl, rfl, rfl, rfl, rfl, rfl, rfl, rfl,
    rfl, rfl, rfl, rfl, rfl, ?_, ?_, ?_, ?_, ?_, ?_, ?_, ?_, ?_, ?_, ?_⟩
  · exact ⟨by decide, by simp [State.carried, State.reset]⟩
  · exact ⟨Accumulators.inRange_zero, Accumulators.inRange_zero, by simp [State.carried, State.reset], Registration.inRange_begin.1.2.1,
      Registration.inRange_begin.1.2.2, Registration.inRange_begin.2⟩
  · exact ⟨AccountRec.inRange_shipped, by simp [State.carried, State.reset], by simp [State.underWay, State.reset],
      AccountSettings.inRange_shipped, by simp [State.carried, State.reset], by simp [State.underWay, State.reset]⟩
  · exact ⟨CodeRec.ordered_shipped, by simp [State.carried, State.reset]⟩
  · exact ⟨by decide, by simp [State.underWay, State.reset]⟩
  · exact (State.linkBounded_iff _).2 ⟨CodeUnit.bounded_begin, Link.bounded_begin⟩
  · exact ⟨by simp [State.reset, operatingState], fun _ => ⟨rfl, rfl⟩, by simp [State.reset]⟩
  · exact Nat.zero_le _
  · simp [State.identitySound, State.carried, State.reset]
  · exact ⟨⟨EvidenceRec.ordered_shipped, EvidenceRec.ordered_shipped, by simp [State.carried, State.reset]⟩,
      ⟨slotsOrdered_free, slotsOrdered_free, by simp [State.carried, State.reset]⟩, hn, Nat.zero_le _,
      by simp [State.reset, Tamper.begin, EvidenceRec.shipped], by simp [State.reset, Tamper.begin],
      ⟨by simp [State.reset, operatingState], fun _ => ⟨rfl, rfl⟩, by simp [State.reset]⟩,
      by simp [State.reset, Tamper.begin], by simp [State.reset]⟩
  · exact ⟨List.nodup_nil, List.nodup_nil⟩

end

section
/-! What a completion stores, and what a write that starts carries (O4). -/

namespace Sys2Proof.Machine

variable {c : Instr} {s t x : State}

/-! ### The writes in flight stay there -/

theorem StoreStep.flight_prefix {st : Store} (h : StoreStep .lineBreak x st) : x.store.flight <+: st.flight := by
  cases h with
  | pump => exact x.pump_flight_prefix
  | ask | drop => exact List.prefix_rfl
  | refill _ h => simp at h
  | cut _ h => simp at h

/-- A run of changes that belongs to no command of its own leaves in flight what was in flight. -/
theorem State.Reaches.flight_prefix (h : State.Reaches .lineBreak s x) : s.store.flight <+: x.store.flight := by
  induction h with
  | onStore f _ st ih => exact ih.trans st.flight_prefix
  | refl => exact List.prefix_rfl
  | stored _ _ _ h | failing h | ticked h | held h | begun _ _ h => simp [completionOf] at h
  | _ => assumption

theorem accountWritten_flight (w : Write) : s.store.flight <+: (accountWritten w s).store.flight :=
  (accountWritten_reaches .refl w).flight_prefix
theorem boundaryWritten_flight (w : Write) : s.store.flight <+: (boundaryWritten w s).store.flight :=
  (boundaryWritten_reaches .refl w).flight_prefix
theorem activationWritten_flight (w : Write) : s.store.flight <+: (activationWritten w s).store.flight :=
  (activationWritten_reaches .refl w).flight_prefix
theorem lockoutWritten_flight (w : Write) : s.store.flight <+: (lockoutWritten w s).store.flight :=
  (lockoutWritten_reaches .refl w).flight_prefix
theorem countedWritten_flight (w : Write) : s.store.flight <+: (countedWritten w s).store.flight :=
  (countedWritten_reaches .refl w).flight_prefix
theorem residueWritten_flight (w : Write) : s.store.flight <+: (residueWritten w s).store.flight :=
  (residueWritten_reaches .refl w).flight_prefix
theorem lifeWritten_flight (w : Write) : s.store.flight <+: (lifeWritten w s).store.flight :=
  (lifeWritten_reaches .refl w).flight_prefix
theorem switchWritten_flight (w : Write) : s.store.flight <+: (switchWritten w s).store.flight :=
  (switchWritten_reaches .refl w).flight_prefix
theorem identityWritten_flight (w : Write) : s.store.flight <+: (identityWritten w s).store.flight :=
  (identityWritten_reaches .refl w).flight_prefix
theorem configWritten_flight (w : Write) : s.store.flight <+: (configWritten w s).store.flight :=
  (configWritten_reaches .refl w).flight_prefix
theorem tariffWritten_flight (w : Write) : s.store.flight <+: (tariffWritten w s).store.flight :=
  (tariffWritten_reaches .refl w).flight_prefix
theorem otherWritten_flight (w : Write) : s.store.flight <+: (otherWritten w s).store.flight :=
  (otherWritten_reaches .refl w).flight_prefix

theorem entryWritten_flight (w : Write) : s.store.flight <+: (entryWritten w s).store.flight := by
  have h1 : s.store.flight <+:
      ((s.onSup fun u => { u with supply := { u.supply with trips := [], backoff := none } }).tamperEntry).store.flight :=
    State.Reaches.flight_prefix (s := s) (State.tamperEntry_reaches (State.Reaches.refl.onSup _ id))
  refine h1.trans (State.Reaches.flight_prefix (s := (((s.onSup fun u =>
    { u with supply := { u.supply with trips := [], backoff := none } }).tamperEntry).onLife
      fun v => { v with state := .inService, window := none }).pend .life) ?_)
  simp only [entryWritten]
  with_reducible repeat' first
    | exact State.Reaches.refl | apply State.answer_reaches | apply State.releaseHeld_reaches | apply State.judgeTamper_reaches
    | apply State.handHold_reaches | apply State.creditTest_reaches | split

theorem State.openWindow_store (m q : Nat) : (s.openWindow m q).store = s.store := by
  unfold State.openWindow
  dsimp only
  split <;> rfl

theorem acceptEffect_flight (w : Write) : s.store.flight <+: (acceptEffect w s).1.store.flight := by
  unfold acceptEffect
  split
  · exact (State.creditTest_reaches .refl _).flight_prefix
  · exact (State.clearLatches_reaches .refl _ _ _).flight_prefix
  · exact List.prefix_rfl
  · exact (congrArg Store.flight (State.openWindow_store _ _)).symm ▸ List.prefix_rfl
  · exact List.prefix_rfl

theorem acceptEffect_records (w : Write) :
    (acceptEffect w s).1.store.recs = s.store.recs ∧ (acceptEffect w s).1.store.bad = s.store.bad := by
  unfold acceptEffect
  split <;> simp

theorem acceptWritten_records (w : Write) :
    (acceptWritten w s).store.recs = s.store.recs ∧ (acceptWritten w s).store.bad = s.store.bad := by
  obtain ⟨h1, h2⟩ := acceptEffect_records (s := s) w
  simp only [acceptWritten]
  split <;> simp [h1, h2]

theorem acceptWritten_flight (w : Write) : s.store.flight <+: (acceptWritten w s).store.flight := by
  refine (acceptEffect_flight w).trans ?_
  simp only [acceptWritten]
  split
  · exact (State.endCode_reaches .refl _ _).flight_prefix
  · exact (State.setResult_reaches .refl _).flight_prefix

theorem State.finishStart_flight (s : State) : s.store.flight <+: s.finishStart.store.flight := by
  refine State.Reaches.flight_prefix (s := (s.onBackup fun b => { b with domain := .running }).onLink
    fun l => { l with receiver := .waitHigh }) ?_
  simp only [State.finishStart]
  exact State.restartSilence_reaches (State.pend_reaches (State.pend_reaches (State.pend_reaches (State.judgeTamper_reaches
    (State.handHold_reaches (State.clockTests_reaches (State.endCalendar_reaches .refl)) _ _)) _) _) _)

theorem State.tryEndStart_flight (s : State) : s.store.flight <+: s.tryEndStart.store.flight := by
  unfold State.tryEndStart
  split
  · split
    · exact List.prefix_rfl
    · exact s.finishStart_flight
  · exact List.prefix_rfl

theorem startWritten_flight (w : Write) : s.store.flight <+: (startWritten w s).store.flight :=
  State.tryEndStart_flight (s.onBackup _)

theorem setTimeWritten_flight (w : Write) : s.store.flight <+: (setTimeWritten w s).store.flight := by
  unfold setTimeWritten
  split
  · next v prior outcome a b e =>
    have h2 : s.store.flight <+: (((s.clockSet v).clockStep prior v outcome).evalFriendly).clockTests.store.flight :=
      State.Reaches.flight_prefix (s := s.onBackup fun b => { b with retained := { b.retained with clock := v, valid := true } })
        (State.clockTests_reaches (State.evalFriendly_reaches (State.clockStep_reaches (State.endFault_reaches .refl _) _ _ _)))
    dsimp only
    split
    · exact h2.trans (State.Reaches.flight_prefix (State.answer_reaches .refl _ _))
    · exact h2
  · exact List.prefix_rfl

/-! ### A completion -/

/-- No completion enters HOLDUP. -/
theorem State.Reaches.holdup (h : State.Reaches c s x) {sel : Purpose → Bool} (hc : completionOf c = some sel) (hh : x.holdup = true) :
    s.holdup = true := by
  induction h with
  | failing h | held h | begun _ _ h => simp [h, completionOf] at hc
  | onBackup f _ st ih => exact ih (by simpa [State.holdup] using st.holdup (by simpa [State.holdup] using hh))
  | refl | stored | ticked => exact hh
  | _ => exact ‹_ → _› hh

/-- What the completion of a write leaves behind: the records with its values in them, a record failing exactly if it failed before
and the write does not cover it, and in MAINS the other writes in flight. -/
def State.keepsStored (s : State) (w : Write) (rest : List Write) (t : State) : Prop :=
  t.store.recs = w.puts.foldl Records.put s.store.recs ∧ (∀ r, r ∈ t.store.bad ↔ r ∈ s.store.bad ∧ r ∉ w.purpose.covers) ∧
    (s.mains = true → rest <+: t.store.flight)

/-- A completion stores its write, when its effect keeps the records and the writes in flight and enters no HOLDUP. -/
theorem State.complete_keepsStored {sel : Purpose → Bool} {w : Write} {rest : List Write} {effect : Write → State → State}
    (hc : completionOf c = some sel) (h : s.completes sel w rest)
    (he : ∀ x : State, (effect w x).store.recs = x.store.recs ∧ (effect w x).store.bad = x.store.bad)
    (hf : ∀ x : State, x.store.flight <+: (effect w x).store.flight)
    (hr : State.Reaches c s (effect w (s.stored w rest))) :
    s.keepsStored w rest (s.complete sel effect) := by
  obtain ⟨h1, h2⟩ := he (s.stored w rest)
  rw [s.complete_eq effect h]
  refine ⟨?_, fun r => ?_, fun hm => ?_⟩
  · simp only [State.settle_keeps, State.pump_keeps, h1]
    rfl
  · simp only [State.settle_keeps, State.pump_keeps, h2]
    simp [State.stored, State.onStore, Store.commit]
  · have hp : rest <+: (effect w (s.stored w rest)).pump.store.flight :=
      (hf (s.stored w rest)).trans (State.pump_flight_prefix _)
    rcases State.settle_cases (effect w (s.stored w rest)).pump with e | ⟨hh, -⟩
    · rwa [e]
    · have := (State.pump_reaches hr).holdup hc hh
      exact absurd this (by simp [State.mains_not_holdup s hm])

theorem State.stored_reaches {sel : Purpose → Bool} {w : Write} {rest : List Write} (hc : completionOf c = some sel)
    (h : s.completes sel w rest) : State.Reaches c s (s.stored w rest) := .stored sel w rest hc h

theorem setTimeWritten_stored_reaches {w : Write} {rest : List Write} (h : s.completes Purpose.isSetTime w rest) :
    State.Reaches .setTimeWriteComplete s (setTimeWritten w (s.stored w rest)) := by
  refine setTimeWritten_reaches (State.stored_reaches rfl h) rfl w fun v a b d e hp hr => ?_
  obtain ⟨-, hm, -⟩ := takeFlight_mem h
  exact hr.2 w.purpose (List.mem_append_left _ (List.mem_map_of_mem (hm.mem_iff.2 List.mem_cons_self))) v a b d e hp

/-- Every completion command stores the write it completes. -/
theorem exec_keepsStored {sel : Purpose → Bool} {w : Write} {rest : List Write} (hc : completionOf c = some sel)
    (h : s.completes sel w rest) : ∃ t, exec c s = .next t ∧ s.keepsStored w rest t := by
  have hr : State.Reaches c s (s.stored w rest) := State.stored_reaches hc h
  cases c <;> simp only [completionOf, Option.some.injEq, reduceCtorEq] at hc <;> subst hc
  case accountWriteComplete =>
    exact ⟨_, rfl, State.complete_keepsStored (effect := accountWritten) rfl h (by simp) (fun _ => accountWritten_flight w)
      (accountWritten_reaches hr w)⟩
  case dayBoundaryWriteComplete =>
    exact ⟨_, rfl, State.complete_keepsStored (effect := boundaryWritten) rfl h (by simp) (fun _ => boundaryWritten_flight w)
      (boundaryWritten_reaches hr w)⟩
  case entryWriteComplete =>
    exact ⟨_, rfl, State.complete_keepsStored (effect := entryWritten) rfl h (by simp) (fun _ => entryWritten_flight w)
      (entryWritten_reaches hr rfl w)⟩
  case tariffActivationComplete =>
    exact ⟨_, rfl, State.complete_keepsStored (effect := activationWritten) rfl h (by simp) (fun _ => activationWritten_flight w)
      (activationWritten_reaches hr w)⟩
  case lockoutEndWriteComplete =>
    exact ⟨_, rfl, State.complete_keepsStored (effect := lockoutWritten) rfl h (by simp) (fun _ => lockoutWritten_flight w)
      (lockoutWritten_reaches hr w)⟩
  case setTimeWriteComplete =>
    exact ⟨_, rfl, State.complete_keepsStored (effect := setTimeWritten) rfl h (by simp) (fun _ => setTimeWritten_flight w)
      (setTimeWritten_stored_reaches h)⟩
  case countedFailureWriteComplete =>
    exact ⟨_, rfl, State.complete_keepsStored (effect := countedWritten) rfl h (by simp) (fun _ => countedWritten_flight w)
      (countedWritten_reaches hr w)⟩
  case codeAcceptWriteComplete =>
    exact ⟨_, rfl, State.complete_keepsStored (effect := acceptWritten) rfl h (fun _ => acceptWritten_records w) (fun _ => acceptWritten_flight w)
      (acceptWritten_reaches hr rfl w)⟩
  case switchRecordWriteComplete =>
    exact ⟨_, rfl, State.complete_keepsStored (effect := switchWritten) rfl h (by simp) (fun _ => switchWritten_flight w)
      (switchWritten_reaches hr w)⟩
  case startWriteComplete =>
    exact ⟨_, rfl, State.complete_keepsStored (effect := startWritten) rfl h (by simp) (fun _ => startWritten_flight w)
      (startWritten_reaches hr rfl w)⟩
  case residueWriteComplete =>
    exact ⟨_, rfl, State.complete_keepsStored (effect := residueWritten) rfl h (by simp) (fun _ => residueWritten_flight w)
      (residueWritten_reaches hr w)⟩
  case durableWriteComplete record =>
    exact ⟨_, rfl, State.complete_keepsStored (effect := otherWritten) (c := .durableWriteComplete record) rfl h (by simp) (fun _ => otherWritten_flight w)
      (otherWritten_reaches hr w)⟩
  case lifeRecordWriteComplete =>
    exact ⟨_, rfl, State.complete_keepsStored (effect := lifeWritten) rfl h (by simp) (fun _ => lifeWritten_flight w)
      (lifeWritten_reaches hr w)⟩
  case identityWriteComplete =>
    exact ⟨_, rfl, State.complete_keepsStored (effect := identityWritten) rfl h (by simp) (fun _ => identityWritten_flight w)
      (identityWritten_reaches hr w)⟩
  case configWriteComplete =>
    exact ⟨_, rfl, State.complete_keepsStored (effect := configWritten) rfl h (by simp) (fun _ => configWritten_flight w)
      (configWritten_reaches hr w)⟩
  case tariffWriteComplete =>
    exact ⟨_, rfl, State.complete_keepsStored (effect := tariffWritten) rfl h (by simp) (fun _ => tariffWritten_flight w)
      (tariffWritten_reaches hr w)⟩

/-! ### What starts -/

theorem State.pump_flight (p : Purpose) (h1 : s.store.flight = []) (h2 : s.store.waiting.find? s.startsNext = some p) :
    s.pump.store.flight = [⟨p, p.puts s⟩] := by
  simp [State.pump, State.onStore, h1, h2]

/-- With nothing in flight or waiting, a write requested in MAINS starts with the values as they stand. -/
theorem State.request_flight (p : Purpose) (hm : s.mains = true) (h1 : s.store.flight = []) (h2 : s.store.waiting = []) :
    (s.request p).store.flight = [⟨p, p.puts s⟩] := by
  have e : s.request p = (s.onStore fun st => { st with waiting := [p] }).pump := by
    unfold State.request
    rw [if_neg (by simp [State.mains_not_holdup s hm])]
    simp only [State.onStore, h2, addRequest]
  rw [e, State.pump_starts _ p [] (by simpa [State.mains] using hm) (by simpa using h1) rfl]
  simp only [State.onStore]
  exact congrArg (fun v => [Write.mk p v]) (Purpose.puts_waiting s p [p])

end Sys2Proof.Machine
end

section
open Sys2Proof Sys2Proof.Machine

/-- Settles O4: a completion is the write's values put in and then an effect that keeps records and flight (exec_keepsStored); a
write that starts takes its values from the state (Purpose.carries_puts, exec_flightFrom). -/
theorem completionStoresTheWrite : Obligations.CompletionStoresTheWrite := by
  refine ⟨fun c sel s w rest hc h => exec_keepsStored hc h, fun s p h1 h2 => ⟨_, State.pump_flight p h1 h2, p.carries_puts s⟩,
    fun s p hm h1 h2 => ⟨_, State.request_flight p hm h1 h2, p.carries_puts s⟩, fun c s t w h hw hn => ?_⟩
  obtain h' | ⟨⟨u, hu, hp⟩, -⟩ := exec_flightFrom h w hw
  · exact absurd h' hn
  · exact ⟨u, hu, hp ▸ w.purpose.carries_puts u⟩

end

section
/-! The host link: the receiver (O19, O20), what a valid frame does (O18, O21), the transmitter (O22) and the end of a reply (O23). -/

namespace Sys2Proof.Machine

variable {c : Instr} {s t x : State} {kind : Byte} {payload : List Byte}

/-! ### A valid frame -/

@[simp] theorem State.latchEnd_link (s : State) (k : EvClass) : (s.latchEnd k).link = s.link := by
  simp only [State.latchEnd, State.arrive, State.takeArrival, State.recordEnd]
  (repeat' split) <;> simp_all

@[simp] theorem State.endSilence_link (s : State) : s.endSilence.link = s.link := by
  unfold State.endSilence
  split <;> simp

theorem State.validFrame_link (s : State) (k : Byte) (p : List Byte) :
    (s.validFrame k p).link = { s.link with silenceRunning := s.mains && s.config.silence != 0 }.handle k p := by
  simp [State.validFrame, State.restartSilence, State.onLink]

/-- The frame becomes the request in hand where there is none. -/
theorem Link.handle_of_none {l : Link} (h : l.inHand = none) (k : Byte) (p : List Byte) :
    l.handle k p = { l with inHand := some ⟨k, p, firstStage k p⟩ } := by
  simp [Link.handle, h]

/-- With a request in hand the frame owes a BUSY, unless one is owed. -/
theorem Link.handle_of_some {l : Link} {r : InHand} (h : l.inHand = some r) (k : Byte) (p : List Byte) :
    l.handle k p = { l with busyOwed := some (l.busyOwed.getD ⟨replyKind k, false⟩) } := by
  cases hb : l.busyOwed with
  | none => simp [Link.handle, h, hb]
  | some b =>
    simp only [Link.handle, h, hb, Option.getD_some]
    rw [← h, ← hb]

theorem State.validFrame_linkUp (s : State) (k : Byte) (p : List Byte) : (s.validFrame k p).linkUp = s.linkUp := by
  simp [State.linkUp, State.running, State.mains, State.holdup]

theorem State.validFrame_inHand (k : Byte) (p : List Byte) (h : s.link.inHand = none) :
    (s.validFrame k p).link.inHand = some ⟨k, p, firstStage k p⟩ := by
  rw [State.validFrame_link]
  exact congrArg Link.inHand (Link.handle_of_none (l := { s.link with silenceRunning := s.mains && s.config.silence != 0 }) h k p)

/-- What a valid frame leaves of the link but the request in hand and the BUSY owed. -/
theorem Link.handle_others (l : Link) (k : Byte) (p : List Byte) :
    (l.handle k p).silenceRunning = l.silenceRunning ∧ (l.handle k p).notices = l.notices ∧ (l.handle k p).sending = l.sending := by
  simp only [Link.handle]
  (repeat' split) <;> exact ⟨rfl, rfl, rfl⟩

theorem State.latchEnd_linkSilence (s : State) (k : EvClass) : (s.latchEnd k).tam.linkSilence = s.tam.linkSilence := by
  simp only [State.latchEnd, State.arrive, State.takeArrival, State.recordEnd, State.editLog]
  (repeat' split) <;> simp_all

/-- LINK-SILENCE ends at a valid frame. -/
theorem State.validFrame_linkSilence (s : State) (k : Byte) (p : List Byte) : (s.validFrame k p).tam.linkSilence = false := by
  change s.restartSilence.endSilence.tam.linkSilence = false
  unfold State.endSilence
  split
  · rw [State.latchEnd_linkSilence]
    rfl
  · next h => simpa using h

theorem State.validFrame_agreeBut (s : State) (k : Byte) (p : List Byte) :
    State.agreeBut [.store, .tam, .link] s (s.validFrame k p) := by
  simp [State.agreeBut_iff, State.validFrame_sw]

/-! ### A request command -/

/-- A command that is a request's is its frame's arrival, or its owner's examination, or both. -/
theorem exec_request (c : Instr) : requestOf c = none ∨
    ∃ kind payload examine, requestOf c = some (kind, payload) ∧ ∀ s, exec c s = .next (s.onRequest kind payload examine) := by
  cases c
  all_goals first | exact .inl rfl | exact .inr ⟨_, _, _, rfl, fun _ => rfl⟩

theorem exec_of_requestOf (h : requestOf c = some (kind, payload)) :
    ∃ examine, ∀ s, exec c s = .next (s.onRequest kind payload examine) := by
  rcases exec_request c with e | ⟨k, p, examine, e, he⟩ <;> rw [h] at e
  · simp at e
  · simp only [Option.some.injEq, Prod.mk.injEq] at e
    obtain ⟨rfl, rfl⟩ := e
    exact ⟨examine, he⟩

theorem State.onRequest_of_none (f : State → State) (hu : s.linkUp = true) (hr : s.link.receiver = .hunting)
    (h : s.link.inHand = none) : s.onRequest kind payload f =
      if lengthOk kind payload = some true then f (s.validFrame kind payload) else s.validFrame kind payload := by
  simp [State.onRequest, hu, hr, h]

theorem State.onRequest_of_other (f : State → State) (hu : s.linkUp = true) (hr : s.link.receiver = .hunting) {r : InHand}
    (h : s.link.inHand = some r) (hne : r ≠ ⟨kind, payload, .owner⟩) :
    s.onRequest kind payload f = s.validFrame kind payload := by
  simp [State.onRequest, hu, hr, h, hne]

/-! ### The receiver -/

/-- The state with the receiver elsewhere. -/
def State.receiving (r : Receiver) (s : State) : State := s.onLink fun l => { l with receiver := r }

theorem State.receiving_self (h : s.link.receiver = r) : s.receiving r = s := by
  subst h
  rfl

/-- A byte within a frame is taken with those before it. -/
theorem State.takeByte_within {left : Nat} (taken : List Byte) (b : Byte) (h : 1 < left) :
    (s.receiving (.within left taken)).takeByte ⟨b, true⟩ = s.receiving (.within (left - 1) (b :: taken)) := by
  simp [State.takeByte, State.receiving, State.onLink, Nat.not_le.2 h]

theorem State.takeBytes_within (bs : List Byte) : ∀ (left : Nat) (taken : List Byte), bs.length < left →
    (received bs).foldl State.takeByte (s.receiving (.within left taken)) =
      s.receiving (.within (left - bs.length) (bs.reverse ++ taken)) := by
  induction bs with
  | nil => exact fun _ _ _ => rfl
  | cons b bs ih =>
    intro left taken h
    simp only [List.length_cons] at h
    simp only [received, List.map_cons, List.foldl_cons] at ih ⊢
    rw [State.takeByte_within taken b (by omega), ih _ _ (by omega)]
    simp [Nat.sub_sub, Nat.add_comm]

/-- The last byte of a frame hands on the bytes since the sync byte. -/
theorem State.takeByte_last (taken : List Byte) (b : Byte) :
    (s.receiving (.within 1 taken)).takeByte ⟨b, true⟩ = (s.receiving (.within 1 taken)).frameDone (taken.reverse ++ [b]) := by
  simp [State.takeByte, State.receiving, State.onLink]

/-- The sync byte and a good length byte begin a frame. -/
theorem State.takeByte_begins (h : s.link.receiver = .hunting) {n : Byte} (h0 : n ≠ 0) (hn : n.toNat ≤ 250) :
    (s.takeByte ⟨0xC3, true⟩).takeByte ⟨n, true⟩ = s.receiving (.within (n.toNat + 2) [n]) := by
  have h0 : ¬ n = 0#8 := h0
  simp [State.takeByte, h, syncByte, State.onLink, State.receiving, h0, Nat.not_lt.2 hn]

/-- A frame of a good length, whatever its CRC: the bytes since the sync byte are judged together. -/
theorem State.takeFrame_bytes (h : s.link.receiver = .hunting) {n : Byte} {body : List Byte} (h0 : n ≠ 0) (hn : n.toNat ≤ 250)
    (hb : body.length = n.toNat + 2) :
    ∃ left taken, (received (0xC3 :: n :: body)).foldl State.takeByte s = (s.receiving (.within left taken)).frameDone (n :: body) := by
  obtain ⟨init, b, rfl⟩ : ∃ init b, body = init ++ [b] :=
    ⟨body.dropLast, body.getLast (by rintro rfl; simp at hb), (List.dropLast_append_getLast _).symm⟩
  refine ⟨1, init.reverse ++ [n], ?_⟩
  have hl : init.length = n.toNat + 1 := by simpa using hb
  simp only [received, List.map_cons, List.map_append, List.map_nil, List.foldl_cons, List.foldl_append, List.foldl_nil]
  rw [State.takeByte_begins h h0 hn]
  have := State.takeBytes_within (s := s) init (n.toNat + 2) [n] (by omega)
  rw [received] at this
  rw [this, show n.toNat + 2 - init.length = 1 by omega, State.takeByte_last]
  simp

/-- The judgement of a frame's bytes: good where the CRC is that of the bytes it covers. -/
theorem State.frameDone_covered (left : Nat) (taken : List Byte) (n k : Byte) (p : List Byte) (crc : BitVec 16)
    (h : s.link.receiver = .hunting) :
    (s.receiving (.within left taken)).frameDone (n :: k :: (p ++ beBytes 2 crc.toNat)) =
      if frameCrc (n :: k :: p) = crc then s.validFrame k p
      else s.onLink fun l => { l with crcErrors := min 65535 (l.crcErrors + 1) } := by
  have hl : (n :: k :: (p ++ beBytes 2 crc.toNat)).length - 2 = p.length + 2 := by simp
  have ht : (n :: k :: (p ++ beBytes 2 crc.toNat)).take (p.length + 2) = n :: k :: p := by simp
  have hd : (n :: k :: (p ++ beBytes 2 crc.toNat)).drop (p.length + 2) = beBytes 2 crc.toNat := by simp
  have hc : BitVec.ofNat 16 (ofBytes (beBytes 2 crc.toNat)) = crc := by
    rw [ofBytes_beBytes (by simpa using crc.isLt)]
    simp
  have hs : (s.receiving (.within left taken)).onLink (fun l => { l with receiver := .hunting }) = s := State.receiving_self h
  unfold State.frameDone
  simp only [hl, ht, hd, hc, hs]
  congr 1
  simp only [State.receiving, State.onLink, Link.countCrc, saturate]
  rw [h]

theorem syncs_iff (b : RxByte) : (b.stopBit && b.value == syncByte) = true ↔ b.stopBit = true ∧ b.value = 0xC3 := by
  simp [syncByte]

/-- What is not a sync byte with a good stop bit is passed over while the receiver hunts. -/
theorem State.takeBytes_noise (h : s.link.receiver = .hunting) {noise : List RxByte}
    (hn : ∀ b ∈ noise, b.stopBit = false ∨ b.value ≠ 0xC3) : noise.foldl State.takeByte s = s := by
  induction noise with
  | nil => rfl
  | cons b rest ih =>
    have hb : s.takeByte b = s := by
      unfold State.takeByte
      simp only [h]
      refine if_neg fun e => ?_
      obtain ⟨h1, h2⟩ := (syncs_iff b).1 e
      exact (hn b List.mem_cons_self).elim (fun e => by simp [h1] at e) (absurd h2)
    rw [List.foldl_cons, hb]
    exact ih fun b hb => hn b (List.mem_cons_of_mem _ hb)

theorem toNat_frameLength (h : payload.length ≤ 249) : (BitVec.ofNat 8 (payload.length + 1)).toNat = payload.length + 1 := by
  simp
  omega

/-- A frame with the CRC given, received while the receiver hunts. -/
theorem State.takeFrame_crc (hu : s.linkUp = true) (h : s.link.receiver = .hunting) (hp : payload.length ≤ 249) (crc : BitVec 16)
    {noise : List RxByte} (hn : ∀ b ∈ noise, b.stopBit = false ∨ b.value ≠ 0xC3) :
    s.takeFrame (noise ++ received (0xC3 :: BitVec.ofNat 8 (payload.length + 1) :: kind :: (payload ++ beBytes 2 crc.toNat))) =
      if frameCrc (BitVec.ofNat 8 (payload.length + 1) :: kind :: payload) = crc then s.validFrame kind payload
      else s.onLink fun l => { l with crcErrors := min 65535 (l.crcErrors + 1) } := by
  have hl := toNat_frameLength hp
  unfold State.takeFrame
  rw [if_pos hu, List.foldl_append, State.takeBytes_noise h hn]
  obtain ⟨left, taken, e⟩ := State.takeFrame_bytes h (n := BitVec.ofNat 8 (payload.length + 1))
    (body := kind :: (payload ++ beBytes 2 crc.toNat)) (fun e => by simp [e] at hl) (by omega) (by simp [hl])
  rw [e, State.frameDone_covered left taken _ _ _ _ h]

theorem State.takeFrame_frameBytes (hu : s.linkUp = true) (h : s.link.receiver = .hunting) (hp : payload.length ≤ 249)
    {noise : List RxByte} (hn : ∀ b ∈ noise, b.stopBit = false ∨ b.value ≠ 0xC3) :
    s.takeFrame (noise ++ received (frameBytes kind payload)) = s.validFrame kind payload :=
  (State.takeFrame_crc hu h hp _ hn).trans (if_pos rfl)

/-! ### The transmitter -/

/-- The first to pass a test, of a list in strictly ascending order, is the least that passes. -/
theorem find?_eq_of_least {α : Type} {f : α → Nat} {q : α → Bool} {l : List α} (hl : l.Pairwise fun a b => f a < f b) {a : α}
    (ha : a ∈ l) (hq : q a = true) (hm : ∀ b ∈ l, q b = true → f a ≤ f b) : l.find? q = some a := by
  obtain ⟨init, rest, rfl⟩ := List.append_of_mem ha
  rw [List.find?_append, List.find?_eq_none.2, Option.none_or, List.find?_cons_of_pos hq]
  intro b hb hqb
  have := (List.pairwise_append.1 hl).2.2 b hb a List.mem_cons_self
  have := hm b (by simp [hb]) hqb
  omega

theorem allNotices_ascending : allNotices.Pairwise fun a b => a.kindByte.toNat < b.kindByte.toNat := by decide

theorem mem_allNotices (n : Notice) : n ∈ allNotices := by cases n <;> decide

/-- The pending notice of lowest kind. -/
theorem Link.lowestNotice_eq {l : Link} {n : Notice} (hn : n ∈ l.notices)
    (hm : ∀ m ∈ l.notices, n.kindByte.toNat ≤ m.kindByte.toNat) : l.lowestNotice = some n :=
  find?_eq_of_least allNotices_ascending (mem_allNotices n) (by simpa using hn) fun m _ h => hm m (by simpa using h)

theorem Link.readyReply_iff (l : Link) (k : Byte) (body : List Byte) :
    l.readyReply = some (k, body) ↔ ∃ p, l.inHand = some ⟨k, p, .replied body⟩ := by
  unfold Link.readyReply
  split
  · next k' p' b' h => simp [h]
  · next h =>
    simp only [reduceCtorEq, false_iff, not_exists]
    exact fun p e => h _ _ _ e

theorem Link.readyBusy_iff (l : Link) (k : Byte) : l.readyBusy = some k ↔ l.busyOwed = some ⟨k, true⟩ := by
  unfold Link.readyBusy
  split
  · next k' h => simp [h]
  · next h =>
    simp only [reduceCtorEq, false_iff]
    exact fun e => h _ e

theorem Link.readyReply_none {l : Link} (h : ∀ k p body, l.inHand ≠ some ⟨k, p, .replied body⟩) : l.readyReply = none :=
  Option.eq_none_iff_forall_ne_some.2 fun ⟨k, body⟩ e => by
    obtain ⟨p, e⟩ := (l.readyReply_iff k body).1 e
    exact h _ _ _ e

theorem Link.readyBusy_none {l : Link} (h : ∀ k, l.busyOwed ≠ some ⟨k, true⟩) : l.readyBusy = none :=
  Option.eq_none_iff_forall_ne_some.2 fun k e => h k ((l.readyBusy_iff k).1 e)

theorem Link.lowestNotice_none {l : Link} (h : l.notices = []) : l.lowestNotice = none := by
  simp [Link.lowestNotice, h]

theorem State.transmit_sending (h : s.link.sending.isSome = true) : s.transmit = s := by simp [State.transmit, h]

theorem State.transmit_reply (hc : s.canSend = true) (h : s.link.sending = none) {k : Byte} {body : List Byte}
    (hr : s.link.readyReply = some (k, body)) :
    s.transmit = s.onLink fun l => { l with sending := some ⟨.reply, frameBytes (replyKind k) body⟩ } := by
  simp [State.transmit, hc, h, hr]

theorem State.transmit_busy (hc : s.canSend = true) (h : s.link.sending = none) (hr : s.link.readyReply = none) {k : Byte}
    (hb : s.link.readyBusy = some k) :
    s.transmit = s.onLink fun l => { l with busyOwed := none, sending := some ⟨.busy, frameBytes k [0x02]⟩ } := by
  simp [State.transmit, hc, h, hr, hb, Status.byte]

theorem State.transmit_notice (hc : s.canSend = true) (h : s.link.sending = none) (hr : s.link.readyReply = none)
    (hb : s.link.readyBusy = none) : s.transmit = match s.link.lowestNotice with
      | some n => (s.onLink fun l => { l with
          notices := l.notices.filter (· ≠ n)
          sending := some ⟨.notice n, frameBytes n.kindByte (s.noticeBody n)⟩ }).useFree freePerFrame
      | none => s := by
  simp only [State.transmit, hc, h, hr, hb]
  rfl

/-! ### The end of a reply, and RESTART -/

theorem Link.restartReplied_iff (l : Link) : l.restartReplied = true ↔ ∃ p, l.inHand = some ⟨0x2B, p, .replied [0x00]⟩ := by
  unfold Link.restartReplied
  split
  · next k p body h => simp [h, Status.byte]
  · next h =>
    simp only [Bool.false_eq_true, false_iff, not_exists]
    exact fun p e => h _ _ _ e

/-- What the end of a reply makes of the link. -/
def Link.replySent (l : Link) : Link := { l with
  sending := none, inHand := none, busyOwed := l.busyOwed.map fun b => { b with ready := true }
  restartDue := l.restartDue || (l.restartReplied && l.busyOwed.isSome) }

theorem State.sent_reply {bytes : List Byte} (hc : s.canSend = true) (h : s.link.sending = some ⟨.reply, bytes⟩) :
    s.sent = if s.link.restartReplied && s.link.busyOwed.isNone then (s.onLink Link.replySent).awaitRestart
      else s.onLink Link.replySent := by
  simp only [State.sent, hc, h]
  rfl

theorem State.sent_busy {bytes : List Byte} (hc : s.canSend = true) (h : s.link.sending = some ⟨.busy, bytes⟩) :
    s.sent = if s.link.restartDue then (s.onLink fun l => { l with sending := none }).awaitRestart
      else s.onLink fun l => { l with sending := none } := by
  simp only [State.sent, hc, h]
  rfl

/-- The residue record's write takes the place of one that waits. -/
theorem State.requestResidue_asked (s : State) (v r : Bool) :
    s.store.flight <+: (s.requestResidue v r).store.flight ∧ Purpose.residue v r ∈ (s.requestResidue v r).underWay := by
  obtain ⟨-, hf, hp⟩ := (s.onStore fun st => { st with waiting := st.waiting.filter fun p => !p.isResidue }).request_asks
    (.residue v r) rfl (.inr rfl)
  exact ⟨hf, hp.mem_iff.2 (by simp)⟩

end Sys2Proof.Machine
end

section
open Sys2Proof Sys2Proof.Machine

/-- Settles O18: the request command is its frame's arrival followed by the examination of what is then in hand. -/
theorem requestCommandsStandForFrames : Obligations.RequestCommandsStandForFrames := by
  intro c kind payload s hc hu hr
  obtain ⟨examine, he⟩ := exec_of_requestOf hc
  refine ⟨fun hn hl => ?_, fun hn hl => ?_, fun r h hne => ?_⟩
  · have hx : (s.validFrame kind payload).examines kind payload :=
      ⟨(s.validFrame_linkUp _ _).trans hu, by rw [State.validFrame_inHand _ _ hn]; simp [firstStage, hl]⟩
    refine ⟨hx, ?_⟩
    rw [he, he, State.onRequest_examines _ _ hx, State.onRequest_of_none examine hu hr hn, if_pos hl]
  · rw [he, State.onRequest_of_none examine hu hr hn, if_neg (by simp [hl]), State.validFrame_inHand _ _ hn]
    exact ⟨rfl, by simp [firstStage, hl]⟩
  · rw [he, State.onRequest_of_other examine hu hr h hne]

/-- Settles O19: the noise is passed over and the frame's own CRC is that of the bytes it covers (State.takeFrame_frameBytes). -/
theorem frameRoundTrip : Obligations.FrameRoundTrip := by
  intro kind payload noise s hp hn hu hr
  exact congrArg Host.Outcome.next (State.takeFrame_frameBytes hu hr hp hn)

/-- Settles O20: the receiver's step at each fault of the line. -/
theorem lineErrorsAreCounted : Obligations.LineErrorsAreCounted := by
  intro s hu
  refine ⟨fun b hf => ?_, fun b hf hb => ?_, fun b hr hb => ?_, fun n hr hn => ?_, fun k p crc hr hp hc => ?_, ?_, fun hr => ?_⟩
  · refine congrArg Host.Outcome.next ?_
    simp only [State.gapSeen, hu, hf, Bool.and_self, if_true, State.takeByte, State.onLink, Link.countGap, saturate]
    by_cases h : b.stopBit = true ∧ b.value = 0xC3
    · rw [if_pos ((syncs_iff b).2 h), if_pos h]
    · rw [if_neg (mt (syncs_iff b).1 h), if_neg h]
  · refine congrArg Host.Outcome.next ?_
    simp only [State.takeFrame, hu, if_true, List.foldl_cons, List.foldl_nil, State.takeByte]
    cases hr : s.link.receiver <;> simp [hr, Receiver.inFrame] at hf <;>
      simp [hb, State.onLink, Link.countFormat, saturate]
  · refine congrArg Host.Outcome.next ?_
    simp [State.takeFrame, hu, State.takeByte, hr, hb]
  · refine congrArg Host.Outcome.next ?_
    have h : n = 0#8 ∨ 250 < n.toNat := hn
    simp [State.takeFrame, hu, received, State.takeByte, hr, syncByte, State.onLink, Link.countFormat, saturate]
    exact h.resolve_left
  · refine congrArg Host.Outcome.next ((State.takeFrame_crc hu hr hp crc (noise := []) (by simp)).trans ?_)
    rw [if_neg (fun e => hc e.symm)]
    rfl
  · simp [exec, execLineBreak, State.breakSeen, hu, State.onLink]
  · simp [exec, execLineHighHunt, State.lineHigh, hu, hr, State.onLink]

/-- Settles O21: the bytes are received as the frame, and what the frame does to the link (State.validFrame_link). -/
theorem validFramesBecomeRequests : Obligations.ValidFramesBecomeRequests := by
  intro kind payload s hp hu hr
  have e : s.takeFrame (received (frameBytes kind payload)) = s.validFrame kind payload :=
    State.takeFrame_frameBytes hu hr hp (noise := []) (by simp)
  refine ⟨_, congrArg Host.Outcome.next e, s.validFrame_agreeBut kind payload, fun h => ?_, fun r h => ?_,
    s.validFrame_linkSilence _ _, ?_⟩
  · rw [State.validFrame_link, Link.handle_of_none (l := { s.link with silenceRunning := s.mains && s.config.silence != 0 }) h]
    refine ⟨rfl, congrArg (fun g => some (InHand.mk kind payload g)) ?_⟩
    unfold firstStage
    cases hl : lengthOk kind payload with
    | none => rfl
    | some b => cases b <;> rfl
  · rw [State.validFrame_link, Link.handle_of_some (l := { s.link with silenceRunning := s.mains && s.config.silence != 0 }) h]
    exact ⟨h, rfl⟩
  · rw [State.validFrame_link]
    exact Link.handle_others _ _ _

/-- Settles O22: the branches of the transmitter in their order, with the pending notice of lowest kind (Link.lowestNotice_eq). -/
theorem transmitterPriority : Obligations.TransmitterPriority := by
  refine fun s hc => ⟨fun m h => congrArg Host.Outcome.next (State.transmit_sending (by simp [h])), fun h =>
    ⟨fun k p body hr => ?_, fun hr => ?_⟩⟩
  · exact congrArg Host.Outcome.next (State.transmit_reply hc h ((s.link.readyReply_iff k body).2 ⟨p, hr⟩))
  · have hr := Link.readyReply_none hr
    refine ⟨fun k hb => congrArg Host.Outcome.next (State.transmit_busy hc h hr ((s.link.readyBusy_iff k).2 hb)), fun hb => ?_⟩
    have hb := Link.readyBusy_none hb
    refine ⟨fun hn => congrArg Host.Outcome.next ?_, fun n hn hm => ⟨s.transmit, rfl, ?_⟩⟩
    · rw [State.transmit_notice hc h hr hb, Link.lowestNotice_none hn]
    · rw [State.transmit_notice hc h hr hb, Link.lowestNotice_eq hn hm]
      exact ⟨by simp [State.agreeBut_iff], rfl⟩

/-- Settles O23: the end of a reply and of a BUSY (State.sent_reply, State.sent_busy), and the examination of RESTART. -/
theorem repliesEndAndRestartFollows : Obligations.RepliesEndAndRestartFollows := by
  refine fun s => ⟨fun bytes hc h => ⟨s.sent, rfl, ?_⟩, fun bytes hc h => ?_, fun hx => ⟨_, rfl, fun hh => ?_, fun hh => ?_⟩⟩
  · rw [State.sent_reply hc h]
    refine ⟨by split <;> simp [State.agreeBut_iff, State.awaitRestart], ?_⟩
    by_cases hr : s.link.restartReplied = true
    · have hx := s.link.restartReplied_iff.1 hr
      cases hb : s.link.busyOwed with
      | none =>
        simp only [hr, Option.isNone_none, Bool.and_self, if_true]
        refine ⟨rfl, rfl, by simp [State.awaitRestart, State.onLink, Link.replySent, hb], rfl, fun _ => ⟨fun _ => rfl, by simp⟩,
          fun hn => absurd hx (not_exists.2 hn)⟩
      | some b =>
        simp only [hr, Option.isNone_some, Bool.and_false, Bool.false_eq_true, if_false]
        exact ⟨rfl, rfl, by simp [State.onLink, Link.replySent, hb], rfl,
          fun _ => ⟨by simp, fun _ => ⟨rfl, by simp [State.onLink, Link.replySent, hr, hb]⟩⟩, fun hn => absurd hx (not_exists.2 hn)⟩
    · have hx := mt s.link.restartReplied_iff.2 hr
      simp only [hr, Bool.false_and, Bool.false_eq_true, if_false]
      exact ⟨rfl, rfl, rfl, rfl, fun hp => absurd hp hx, fun _ => ⟨rfl, by simp [State.onLink, Link.replySent, hr]⟩⟩
  · refine congrArg Host.Outcome.next ?_
    rw [State.sent_busy hc h]
    split <;> simp [State.awaitRestart, State.onLink, State.onBackup, *]
  · rw [State.onRequest_examines _ _ hx, State.examineRestart, if_pos hh]
    exact State.answer_onlyReplied s _ _
  · rw [State.onRequest_examines _ _ hx, State.examineRestart, if_neg (by simp [hh])]
    obtain ⟨hf, hp⟩ := State.requestResidue_asked ((s.onReg fun r => { r with blockOpen := false }).await) true true
    exact ⟨by simp, by simp [State.await, Link.atStage], by simp [State.sameRecords], hf, hp, by simp [State.agreeBut_iff]⟩

end

section
/-! The operations that blocks make of their own accord go onward: they make notices pending and ask for writes, and neither answer
a request nor store nor drop a write. -/

namespace Sys2Proof.Machine

variable {b s t : State}

/-- The second write serves a request for the first: they are the same, but that an evidence write may cover more (R161). -/
def Purpose.servedBy : Purpose → Purpose → Prop
  | .evidenceLog ev snap, q => ∃ ev' snap', q = .evidenceLog ev' snap' ∧ (ev = true → ev' = true) ∧ (snap = true → snap' = true)
  | p, q => q = p

theorem Purpose.servedBy_refl (p : Purpose) : p.servedBy p := by
  cases p
  case evidenceLog ev snap => exact ⟨ev, snap, rfl, id, id⟩
  all_goals rfl

theorem Purpose.servedBy.trans {p q r : Purpose} (h : p.servedBy q) (h' : q.servedBy r) : p.servedBy r := by
  cases p
  case evidenceLog ev snap =>
    obtain ⟨ev1, snap1, rfl, h1, h2⟩ := h
    obtain ⟨ev2, snap2, rfl, h3, h4⟩ := h'
    exact ⟨ev2, snap2, rfl, h3 ∘ h1, h4 ∘ h2⟩
  all_goals (cases h; exact h')

/-- t has gone on from s: notices may have joined those pending and writes may have been asked for, and nothing else has become of
the link and the store. -/
structure State.Onward (s t : State) : Prop where
  link : t.link = { s.link with notices := t.link.notices }
  notices : ∀ n ∈ s.link.notices, n ∈ t.link.notices
  records : s.sameRecords t
  flight : s.store.flight <+: t.store.flight
  writes : ∀ p ∈ s.underWay, ∃ q ∈ t.underWay, p.servedBy q

theorem State.Onward.refl (s : State) : s.Onward s :=
  ⟨rfl, fun _ => id, ⟨rfl, rfl, rfl⟩, List.prefix_rfl, fun p hp => ⟨p, hp, p.servedBy_refl⟩⟩

theorem State.Onward.trans (h : b.Onward s) (h' : s.Onward t) : b.Onward t := by
  obtain ⟨l1, n1, ⟨r1, b1, u1⟩, f1, w1⟩ := h
  obtain ⟨l2, n2, ⟨r2, b2, u2⟩, f2, w2⟩ := h'
  refine ⟨by rw [l2, l1], fun n hn => n2 n (n1 n hn), ⟨r2.trans r1, b2.trans b1, u2.trans u1⟩, f1.trans f2, fun p hp => ?_⟩
  obtain ⟨q, hq, hpq⟩ := w1 p hp
  obtain ⟨r, hr, hqr⟩ := w2 q hq
  exact ⟨r, hr, hpq.trans hqr⟩

theorem State.Onward.inHand (h : b.Onward s) : s.link.inHand = b.link.inHand := by rw [h.link]

theorem State.Onward.awaits (h : b.Onward s) (k : Byte) : s.awaits k = b.awaits k := by
  simp only [State.awaits, h.inHand]

theorem State.Onward.of_eq (h : b.Onward s) (hl : t.link = s.link) (hs : t.store = s.store) : b.Onward t := by
  obtain ⟨l1, n1, r1, f1, w1⟩ := h
  refine ⟨hl ▸ l1, hl ▸ n1, ?_, hs ▸ f1, ?_⟩
  · simpa only [State.sameRecords, hs] using r1
  · simpa only [State.underWay, hs] using w1

section parts
variable (h : b.Onward s)
include h

theorem State.onBackup_onward (f : Backup → Backup) : b.Onward (s.onBackup f) := h.of_eq rfl rfl
theorem State.onCal_onward (f : Calendar → Calendar) : b.Onward (s.onCal f) := h.of_eq rfl rfl
theorem State.onAcct_onward (f : Account → Account) : b.Onward (s.onAcct f) := h.of_eq rfl rfl
theorem State.onCode_onward (f : CodeUnit → CodeUnit) : b.Onward (s.onCode f) := h.of_eq rfl rfl
theorem State.onSw_onward (f : Switch → Switch) : b.Onward (s.onSw f) := h.of_eq rfl rfl
theorem State.onSup_onward (f : Supervision → Supervision) : b.Onward (s.onSup f) := h.of_eq rfl rfl
theorem State.onTam_onward (f : Tamper → Tamper) : b.Onward (s.onTam f) := h.of_eq rfl rfl
theorem State.onLife_onward (f : Life → Life) : b.Onward (s.onLife f) := h.of_eq rfl rfl
end parts

/-! ### Notices and writes -/

theorem State.pend_onward (h : b.Onward s) (n : Notice) : b.Onward (s.pend n) :=
  h.trans ⟨rfl, fun m hm => s.pend_keeps_mem n m hm, ⟨rfl, rfl, rfl⟩, List.prefix_rfl, fun p hp => ⟨p, hp, p.servedBy_refl⟩⟩

theorem State.pump_onward (h : b.Onward s) : b.Onward s.pump := by
  refine h.trans ⟨by simp, by simp, by simp [State.sameRecords], s.pump_flight_prefix, fun p hp => ⟨p, ?_, p.servedBy_refl⟩⟩
  exact s.pump_underWay.mem_iff.2 hp

/-- A request is served by a write that waits, and so is what waited. -/
theorem addRequest_serves (p : Purpose) (l : List Purpose) :
    (∃ q ∈ addRequest p l, p.servedBy q) ∧ ∀ r ∈ l, ∃ q ∈ addRequest p l, r.servedBy q := by
  induction l with
  | nil => exact ⟨⟨p, by simp [addRequest], p.servedBy_refl⟩, by simp⟩
  | cons a rest ih =>
    have keep : (∃ q ∈ a :: addRequest p rest, p.servedBy q) ∧ ∀ r ∈ a :: rest, ∃ q ∈ a :: addRequest p rest, r.servedBy q := by
      obtain ⟨⟨q, hq, hp⟩, hr⟩ := ih
      refine ⟨⟨q, List.mem_cons_of_mem _ hq, hp⟩, List.forall_mem_cons.2 ⟨⟨a, List.mem_cons_self, a.servedBy_refl⟩, fun r hm => ?_⟩⟩
      obtain ⟨q, hq, h⟩ := hr r hm
      exact ⟨q, List.mem_cons_of_mem _ hq, h⟩
    have same : ∀ r ∈ a :: rest, ∃ q ∈ a :: rest, r.servedBy q := fun r hr => ⟨r, hr, r.servedBy_refl⟩
    unfold addRequest
    split
    · exact ⟨⟨_, List.mem_cons_self, rfl⟩, same⟩
    · exact ⟨⟨_, List.mem_cons_self, rfl⟩, same⟩
    · refine ⟨⟨_, List.mem_cons_self, _, _, rfl, by simp +contextual, by simp +contextual⟩, List.forall_mem_cons.2
        ⟨⟨_, List.mem_cons_self, _, _, rfl, by simp +contextual, by simp +contextual⟩, fun r hr => ?_⟩⟩
      exact ⟨r, List.mem_cons_of_mem _ hr, r.servedBy_refl⟩
    · exact keep

/-- The store once a request has joined those waiting. -/
theorem State.joined_onward (s : State) (p : Purpose) :
    s.Onward (s.onStore fun st => { st with waiting := addRequest p st.waiting }) := by
  refine ⟨rfl, fun _ => id, ⟨rfl, rfl, rfl⟩, List.prefix_rfl, fun r hr => ?_⟩
  rcases List.mem_append.1 hr with hr | hr
  · exact ⟨r, List.mem_append_left _ hr, r.servedBy_refl⟩
  · obtain ⟨q, hq, h⟩ := (addRequest_serves p s.store.waiting).2 r hr
    exact ⟨q, List.mem_append_right _ hq, h⟩

theorem State.request_onward (h : b.Onward s) (p : Purpose) : b.Onward (s.request p) := by
  unfold State.request
  split
  · exact h
  · exact State.pump_onward (h.trans (s.joined_onward p))

/-- A write asked for where it may be is under way, or one that serves it. -/
theorem State.request_served (s : State) (p : Purpose) (hm : s.holdup = false ∨ p.permittedInHoldup = true) :
    ∃ q ∈ (s.request p).underWay, p.servedBy q := by
  obtain ⟨q, hq, h⟩ := (addRequest_serves p s.store.waiting).1
  unfold State.request
  rw [if_neg (by rcases hm with hm | hm <;> simp [hm])]
  exact ⟨q, (State.pump_underWay _).mem_iff.2 (List.mem_append_right _ hq), h⟩

theorem State.Onward.served (h : b.Onward s) {p q : Purpose} (hq : q ∈ b.underWay) (hp : p.servedBy q) :
    ∃ q ∈ s.underWay, p.servedBy q := by
  obtain ⟨r, hr, h'⟩ := h.writes q hq
  exact ⟨r, hr, hp.trans h'⟩

/-- A fold of operations that each go onward. -/
theorem foldl_onward {α : Type} {f : State → α → State} (hf : ∀ x a, State.Onward x (f x a)) (l : List α) (h : b.Onward s) :
    b.Onward (l.foldl f s) := by
  induction l generalizing s with
  | nil => exact h
  | cons a l ih => exact ih (h.trans (hf s a))

/-! ### The operations -/

theorem State.raiseFault_onward (h : b.Onward s) (f : FaultKind) : b.Onward (s.raiseFault f) := by
  simp only [State.raiseFault]
  with_reducible repeat' first | exact h | apply State.onLife_onward | apply State.pend_onward | split

theorem State.endFault_onward (h : b.Onward s) (f : FaultKind) : b.Onward (s.endFault f) := by
  simp only [State.endFault]
  with_reducible repeat' first | exact h | apply State.onLife_onward | apply State.pend_onward | split

theorem State.toRest_onward (h : b.Onward s) (w : SwitchState) : b.Onward (s.toRest w) := by
  simp only [State.toRest]
  with_reducible repeat' first | exact h | apply State.onSw_onward | apply State.pend_onward

theorem State.beginOperation_onward (h : b.Onward s) (w : SwitchState) : b.Onward (s.beginOperation w) := by
  simp only [State.beginOperation]
  with_reducible repeat' first | exact h | apply State.onSw_onward | apply State.onTam_onward | apply State.pend_onward

theorem State.judgeRest_onward (h : b.Onward s) : b.Onward s.judgeRest := by
  simp only [State.judgeRest]
  with_reducible repeat' first | exact h | apply State.toRest_onward | apply State.beginOperation_onward | split

theorem State.handHold_onward (h : b.Onward s) (r : Hold) (p : Bool) : b.Onward (s.handHold r p) := by
  simp only [State.handHold]
  with_reducible repeat' first
    | exact h | apply State.pend_onward | apply State.request_onward | apply State.judgeRest_onward | apply State.onSw_onward
    | split

theorem State.notifyEvidence_onward (h : b.Onward s) (c : EvClass) : b.Onward (s.notifyEvidence c) := by
  simp only [State.notifyEvidence]
  with_reducible repeat' first | exact h | apply State.pend_onward | split

theorem State.appendRecord_onward (h : b.Onward s) (r : EvRecord) : b.Onward (s.appendRecord r) := by
  simp only [State.appendRecord]
  with_reducible repeat' first
    | exact h | apply State.notifyEvidence_onward | apply State.request_onward | apply State.onTam_onward

theorem State.editLog_onward (h : b.Onward s) (f : EvRecord → EvRecord) : b.Onward (s.editLog f) := by
  simp only [State.editLog]
  with_reducible repeat' first | exact h | apply State.request_onward | apply State.onTam_onward

theorem State.judgeTamper_onward (h : b.Onward s) : b.Onward s.judgeTamper := by
  simp only [State.judgeTamper]
  with_reducible repeat' first | exact h | apply State.handHold_onward | split

theorem State.recordExcused_onward (h : b.Onward s) (a : Arrival) : b.Onward (s.recordExcused a) := by
  simp only [State.recordExcused]
  with_reducible repeat' first | exact h | apply State.appendRecord_onward

theorem State.recordOnset_onward (h : b.Onward s) (a : Arrival) : b.Onward (s.recordOnset a) := by
  simp only [State.recordOnset]
  with_reducible repeat' first
    | exact h | apply State.recordExcused_onward | apply State.notifyEvidence_onward | apply State.editLog_onward
    | apply State.judgeTamper_onward | apply State.appendRecord_onward | split

theorem State.recordEnd_onward (h : b.Onward s) (a : Arrival) : b.Onward (s.recordEnd a) := by
  simp only [State.recordEnd]
  with_reducible repeat' first | exact h | apply State.editLog_onward | split

theorem State.takeArrival_onward (h : b.Onward s) (a : Arrival) : b.Onward (s.takeArrival a) := by
  simp only [State.takeArrival]
  with_reducible repeat' first | exact h | apply State.recordOnset_onward | apply State.recordEnd_onward | split

theorem State.arrive_onward (h : b.Onward s) (a : Arrival) : b.Onward (s.arrive a) := by
  simp only [State.arrive]
  with_reducible repeat' first | exact h | apply State.onTam_onward | apply State.takeArrival_onward | split

theorem State.countTaken_onward (h : b.Onward s) (a : Arrival) : b.Onward (s.countTaken a) := by
  simp only [State.countTaken]
  split
  · exact State.onBackup_onward h _
  · exact h

theorem State.latchOnset_onward (h : b.Onward s) (c : EvClass) (p : Option Nat) (v : Option Int) : b.Onward (s.latchOnset c p v) := by
  simp only [State.latchOnset]
  with_reducible repeat' first | exact h | apply State.arrive_onward

theorem State.latchEnd_onward (h : b.Onward s) (c : EvClass) : b.Onward (s.latchEnd c) := by
  simp only [State.latchEnd]
  with_reducible repeat' first | exact h | apply State.arrive_onward

theorem State.coverOnset_onward (h : b.Onward s) (w : Cover) : b.Onward (s.coverOnset w) := by
  simp only [State.coverOnset]
  with_reducible repeat' first | exact h | apply State.arrive_onward | apply State.countTaken_onward | split

theorem State.releaseHeld_onward (h : b.Onward s) : b.Onward s.releaseHeld :=
  foldl_onward (fun x a => State.takeArrival_onward (State.countTaken_onward (.refl x) a) a) s.tam.heldBack (State.onTam_onward h _)

theorem State.followEnd_onward (h : b.Onward s) (c : EvClass) : b.Onward (s.followEnd c) := by
  simp only [State.followEnd]
  with_reducible repeat' first | exact h | apply State.notifyEvidence_onward | apply State.editLog_onward | split

theorem State.clockStep_onward (h : b.Onward s) (p : Option Nat) (v o : Nat) : b.Onward (s.clockStep p v o) := by
  simp only [State.clockStep]
  with_reducible repeat' first | exact h | apply State.appendRecord_onward

theorem State.classChange_onward (h : b.Onward s) (c : EvClass) (x y : Bool) (p : Option Nat) (v : Int) : b.Onward (s.classChange c x y p v) := by
  simp only [State.classChange]
  with_reducible repeat' first | exact h | apply State.latchOnset_onward | apply State.latchEnd_onward | split

theorem State.judgeReverse_onward (h : b.Onward s) (m : Summary) : b.Onward (s.judgeReverse m) := by
  simp only [State.judgeReverse]
  with_reducible repeat' first | exact h | apply State.classChange_onward | apply State.onTam_onward

theorem State.judgeResidual_onward (h : b.Onward s) (m : Summary) : b.Onward (s.judgeResidual m) := by
  simp only [State.judgeResidual]
  with_reducible repeat' first | exact h | apply State.classChange_onward | apply State.onTam_onward

theorem State.judgeCut_onward (h : b.Onward s) (m : Summary) : b.Onward (s.judgeCut m) := by
  simp only [State.judgeCut]
  with_reducible repeat' first | exact h | apply State.classChange_onward | apply State.onTam_onward

theorem State.collectPost_onward (h : b.Onward s) (m : Summary) : b.Onward (s.collectPost m) := by
  simp only [State.collectPost]
  with_reducible repeat' first | exact h | apply State.request_onward | apply State.onTam_onward | split

theorem State.leaveJammed_onward (h : b.Onward s) : b.Onward s.leaveJammed := by
  simp only [State.leaveJammed]
  with_reducible repeat' first | exact h | apply State.followEnd_onward | apply State.onTam_onward | apply State.endFault_onward

theorem State.setSensed_onward (h : b.Onward s) : b.Onward s.setSensed := by
  simp only [State.setSensed]
  with_reducible repeat' first
    | exact h | apply State.toRest_onward | apply State.beginOperation_onward | apply State.onSw_onward | split

theorem State.judgeCondition_onward (h : b.Onward s) (a : Bool) : b.Onward (s.judgeCondition a) := by
  simp only [State.judgeCondition]
  with_reducible repeat' first | exact h | apply State.pend_onward | apply State.onAcct_onward | split

theorem State.creditTest_onward (h : b.Onward s) (a : Bool) : b.Onward (s.creditTest a) := by
  simp only [State.creditTest]
  with_reducible repeat' first | exact h | apply State.judgeCondition_onward | apply State.handHold_onward | split

theorem State.evalFriendly_onward (h : b.Onward s) : b.Onward s.evalFriendly := by
  simp only [State.evalFriendly]
  with_reducible repeat' first | exact h | apply State.creditTest_onward | apply State.onCal_onward | split

theorem State.compareDay_onward (h : b.Onward s) : b.Onward s.compareDay := by
  simp only [State.compareDay]
  with_reducible repeat' first | exact h | apply State.onCal_onward | apply State.onAcct_onward | split

theorem State.bringInBackoff_onward (h : b.Onward s) : b.Onward s.bringInBackoff := by
  simp only [State.bringInBackoff]
  with_reducible repeat' first | exact h | apply State.request_onward | apply State.onSup_onward | split

theorem State.endWindow_onward (h : b.Onward s) : b.Onward s.endWindow := by
  simp only [State.endWindow]
  with_reducible repeat' first
    | exact h | apply State.coverOnset_onward | apply State.request_onward | apply State.pend_onward
    | apply State.onLife_onward | split

theorem State.activate_onward (h : b.Onward s) : b.Onward s.activate := by
  simp only [State.activate]
  with_reducible repeat' first | exact h | apply State.request_onward | split

theorem State.lockoutReached_onward (h : b.Onward s) : b.Onward s.lockoutReached := by
  simp only [State.lockoutReached]
  with_reducible repeat' first | exact h | apply State.request_onward | split

theorem State.backoffTest_onward (h : b.Onward s) : b.Onward s.backoffTest := by
  simp only [State.backoffTest]
  with_reducible repeat' first
    | exact h | apply State.request_onward | apply State.handHold_onward | apply State.onSup_onward | split

theorem State.backoffReached_onward (h : b.Onward s) : b.Onward s.backoffReached := by
  simp only [State.backoffReached]
  with_reducible repeat' first | exact h | apply State.bringInBackoff_onward | apply State.backoffTest_onward | split

theorem State.clockTests_onward (h : b.Onward s) : b.Onward s.clockTests := by
  simp only [State.clockTests]
  with_reducible repeat' first
    | exact h | apply State.compareDay_onward | apply State.activate_onward | apply State.lockoutReached_onward
    | apply State.backoffReached_onward

theorem State.clockSet_onward (h : b.Onward s) (v : Nat) : b.Onward (s.clockSet v) := by
  simp only [State.clockSet]
  with_reducible repeat' first | exact h | apply State.endFault_onward | apply State.onBackup_onward

theorem State.attackBegins_onward (h : b.Onward s) : b.Onward s.attackBegins := by
  simp only [State.attackBegins]
  with_reducible repeat' first | exact h | apply State.latchOnset_onward | apply State.onTam_onward | split

theorem State.openWindow_onward (h : b.Onward s) (m q : Nat) : b.Onward (s.openWindow m q) := by
  simp only [State.openWindow]
  with_reducible repeat' first | exact h | apply State.pend_onward | apply State.onLife_onward | split

theorem State.clearLatches_onward (h : b.Onward s) (l : List EvClass) (q : Nat) (t : Option Nat) : b.Onward (s.clearLatches l q t) :=
  State.releaseHeld_onward (State.judgeTamper_onward (foldl_onward (fun x c => State.notifyEvidence_onward (.refl x) c) l
    (State.onTam_onward h _)))

theorem State.tamperEntry_onward (h : b.Onward s) : b.Onward s.tamperEntry := by
  refine foldl_onward (f := fun x (r : EvRecord) => x.notifyEvidence r.cls) (fun x r => State.notifyEvidence_onward (.refl x) r.cls) _ ?_
  change b.Onward (if (s.entryEvidence != s.store.recs.evidence || s.entrySlots != s.store.recs.snapshot) = true then _ else _)
  split
  · exact State.request_onward (State.onTam_onward h _) _
  · exact State.onTam_onward h _

theorem State.setResult_onward (h : b.Onward s) (r : CodeResult) : b.Onward (s.setResult r) := by
  simp only [State.setResult]
  with_reducible repeat' first | exact h | apply State.onCode_onward

end Sys2Proof.Machine
end

section
/-! A request that waits is answered by the write that completes its work (O24). -/

namespace Sys2Proof.Machine

variable {c : Instr} {s t x : State} {kind : Byte} {st : Status} {w : Write}

/-- What goes onward and is then answered has its request in hand replied. -/
theorem State.Onward.answer_replied (h : s.Onward x) (st : Status) (body : List Byte) : s.inHandReplied (x.answer st body) st body := by
  simp only [State.inHandReplied, State.answer, State.onLink, State.useFree, h.inHand]

theorem State.inHandReplied.onward {body : List Byte} (h : s.inHandReplied x st body) (h' : x.Onward t) :
    s.inHandReplied t st body := h'.inHand.trans h

/-- An operation that answers the request it finds waiting answers it after going onward too. -/
theorem State.Onward.replied_of_awaits (h : s.Onward x) (ha : s.awaits kind = true) (body : List Byte) :
    s.inHandReplied (if x.awaits kind then x.answer st body else x) st body := by
  rw [if_pos ((h.awaits kind).trans ha)]
  exact h.answer_replied st body

theorem answers_single {l : List (Byte × Status)} {k : Byte} {r : Status} (hl : l = [(k, r)]) (hk : (kind, st) ∈ l) :
    kind = k ∧ st = r := by
  rw [hl, List.mem_singleton] at hk
  exact ⟨congrArg Prod.fst hk, congrArg Prod.snd hk⟩

/-- The writes that no request waits for. -/
theorem answersOf_eq_nil {p : Purpose} (h : p.isDayBoundary = true ∨ p.isActivation = true ∨ p.isLockoutEnd = true ∨
    p.isStartWrite = true ∨ p.isOther = true) : answersOf p = [] := by
  cases p <;> first | rfl | simp [Purpose.isDayBoundary, Purpose.isActivation, Purpose.isLockoutEnd, Purpose.isStartWrite, Purpose.isOther] at h

/-! ### The effect of each write -/

theorem accountWritten_replies (hp : w.purpose.isPlainAccount = true) (hk : (kind, st) ∈ answersOf w.purpose)
    (ha : s.awaits kind = true) : ∃ body, s.inHandReplied (accountWritten w s) st body := by
  cases hw : w.purpose
  case charge a =>
    rw [hw] at hk
    cases hk
  case emergencyTaken a =>
    obtain ⟨rfl, rfl⟩ := answers_single (k := 0x12) (r := .ok) (by rw [hw]; rfl) hk
    refine ⟨(s.creditTest false).emergencyBody, ?_⟩
    simp only [accountWritten, hw]
    exact (State.creditTest_onward (.refl s) false).replied_of_awaits ha _
  all_goals
    rw [hw] at hp
    cases hp

theorem entryWritten_replies (hp : w.purpose.isEntry = true) (hk : (kind, st) ∈ answersOf w.purpose)
    (ha : s.awaits kind = true) : ∃ body, s.inHandReplied (entryWritten w s) st body := by
  cases hw : w.purpose
  case entry =>
    obtain ⟨rfl, rfl⟩ := answers_single (k := 0x29) (r := .ok) (by rw [hw]; rfl) hk
    refine ⟨_, State.Onward.replied_of_awaits (State.releaseHeld_onward (State.judgeTamper_onward (State.handHold_onward
      (State.creditTest_onward (State.pend_onward (State.onLife_onward (State.tamperEntry_onward (State.onSup_onward (.refl s) _)) _) _)
        true) .load false))) ha _⟩
  all_goals
    rw [hw] at hp
    cases hp

theorem setTimeWritten_replies (hp : w.purpose.isSetTime = true) (hk : (kind, st) ∈ answersOf w.purpose)
    (ha : s.awaits kind = true) : ∃ body, s.inHandReplied (setTimeWritten w s) st body := by
  cases hw : w.purpose
  case setTime value prior outcome adjustDay carry =>
    obtain ⟨rfl, rfl⟩ := answers_single (k := 0x20) (r := .ok) (by rw [hw]; rfl) hk
    refine ⟨((((s.clockSet value).clockStep prior value outcome).evalFriendly).clockTests).setTimeBody, ?_⟩
    simp only [setTimeWritten, hw]
    exact (State.clockTests_onward (State.evalFriendly_onward (State.clockStep_onward (State.clockSet_onward (.refl s) value)
      prior value outcome))).replied_of_awaits ha _
  all_goals
    rw [hw] at hp
    cases hp

/-- A code submission waits exactly as one of the two ways it is submitted. -/
theorem State.awaitsCode_of_mem {l : List (Byte × Status)} (hl : l = [(0x10, st), (0x11, st)]) {st' : Status}
    (hk : (kind, st') ∈ l) (ha : s.awaits kind = true) : s.awaitsCode = true ∧ st' = st := by
  subst hl
  simp only [List.mem_cons, Prod.mk.injEq, List.not_mem_nil, or_false] at hk
  rcases hk with ⟨rfl, rfl⟩ | ⟨rfl, rfl⟩
  · exact ⟨by rw [State.awaitsCode, ha]; rfl, rfl⟩
  · exact ⟨by rw [State.awaitsCode, ha, Bool.or_true], rfl⟩

theorem State.Onward.awaitsCode (h : s.Onward x) : x.awaitsCode = s.awaitsCode := by
  simp only [State.awaitsCode, h.awaits]

/-- A submission's end is its reply. -/
theorem State.Onward.endCode_replied (h : s.Onward x) (st : Status) (r : CodeResult) : ∃ body, s.inHandReplied (x.endCode st r) st body :=
  ⟨_, (State.setResult_onward h r).answer_replied st _⟩

theorem countedWritten_replies (hp : w.purpose.isCounted = true) (hk : (kind, st) ∈ answersOf w.purpose)
    (ha : s.awaits kind = true) : ∃ body, s.inHandReplied (countedWritten w s) st body := by
  cases hw : w.purpose
  case counted status k q clock =>
    obtain ⟨hc, rfl⟩ := State.awaitsCode_of_mem (by rw [hw]; rfl) hk ha
    have h := State.attackBegins_onward (.refl s)
    simp only [countedWritten, hw]
    rw [if_pos (h.awaitsCode.trans hc)]
    exact h.endCode_replied _ _
  all_goals
    rw [hw] at hp
    cases hp

theorem acceptEffect_onward (s : State) (w : Write) : s.Onward (acceptEffect w s).1 := by
  unfold acceptEffect
  split
  · exact State.creditTest_onward (.refl s) _
  · exact State.clearLatches_onward (.refl s) _ _ _
  · next limit _ _ _ => exact State.onSw_onward (.refl s) fun x => { x with record := { x.record with codeLimit := limit } }
  · exact State.openWindow_onward (.refl s) _ _
  · exact .refl s

theorem acceptWritten_replies (hp : w.purpose.isAcceptance = true) (hk : (kind, st) ∈ answersOf w.purpose)
    (ha : s.awaits kind = true) : ∃ body, s.inHandReplied (acceptWritten w s) st body := by
  have hl : answersOf w.purpose = [(0x10, .ok), (0x11, .ok)] := by
    cases hw : w.purpose <;> rw [hw] at hp <;> first | rfl | cases hp
  obtain ⟨hc, rfl⟩ := State.awaitsCode_of_mem hl hk ha
  have h := acceptEffect_onward s w
  simp only [acceptWritten]
  rw [if_pos (h.awaitsCode.trans hc)]
  exact h.endCode_replied _ _

theorem switchWritten_replies (hp : w.purpose.isSwitchRecord = true) (hk : (kind, st) ∈ answersOf w.purpose)
    (ha : s.awaits kind = true) (hs : s.storesAnswer kind) : ∃ body, s.inHandReplied (switchWritten w s) st body := by
  cases hw : w.purpose
  case switchRecord =>
    obtain ⟨rfl, rfl⟩ := answers_single (k := 0x21) (r := .ok) (by rw [hw]; rfl) hk
    refine ⟨s.switchBody, ?_⟩
    rw [switchWritten, if_pos (by rw [ha, hs.1 rfl]; rfl)]
    exact (State.Onward.refl s).answer_replied _ _
  all_goals
    rw [hw] at hp
    cases hp

theorem lifeWritten_replies (hp : w.purpose.isLifeRecord = true) (hk : (kind, st) ∈ answersOf w.purpose)
    (ha : s.awaits kind = true) (hs : s.storesAnswer kind) : ∃ body, s.inHandReplied (lifeWritten w s) st body := by
  cases hw : w.purpose
  case lifeRecord =>
    obtain ⟨rfl, rfl⟩ := answers_single (k := 0x2A) (r := .ok) (by rw [hw]; rfl) hk
    refine ⟨s.lifeBody, ?_⟩
    rw [lifeWritten, if_pos (by rw [ha, hs.2 rfl]; rfl)]
    exact (State.Onward.refl s).answer_replied _ _
  all_goals
    rw [hw] at hp
    cases hp

theorem identityWritten_replies (hp : w.purpose.isIdentity = true) (hk : (kind, st) ∈ answersOf w.purpose)
    (ha : s.awaits kind = true) : ∃ body, s.inHandReplied (identityWritten w s) st body := by
  cases hw : w.purpose
  case identity serial key =>
    obtain ⟨rfl, rfl⟩ := answers_single (k := 0x28) (r := .ok) (by rw [hw]; rfl) hk
    exact ⟨_, (State.pend_onward (.refl s) .life).replied_of_awaits ha _⟩
  all_goals
    rw [hw] at hp
    cases hp

theorem State.applyConfig_inHand (s : State) (v : SectionValue) : (s.applyConfig v).link.inHand = s.link.inHand := by
  cases v with
  | account a => exact (State.creditTest_onward (.refl s) false).inHand
  | switch a hasLimit =>
    refine State.Onward.inHand ?_
    simp only [State.applyConfig]
    with_reducible repeat' first
      | exact State.Onward.refl s | apply State.judgeRest_onward | apply State.onSw_onward | split
  | _ => rfl

theorem configWritten_replies (hp : w.purpose.isConfig = true) (hk : (kind, st) ∈ answersOf w.purpose)
    (ha : s.awaits kind = true) : ∃ body, s.inHandReplied (configWritten w s) st body := by
  cases hw : w.purpose
  case config v clamped =>
    obtain ⟨rfl, rfl⟩ := answers_single (k := 0x27) (r := if clamped then .clamped else .ok) (by rw [hw]; rfl) hk
    have h : (s.applyConfig v).awaits 0x27 = true := by
      simpa only [State.awaits, State.applyConfig_inHand] using ha
    refine ⟨(s.applyConfig v).writeConfigBody (sectionByte v.sec), ?_⟩
    simp only [configWritten, hw]
    rw [if_pos h]
    simp only [State.inHandReplied, State.answer, State.onLink, State.useFree, State.applyConfig_inHand]
  all_goals
    rw [hw] at hp
    cases hp

theorem tariffWritten_replies (hp : w.purpose.isTariffRequest = true) (hk : (kind, st) ∈ answersOf w.purpose)
    (ha : s.awaits kind = true) : ∃ body, s.inHandReplied (tariffWritten w s) st body := by
  cases hw : w.purpose
  case tariffRequest k sel pending status =>
    obtain ⟨rfl, rfl⟩ := answers_single (k := BitVec.ofNat 8 k) (r := status) (by rw [hw]; rfl) hk
    refine ⟨s.tariffReply k sel, ?_⟩
    simp only [tariffWritten, hw, ha]
    exact ((State.Onward.refl s).answer_replied _ _).onward (State.activate_onward (.refl _))
  all_goals
    rw [hw] at hp
    cases hp

theorem residueWritten_replies (hk : (kind, st) ∈ answersOf w.purpose) (hp : w.purpose.isResidue = true)
    (ha : s.awaits kind = true) : ∃ body, s.inHandReplied (residueWritten w s) st body := by
  cases hw : w.purpose
  case residue valid forRestart =>
    rw [hw] at hk
    match valid, forRestart with
    | true, true =>
      obtain ⟨rfl, rfl⟩ := answers_single (k := 0x2B) (r := .ok) rfl hk
      refine ⟨[], ?_⟩
      simp only [residueWritten, hw, ha]
      exact (State.Onward.refl s).answer_replied _ _
    | true, false | false, _ => cases hk
  all_goals
    rw [hw] at hp
    cases hp

/-! ### The completion -/

/-- With the hold-up limit not expired a completion ends with its effect and what that lets start. -/
theorem State.complete_replied {sel : Purpose → Bool} {rest : List Write} {effect : Write → State → State}
    (h : s.completes sel w rest) (hl : s.backup.limitExpired = false)
    (he : (effect w (s.stored w rest)).backup.limitExpired = s.backup.limitExpired)
    (hr : ∃ body, (s.stored w rest).inHandReplied (effect w (s.stored w rest)) st body) :
    ∃ t body, Host.Outcome.next (s.complete sel effect) = (.next t : Host.Outcome State Fault Refusal) ∧ s.inHandReplied t st body := by
  obtain ⟨body, hr⟩ := hr
  refine ⟨_, body, rfl, ?_⟩
  rw [s.complete_eq effect h, State.settle_of_not_expired _ (by simpa using he.trans hl)]
  exact hr.onward (State.pump_onward (.refl _))

theorem State.releaseHeld_limitExpired (x : State) : x.releaseHeld.backup.limitExpired = x.backup.limitExpired := by
  have h : ∀ (l : List Arrival) (y : State), (l.foldl (fun x a => (x.countTaken a).takeArrival a) y).backup.limitExpired =
      y.backup.limitExpired := by
    intro l
    induction l with
    | nil => exact fun _ => rfl
    | cons a l ih =>
      refine fun y => (ih _).trans ?_
      simp only [State.takeArrival_frame, State.countTaken]
      split <;> rfl
  exact h _ _

theorem entryWritten_limitExpired (w : Write) (x : State) : (entryWritten w x).backup.limitExpired = x.backup.limitExpired := by
  simp only [entryWritten]
  split <;> simp [State.releaseHeld_limitExpired]

theorem acceptWritten_limitExpired (w : Write) (x : State) : (acceptWritten w x).backup.limitExpired = x.backup.limitExpired := by
  have h : (acceptEffect w x).1.backup.limitExpired = x.backup.limitExpired := by
    unfold acceptEffect
    split <;> simp [State.clearLatches, State.releaseHeld_limitExpired]
  simp only [acceptWritten]
  split <;> simp [h]

theorem setTimeWritten_limitExpired (w : Write) (x : State) : (setTimeWritten w x).backup.limitExpired = x.backup.limitExpired := by
  unfold setTimeWritten
  split
  · dsimp only
    split <;> simp [State.clockSet, State.onBackup]
  · rfl

end Sys2Proof.Machine
end

section
open Sys2Proof Sys2Proof.Machine

/-- Settles O24: the completion's effect finds the request waiting and answers it with the write's status. -/
theorem waitingRequestsAreAnswered : Obligations.WaitingRequestsAreAnswered := by
  intro c sel s w rest kind st hc h hk ha hs hl
  have hsel := (takeFlight_mem h).1
  have ha' : (s.stored w rest).awaits kind = true := ha
  cases c <;> simp only [completionOf, Option.some.injEq, reduceCtorEq] at hc <;> subst hc
  case accountWriteComplete =>
    exact State.complete_replied (effect := accountWritten) h hl (by simp [State.stored]) (accountWritten_replies hsel hk ha')
  case entryWriteComplete =>
    exact State.complete_replied (effect := entryWritten) h hl (by simp [State.stored, entryWritten_limitExpired]) (entryWritten_replies hsel hk ha')
  case setTimeWriteComplete =>
    exact State.complete_replied (effect := setTimeWritten) h hl (by simp [State.stored, setTimeWritten_limitExpired])
      (setTimeWritten_replies hsel hk ha')
  case countedFailureWriteComplete =>
    exact State.complete_replied (effect := countedWritten) h hl (by simp [State.stored]) (countedWritten_replies hsel hk ha')
  case codeAcceptWriteComplete =>
    exact State.complete_replied (effect := acceptWritten) h hl (by simp [State.stored, acceptWritten_limitExpired]) (acceptWritten_replies hsel hk ha')
  case switchRecordWriteComplete =>
    exact State.complete_replied (effect := switchWritten) h hl (by simp [State.stored]) (switchWritten_replies hsel hk ha' hs)
  case residueWriteComplete =>
    exact State.complete_replied (effect := residueWritten) h hl (by simp [State.stored]) (residueWritten_replies hk hsel ha')
  case lifeRecordWriteComplete =>
    exact State.complete_replied (effect := lifeWritten) h hl (by simp [State.stored]) (lifeWritten_replies hsel hk ha' hs)
  case identityWriteComplete =>
    exact State.complete_replied (effect := identityWritten) h hl (by simp [State.stored]) (identityWritten_replies hsel hk ha')
  case configWriteComplete =>
    exact State.complete_replied (effect := configWritten) h hl (by simp [State.stored]) (configWritten_replies hsel hk ha')
  case tariffWriteComplete =>
    exact State.complete_replied (effect := tariffWritten) h hl (by simp [State.stored]) (tariffWritten_replies hsel hk ha')
  all_goals
    rw [answersOf_eq_nil (by simp_all)] at hk
    cases hk

end

section
/-! The reading requests (O25). -/

namespace Sys2Proof.Machine

variable {s : State}

theorem sectionOf_isSome (sel : Byte) : (sectionOf sel).isSome = decide (sel.toNat ≤ 6) := by
  unfold sectionOf
  split <;> simp_all
  omega

/-- A request that its owner answers at once. -/
theorem State.onRequest_onlyReplied {kind : Byte} {payload : List Byte} (st : State → Status) (body : State → List Byte)
    (h : s.examines kind payload) : s.onlyReplied (s.onRequest kind payload fun x => x.answer (st x) (body x)) (st s) (body s) := by
  rw [State.onRequest_examines _ _ h]
  exact s.answer_onlyReplied _ _

/-- A request whose selector is out of range or answered at once. -/
theorem State.onRequest_inRange {kind : Byte} {payload : List Byte} {p : Prop} [Decidable p] (body : List Byte)
    (examine : State → State) (he : examine s = if p then s.answer .ok body else s.answer .badValue [0]) (h : s.examines kind payload) :
    (p → s.onlyReplied (s.onRequest kind payload examine) .ok body) ∧
      (¬ p → s.onlyReplied (s.onRequest kind payload examine) .badValue [0]) := by
  rw [State.onRequest_examines _ _ h, he]
  exact ⟨fun hp => by rw [if_pos hp]; exact s.answer_onlyReplied _ _, fun hp => by rw [if_neg hp]; exact s.answer_onlyReplied _ _⟩

theorem State.evidenceBody_eq (s : State) (number : BitVec 32) : s.evidenceBody number.toNat =
    presenceBytes ((if number = 0 then s.firstOpen
      else s.tam.evidence.log.find? fun r => r.number == number.toNat).map EvRecord.bytes) := by
  have h : number.toNat = 0 ↔ number = 0 := ⟨fun e => BitVec.eq_of_toNat_eq e, fun e => by rw [e]; rfl⟩
  simp only [State.evidenceBody, State.evidenceAt, h]

/-- STATUS: the reply, and the memory emptied where its flag says so (R190). -/
theorem State.examineStatus_replied (s : State) (clearMemory : Byte) :
    s.replied (s.examineStatus clearMemory) .ok s.statusBody ∧
      State.agreeBut [.life, .link, .fresh] s (s.examineStatus clearMemory) ∧
      (s.examineStatus clearMemory).life = { s.life with memory := if clearMemory = 0 then s.life.memory else [] } := by
  obtain ⟨hr, ha⟩ := s.answer_onlyReplied .ok s.statusBody
  unfold State.examineStatus
  by_cases hc : clearMemory = 0
  · simp only [hc, if_true]
    exact ⟨hr, by simp [State.agreeBut_iff], rfl⟩
  · simp only [hc, if_false]
    exact ⟨hr, by simp [State.agreeBut_iff], rfl⟩

end Sys2Proof.Machine
end

section
open Sys2Proof Sys2Proof.Machine

/-- Settles O25: each reading request is its owner's answer, from the values as they stand. -/
theorem readsAreAnsweredAtOnce : Obligations.ReadsAreAnsweredAtOnce := by
  refine ⟨fun s => ⟨fun h => ⟨_, rfl, State.onRequest_onlyReplied _ _ h⟩, fun h => ⟨_, rfl, State.onRequest_onlyReplied _ _ h⟩,
    fun h => ⟨_, rfl, State.onRequest_onlyReplied _ _ h⟩, fun h => ⟨_, rfl, State.onRequest_onlyReplied _ _ h⟩, fun index h => ?_,
    fun number h => ⟨_, rfl, ?_⟩, fun slot half h => ⟨_, rfl, State.onRequest_inRange _ _ rfl h⟩,
    fun h => ⟨_, rfl, State.onRequest_onlyReplied _ _ h⟩, fun which sel h => ⟨_, rfl, State.onRequest_inRange _ _ rfl h⟩,
    fun sel h => ⟨_, rfl, ?_⟩, fun payload h => ⟨_, rfl, State.onRequest_onlyReplied _ (fun _ => payload) h⟩⟩,
    fun s => ⟨fun clearMemory h => ⟨_, rfl, ?_⟩, fun h => ⟨_, rfl, ?_⟩⟩⟩
  · obtain ⟨h1, h2⟩ := State.onRequest_inRange (s.daysBody index.toNat) (State.examineDays index.toNat) rfl h
    exact ⟨_, rfl, h1, fun hi => h2 (by omega)⟩
  · rw [← s.evidenceBody_eq]
    exact State.onRequest_onlyReplied _ _ h
  · have e : (if sel.toNat ≤ 6 then Status.ok else .badValue) = selectStatus (sectionOf sel).isSome := by
      simp [selectStatus, sectionOf_isSome]
    rw [e]
    exact State.onRequest_onlyReplied _ _ h
  · rw [State.onRequest_examines _ _ h]
    exact s.examineStatus_replied clearMemory
  · rw [State.onRequest_examines _ _ h]
    exact ⟨by simp [State.agreeBut_iff, State.examineLinkStatus], rfl⟩

end

section
/-! Onsets and ends of the latching classes (O27). -/

namespace Sys2Proof.Machine

variable {s t x : State}

/-! ### The conditions -/

/-- The tamper unit's conditions, all else of it made blank. -/
def Tamper.conditions (t : Tamper) : Tamper :=
  { t with evidence := .shipped, slots := [], suspended := false, clearing := [], entryHold := false, heldBack := [] }

theorem Tamper.condition_congr {t u : Tamper} (h : t.conditions = u.conditions) (c : EvClass) : t.condition c = u.condition c :=
  (congrArg (fun v => Tamper.condition v c) h :)

/-! The log's operations leave the conditions as they are. -/

@[simp] theorem State.handHold_conditions (s : State) (r : Hold) (b : Bool) : (s.handHold r b).tam.conditions = s.tam.conditions := by
  simp [Tamper.conditions]

@[simp] theorem State.judgeTamper_conditions (s : State) : s.judgeTamper.tam.conditions = s.tam.conditions := by
  simp [Tamper.conditions]

@[simp] theorem State.appendRecord_conditions (s : State) (r : EvRecord) : (s.appendRecord r).tam.conditions = s.tam.conditions := by
  simp [State.appendRecord, Tamper.conditions]

@[simp] theorem State.editLog_conditions (s : State) (f : EvRecord → EvRecord) : (s.editLog f).tam.conditions = s.tam.conditions := by
  simp [State.editLog, Tamper.conditions]

@[simp] theorem State.recordOnset_conditions (s : State) (a : Arrival) : (s.recordOnset a).tam.conditions = s.tam.conditions := by
  simp only [State.recordOnset, State.recordExcused]
  (repeat' split) <;> simp

@[simp] theorem State.recordEnd_conditions (s : State) (a : Arrival) : (s.recordEnd a).tam.conditions = s.tam.conditions := by
  simp only [State.recordEnd]
  split <;> simp

@[simp] theorem State.takeArrival_conditions (s : State) (a : Arrival) : (s.takeArrival a).tam.conditions = s.tam.conditions := by
  simp only [State.takeArrival]
  split <;> simp

@[simp] theorem State.arrive_conditions (s : State) (a : Arrival) : (s.arrive a).tam.conditions = s.tam.conditions := by
  simp only [State.arrive]
  split
  · rfl
  · simp

@[simp] theorem State.latchOnset_conditions (s : State) (c : EvClass) (p : Option Nat) (v : Option Int) :
    (s.latchOnset c p v).tam.conditions = s.tam.conditions := by
  simp only [State.latchOnset, State.arrive_conditions]

@[simp] theorem State.latchEnd_conditions (s : State) (c : EvClass) : (s.latchEnd c).tam.conditions = s.tam.conditions := by
  simp only [State.latchEnd, State.arrive_conditions]

/-! ### An arrival -/

theorem State.arrive_held {a : Arrival} (h : s.tam.holdsBack a = true) :
    s.arrive a = s.onTam fun t => { t with heldBack := t.heldBack ++ [a] } := by
  simp [State.arrive, h]

theorem State.arrive_taken {a : Arrival} (h : s.tam.holdsBack a = false) : s.arrive a = s.takeArrival a := by
  simp [State.arrive, h]

/-- What an appended record is stays through what goes onward and leaves the log. -/
theorem State.appends.onward {r : EvRecord} (h : s.appends x r) (h' : x.Onward t) (he : t.tam.evidence = x.tam.evidence)
    (hs : t.tam.slots = x.tam.slots) : s.appends t r := by
  obtain ⟨log1, slots1, slot, log2, h1, h2, h3, h4, h5, h6, h7⟩ := h
  refine ⟨log1, slots1, slot, log2, h1, h2, h3, he.trans h4, fun k hk => hs.trans (h5 k hk), fun hk => hs.trans (h6 hk), fun hm => ?_⟩
  obtain ⟨snap, hp, hsnap⟩ := h7 hm
  obtain ⟨q, hq, ev', snap', rfl, hev, hsn⟩ := h'.writes _ hp
  obtain rfl : ev' = true := hev rfl
  exact ⟨snap', hq, fun hk => hsn (hsnap hk)⟩

theorem State.policy_congr (h1 : t.store.recs = s.store.recs) (h2 : t.store.unsound = s.store.unsound) (c : EvClass) :
    t.policy c = s.policy c := by
  unfold State.policy State.config State.sound
  rw [h1, h2]

theorem State.Onward.policy (h : s.Onward t) (c : EvClass) : t.policy c = s.policy c :=
  State.policy_congr h.records.1 h.records.2.2 c

/-- The notice its policy asks for. -/
theorem State.notifyEvidence_notices {c : EvClass} (h : (s.policy c).notify = true) : .evidence ∈ (s.notifyEvidence c).link.notices := by
  rw [State.notifyEvidence, if_pos h]
  exact s.pend_mem _

theorem State.appendRecord_notices {r : EvRecord} (h : (s.policy r.cls).notify = true) : .evidence ∈ (s.appendRecord r).link.notices := by
  refine State.notifyEvidence_notices ?_
  rw [State.policy_congr (s := s) (by simp) (by simp)]
  exact h

/-- After its judgement in service the TAMPER hold stands as it is due (R155). -/
theorem State.judgeTamper_holds (hr : s.running = true) (hi : s.inService = true) :
    s.judgeTamper.sw.record.holds.tamper = s.judgeTamper.tamperDue := by
  have hd : s.judgeTamper.tamperDue = s.tamperDue := by
    have h := State.judgeTamper_onward (.refl s)
    simp only [State.tamperDue, State.latched, State.judgeTamper_evidence, h.policy]
  rw [hd, State.judgeTamper, if_pos (by simp [hr, hi])]
  refine s.handHold_has .tamper s.tamperDue ?_
  simp only [State.inService, Bool.or_eq_true, beq_iff_eq] at hi
  rcases hi with e | e <;> simp [e]

/-- What the taking of an onset of a class at the moment makes of the log and the hold. -/
def State.onsetTaken (s t : State) (cls : EvClass) : Prop :=
  ((s.policy cls).detect = false → t.tam.evidence = s.tam.evidence) ∧
    ((s.policy cls).detect = true → ¬ (cls.isCover = true ∧ s.life.state = .serviceWindow) →
      (isLatched s.tam.evidence.log cls = true →
        t.tam.evidence = { s.tam.evidence with log := s.tam.evidence.log.map (EvRecord.repeated cls 1) }) ∧
      (isLatched s.tam.evidence.log cls = false →
        (∃ slot, t.tam.evidence.log.getLast? =
          some { blankRecord cls .opened s.time with number := s.tam.evidence.next, slot := slot }) ∧
        s.appends t (blankRecord cls .opened s.time) ∧ t.tam.evidence.next = nextNumber s.tam.evidence.next ∧
        ((s.policy cls).notify = true → .evidence ∈ t.link.notices) ∧
        (s.running = true → s.inService = true → t.sw.record.holds.tamper = t.tamperDue))) ∧
    ((s.policy cls).detect = true → cls.isCover = true → s.life.state = .serviceWindow →
      s.appends t { blankRecord cls .cleared s.time with clearSeq := s.life.window, clearTime := s.time } ∧
      ∃ slot, t.tam.evidence.log.getLast? = some { blankRecord cls .cleared s.time with
        number := s.tam.evidence.next, slot := slot, clearSeq := s.life.window, clearTime := s.time })

/-- A record that is appended and judged for the TAMPER hold. -/
theorem State.appendRecord_judged (s : State) (r : EvRecord) :
    s.appends (s.appendRecord r).judgeTamper r ∧
      (∃ slot, (s.appendRecord r).judgeTamper.tam.evidence.log.getLast? = some { r with number := s.tam.evidence.next, slot := slot }) ∧
      (s.appendRecord r).judgeTamper.tam.evidence.next = nextNumber s.tam.evidence.next ∧
      ((s.policy r.cls).notify = true → .evidence ∈ (s.appendRecord r).judgeTamper.link.notices) := by
  have h := State.judgeTamper_onward (.refl (s.appendRecord r))
  refine ⟨(s.appends_appendRecord r).onward h (by simp) (by simp), ?_, ?_, fun hn => h.notices _ (State.appendRecord_notices hn)⟩
  · simpa using s.appendRecord_last r
  · simpa using s.appendRecord_next r

theorem State.recordOnset_taken (s : State) (cls : EvClass) :
    s.onsetTaken (s.recordOnset ⟨cls, true, s.time, none, none⟩) cls := by
  unfold State.recordOnset
  by_cases hd : (s.policy cls).detect = true
  · simp only [hd, Bool.not_true, Bool.false_eq_true, if_false]
    by_cases hw : cls.isCover = true ∧ s.life.state = .serviceWindow
    · rw [if_pos (by simp [hw])]
      exact ⟨by simp [hd], fun _ h => absurd hw h, fun _ _ _ => ⟨s.appends_appendRecord _, s.appendRecord_last _⟩⟩
    · rw [if_neg (by simpa using hw)]
      refine ⟨by simp [hd], fun _ _ => ⟨fun hl => ?_, fun hl => ?_⟩, fun _ h1 h2 => absurd ⟨h1, h2⟩ hw⟩
      · rw [if_pos hl]
        simp [State.editLog]
      · rw [if_neg (by simp [hl])]
        obtain ⟨h1, h2, h3, h4⟩ := s.appendRecord_judged (blankRecord cls .opened s.time)
        exact ⟨h2, h1, h3, h4, fun hr hi => State.judgeTamper_holds (by simpa [State.running] using hr)
          (by simpa [State.inService] using hi)⟩
  · simp only [hd, Bool.not_false, if_true]
    exact ⟨fun _ => rfl, fun h => absurd h hd, fun h => absurd h hd⟩

/-- The onset as it arrives. -/
theorem State.latchOnset_spec (s : State) (cls : EvClass) :
    (s.tam.holdsBack ⟨cls, true, s.time, none, none⟩ = true →
      (s.latchOnset cls none none).tam.heldBack = s.tam.heldBack ++ [⟨cls, true, s.time, none, none⟩] ∧
        (s.latchOnset cls none none).tam.evidence = s.tam.evidence) ∧
      (s.tam.holdsBack ⟨cls, true, s.time, none, none⟩ = false → s.onsetTaken (s.latchOnset cls none none) cls) := by
  refine ⟨fun h => ?_, fun h => ?_⟩
  · rw [State.latchOnset, State.arrive_held h]
    exact ⟨rfl, rfl⟩
  · rw [State.latchOnset, State.arrive_taken h]
    exact s.recordOnset_taken cls

/-- The end as it arrives: noted on the OPEN record, the latch as it was (R153). -/
theorem isLatched_noteEnd (log : List EvRecord) (c k : EvClass) (time : Option Nat) :
    isLatched (log.map (EvRecord.noteEnd c time)) k = isLatched log k := by
  simp only [isLatched, List.any_map]
  refine congrArg (fun f => log.any f) (funext fun r => ?_)
  simp only [Function.comp, EvRecord.noteEnd]
  split <;> rfl

theorem State.latchEnd_spec (s : State) (cls : EvClass) :
    (s.tam.holdsBack ⟨cls, false, s.time, none, none⟩ = true →
      (s.latchEnd cls).tam.heldBack = s.tam.heldBack ++ [⟨cls, false, s.time, none, none⟩] ∧
        (s.latchEnd cls).tam.evidence = s.tam.evidence) ∧
      (s.tam.holdsBack ⟨cls, false, s.time, none, none⟩ = false → (s.latchEnd cls).tam.evidence = { s.tam.evidence with
        log := if isLatched s.tam.evidence.log cls then s.tam.evidence.log.map (EvRecord.noteEnd cls s.time)
          else s.tam.evidence.log }) ∧
      ∀ k, isLatched (s.latchEnd cls).tam.evidence.log k = isLatched s.tam.evidence.log k := by
  cases h : s.tam.holdsBack ⟨cls, false, s.time, none, none⟩ with
  | true =>
    rw [State.latchEnd, State.arrive_held h]
    exact ⟨fun _ => ⟨rfl, rfl⟩, by simp, fun _ => rfl⟩
  | false =>
    rw [State.latchEnd, State.arrive_taken h]
    simp only [State.takeArrival, State.recordEnd, Bool.false_eq_true, if_false]
    split <;> simp [State.editLog, isLatched_noteEnd]

/-! ### The commands -/

/-- What an onset of a class brings about: its condition is present, and it is held back or taken. -/
def State.onsetArrives (s t : State) (cls : EvClass) : Prop :=
  t.tam.condition cls = true ∧ State.agreeBut [.backup, .store, .sw, .tam, .link] s t ∧ (s.mains = true → t.backup = s.backup) ∧
    (s.tam.holdsBack ⟨cls, true, s.time, none, none⟩ = true →
      t.tam.heldBack = s.tam.heldBack ++ [⟨cls, true, s.time, none, none⟩] ∧ t.tam.evidence = s.tam.evidence) ∧
    (s.tam.holdsBack ⟨cls, true, s.time, none, none⟩ = false → s.onsetTaken t cls)

/-- As the tamper unit finds the state when a condition has begun: the same but for the condition, the cover counts and the link. -/
structure State.finds (s y : State) : Prop where
  agrees : State.agreeBut [.backup, .tam, .link] s y
  power : y.backup.power = s.backup.power
  domain : y.backup.domain = s.backup.domain
  time : y.time = s.time
  evidence : y.tam.evidence = s.tam.evidence
  slots : y.tam.slots = s.tam.slots
  heldBack : y.tam.heldBack = s.tam.heldBack
  holdsBack : y.tam.holdsBack = s.tam.holdsBack
  mains : s.mains = true → y.backup = s.backup

theorem State.finds.onsetTaken {y : State} (h : s.finds y) {cls : EvClass} (ht : y.onsetTaken t cls) : s.onsetTaken t cls := by
  obtain ⟨ha, hp, hd, htime, he, hs, -, -, -⟩ := h
  have hst : y.store = s.store := ha .store (by decide)
  have hl : y.life = s.life := ha .life (by decide)
  have hreg : y.reg = s.reg := ha .reg (by decide)
  have hpol : ∀ k, y.policy k = s.policy k := State.policy_congr (by rw [hst]) (by rw [hst])
  have hm : y.mains = s.mains := by rw [State.mains, State.mains, hp]
  have hr : y.running = s.running := by rw [State.running, State.running, hd]
  have hi : y.inService = s.inService := by rw [State.inService, State.inService, hl]
  simpa only [State.onsetTaken, State.appends, hpol, he, hs, htime, hl, hreg, hm, hr, hi] using ht

theorem State.finds.latchOnset {y : State} (h : s.finds y) {cls : EvClass} (hc : y.tam.condition cls = true) :
    s.onsetArrives (y.latchOnset cls none none) cls := by
  obtain ⟨h1, h2⟩ := y.latchOnset_spec cls
  rw [h.time, h.holdsBack, h.heldBack, h.evidence] at h1
  rw [h.time, h.holdsBack] at h2
  obtain ⟨e1, e2, e3, e4, e5, e6, e7, e8, e9, e10, e11, e12, e13⟩ := (State.agreeBut_iff _ _ _).1 h.agrees
  refine ⟨?_, ?_, fun hm => ?_, h1, fun hh => h.onsetTaken (h2 hh)⟩
  · rw [Tamper.condition_congr (y.latchOnset_conditions cls none none), hc]
  · simp at e1 e4 e5 e6 e7 e9 e11 e13
    simp [State.agreeBut_iff, e1, e4, e5, e6, e7, e9, e11, e13]
  · simp [h.mains hm]

theorem State.countTaken_finds {y : State} (h : s.finds y) (a : Arrival) : s.finds (y.countTaken a) := by
  obtain ⟨ha, hp, hd, ht, he, hs, hh, hb, hm⟩ := h
  obtain ⟨k1, k2, k3, k4⟩ := y.countTaken_keeps a
  obtain ⟨e1, e2, e3, e4, e5, e6, e7, e8, e9, e10, e11, e12, e13⟩ := (State.agreeBut_iff _ _ _).1 ha
  refine ⟨?_, k1.trans hp, k2.trans hd, ?_, by simpa using he, by simpa using hs, by simpa using hh, by simpa using hb, fun hmm => ?_⟩
  · simp at e1 e3 e4 e5 e6 e7 e8 e9 e11 e13
    simp [State.agreeBut_iff, *]
  · rw [← ht]
    unfold State.time State.clock State.clockValid
    rw [k3, k4]
  · have hy : y.holdup = false := State.mains_not_holdup y (by rw [State.mains, hm hmm]; exact hmm)
    simp [State.countTaken, hy, hm hmm]

/-- A cover's onset is an onset of its class, counted in HOLDUP unless it is held back. -/
theorem State.finds.coverOnset {y : State} (h : s.finds y) {which : Cover} (hc : y.tam.condition which.cls = true) :
    s.onsetArrives (y.coverOnset which) which.cls := by
  have h' : s.finds (if y.tam.holdsBack ⟨which.cls, true, y.time, none, none⟩ then y
      else y.countTaken ⟨which.cls, true, y.time, none, none⟩) := by
    split
    · exact h
    · exact State.countTaken_finds h _
  have := h'.latchOnset (cls := which.cls) (by split <;> simp [hc])
  rw [State.latchOnset, h'.time, ← h.time] at this
  exact this

theorem State.setCover_finds (s : State) (which : Cover) : s.finds (s.setCover which true) := by
  cases which <;> exact ⟨by simp [State.agreeBut_iff, State.setCover], rfl, rfl, rfl, rfl, rfl, rfl, rfl, fun _ => rfl⟩

theorem State.setCover_condition (s : State) (which : Cover) (b : Bool) : (s.setCover which b).tam.condition which.cls = b := by
  cases which <;> rfl

theorem Tamper.coverSeen_eq (t : Tamper) (which : Cover) : t.coverSeen which = t.condition which.cls := by cases which <;> rfl

theorem State.coverOpens_arrives (which : Cover) (hw : s.watching = true) (hc : s.tam.condition which.cls = false) :
    s.onsetArrives (s.coverOpens which) which.cls := by
  rw [State.coverOpens, if_pos (by rw [Tamper.coverSeen_eq, hw, hc]; rfl)]
  exact (s.setCover_finds which).coverOnset (s.setCover_condition which true)

theorem State.magnetSeen_arrives (hw : s.watching = true) (hc : s.tam.condition .magnet = false) :
    s.onsetArrives s.magnetSeen .magnet := by
  rw [State.magnetSeen, if_pos (by rw [hw, show s.tam.magnet = false from hc]; rfl)]
  have h : s.finds (s.onTam fun t => { t with magnet := true }) :=
    ⟨by simp [State.agreeBut_iff], rfl, rfl, rfl, rfl, rfl, rfl, rfl, fun _ => rfl⟩
  exact h.latchOnset rfl

theorem State.silenceExpires_arrives (hu : s.running = true ∧ s.mains = true ∧ s.link.silenceRunning = true)
    (hc : s.tam.condition .linkSilence = false) : s.onsetArrives s.silenceExpires .linkSilence := by
  obtain ⟨hr, hm, hl⟩ := hu
  have hc : s.tam.linkSilence = false := hc
  simp only [State.silenceExpires, State.linkUp, hr, hm, hl, hc, Bool.true_or, Bool.and_self, if_true, Bool.false_eq_true, if_false]
  have h : s.finds ((s.onLink fun l => { l with silenceRunning := false }).onTam fun t => { t with linkSilence := true }) :=
    ⟨by simp [State.agreeBut_iff], rfl, rfl, rfl, rfl, rfl, rfl, rfl, fun _ => rfl⟩
  exact h.latchOnset rfl

/-- What an end of a class brings about. -/
def State.endArrives (s t : State) (cls : EvClass) : Prop :=
  t.tam.condition cls = false ∧ State.agreeBut [.store, .tam] s t ∧
    (s.tam.holdsBack ⟨cls, false, s.time, none, none⟩ = true →
      t.tam.heldBack = s.tam.heldBack ++ [⟨cls, false, s.time, none, none⟩] ∧ t.tam.evidence = s.tam.evidence) ∧
    (s.tam.holdsBack ⟨cls, false, s.time, none, none⟩ = false → t.tam.evidence = { s.tam.evidence with
      log := if isLatched s.tam.evidence.log cls then s.tam.evidence.log.map (EvRecord.noteEnd cls s.time)
        else s.tam.evidence.log }) ∧
    ∀ k, isLatched t.tam.evidence.log k = isLatched s.tam.evidence.log k

theorem State.latchEnd_arrives (s : State) (cls : EvClass) (hc : s.tam.condition cls = false) : s.endArrives (s.latchEnd cls) cls := by
  refine ⟨?_, by simp [State.agreeBut_iff, State.latchEnd_sw], s.latchEnd_spec cls⟩
  rw [Tamper.condition_congr (s.latchEnd_conditions cls), hc]

theorem State.coverCloses_arrives (which : Cover) (hw : s.watching = true) (hc : s.tam.condition which.cls = true) :
    s.endArrives (s.coverCloses which) which.cls := by
  rw [State.coverCloses, if_pos (by rw [Tamper.coverSeen_eq, hw, hc]; rfl)]
  obtain ⟨h1, h2, h3⟩ := (s.setCover which false).latchEnd_arrives which.cls (s.setCover_condition which false)
  refine ⟨h1, ?_, by cases which <;> exact h3⟩
  simp [State.agreeBut_iff, State.latchEnd_sw, State.setCover]

theorem State.magnetGone_arrives (hw : s.watching = true) (hc : s.tam.condition .magnet = true) :
    s.endArrives s.magnetGone .magnet := by
  rw [State.magnetGone, if_pos (by rw [hw, show s.tam.magnet = true from hc]; rfl)]
  obtain ⟨h1, h2, h3⟩ := (s.onTam fun t => { t with magnet := false }).latchEnd_arrives .magnet rfl
  exact ⟨h1, by simp [State.agreeBut_iff, State.latchEnd_sw], h3⟩

end Sys2Proof.Machine
end

section
open Sys2Proof Sys2Proof.Machine

/-- Settles O27: an onset is held back, or a repeat, or a new record (State.recordOnset_taken); an end is noted and the latch
stays (State.latchEnd_spec). -/
theorem latchesFollowConditions : Obligations.LatchesFollowConditions := by
  refine ⟨fun c cls s hc hw hs hl => ?_, fun c cls s hc hw hs => ?_⟩
  · cases c <;> simp only [onsetOf, Option.some.injEq, reduceCtorEq] at hc <;> subst hc
    case coverOpenOnset which => exact ⟨_, rfl, State.coverOpens_arrives which hw hs⟩
    case magnetOnset => exact ⟨_, rfl, State.magnetSeen_arrives hw hs⟩
    case silenceTimerExpiry => exact ⟨_, rfl, State.silenceExpires_arrives (hl rfl) hs⟩
  · cases c <;> simp only [endOf, Option.some.injEq, reduceCtorEq] at hc <;> subst hc
    case coverOpenEnd which => exact ⟨_, rfl, State.coverCloses_arrives which hw hs⟩
    case magnetEnd => exact ⟨_, rfl, State.magnetGone_arrives hw hs⟩

end

section
/-! What a block registers (O29), and that energy is conserved over any run of blocks (O30). -/

namespace Sys2Proof.Machine

variable {s t : State} {samples : List SampleSet} {mag : Bool}

/-! ### A block that is registered -/

/-- The state after a block that is registered. -/
def State.afterBlock (s : State) (samples : List SampleSet) (mag : Bool) : State :=
  (s.beforeSupervision samples mag).superviseBlock s.sw.state (s.registers samples mag).total

theorem State.afterBlock_records (s : State) (samples : List SampleSet) (mag : Bool) :
    s.sameRecords (s.afterBlock samples mag) ∧
      State.agreeBut [.store, .reg, .acct, .sw, .sup, .tam, .life, .link] s (s.afterBlock samples mag) := by
  simp [State.afterBlock, State.beforeSupervision, State.sameRecords, State.agreeBut_iff]

theorem State.afterBlock_reg (s : State) (samples : List SampleSet) (mag : Bool) :
    (s.afterBlock samples mag).reg = { s.reg with
      acc := (s.registers samples mag).acc, stuck := (s.registers samples mag).stuck
      trace := lastN 8 (s.reg.trace ++ [(s.registers samples mag).summary])
      last := some (s.registers samples mag).summary } := by
  simp [State.afterBlock, State.beforeSupervision]

theorem State.raiseFault_life (s : State) (f : FaultKind) : (s.raiseFault f).life = if s.life.faults.contains f then s.life
    else { s.life with
      faults := s.life.faults ++ [f]
      memory := if s.life.memory.contains f then s.life.memory else s.life.memory ++ [f] } := by
  unfold State.raiseFault
  split <;> rfl

theorem State.endFault_life (s : State) (f : FaultKind) : (s.endFault f).life = if s.life.faults.contains f
    then { s.life with faults := s.life.faults.filter (· ≠ f) } else s.life := by
  unfold State.endFault
  split <;> rfl

theorem State.judgeStuck_life (s : State) (before after : List Nat) : (s.judgeStuck before after).life =
    if !anyStuck before && anyStuck after then (s.raiseFault .channelStuck).life
    else if anyStuck before && !anyStuck after then (s.endFault .channelStuck).life
    else s.life := by
  unfold State.judgeStuck
  (repeat' split) <;> rfl

theorem State.afterBlock_life (s : State) (samples : List SampleSet) (mag : Bool) :
    (s.afterBlock samples mag).life = (s.judgeStuck s.reg.stuck (s.registers samples mag).stuck).life := by
  simp only [State.afterBlock, State.beforeSupervision, State.superviseBlock_frame, State.tamperTakes_frame, State.acctTakes_frame]
  simp only [State.judgeStuck_life, State.raiseFault_life, State.endFault_life]
  rfl

/-- CHANNEL-STUCK is raised as the first channel sticks and ends as the last recovers (R9). -/
theorem State.judgeStuck_faults (s : State) (before after : List Nat) :
    (anyStuck before = anyStuck after → (s.judgeStuck before after).life = s.life) ∧
      (anyStuck before = false → anyStuck after = true → .channelStuck ∈ (s.judgeStuck before after).life.faults) ∧
      (anyStuck before = true → anyStuck after = false → .channelStuck ∉ (s.judgeStuck before after).life.faults) := by
  refine ⟨fun h => ?_, fun h1 h2 => ?_, fun h1 h2 => ?_⟩
  · cases hb : anyStuck before <;> simp [State.judgeStuck, ← h, hb]
  · simp only [State.judgeStuck, h1, h2, Bool.not_false, Bool.and_self, if_true]
    rw [State.raiseFault_life]
    split <;> simp_all
  · simp only [State.judgeStuck, h1, h2, Bool.not_false, Bool.not_true, Bool.false_eq_true, if_false, Bool.and_self,
      if_true]
    rw [State.endFault_life]
    split <;> simp_all

theorem State.time_congr (h : t.backup = s.backup) : t.time = s.time := by
  unfold State.time State.clock State.clockValid
  rw [h]

/-- What the account unit takes of a block (R51, R52, R57, R73). -/
theorem State.acctTakes_acct (s : State) (r : Registered) :
    (s.sound .account = false → (s.acctTakes r).acct = s.acct) ∧
      (s.sound .account = true → (s.acctTakes r).acct.queue = joinQuanta s.time r.quanta s.acct.queue ∧
        (s.life.state = .halted → (s.acctTakes r).acct.pendingReverse = .all3 0 ∧ (s.acctTakes r).acct.pendingSubstituted = 0) ∧
        (s.life.state ≠ .halted → (s.acctTakes r).acct.pendingReverse = s.acct.pendingReverse.zip addPending r.reverse ∧
          (s.acctTakes r).acct.pendingSubstituted = addPending s.acct.pendingSubstituted r.substituted)) := by
  refine ⟨fun h => by simp [State.acctTakes, h], fun h => ?_⟩
  by_cases hh : s.life.state = .halted <;> simp [State.acctTakes, h, hh, State.onAcct]

/-- The account unit takes of a block what it registers, with the time, the life state and the account's record as they stand. -/
theorem State.afterBlock_acct (s : State) (samples : List SampleSet) (mag : Bool) :
    ∃ x : State, (s.afterBlock samples mag).acct = (x.acctTakes (s.registers samples mag)).acct ∧ x.acct = s.acct ∧
      x.time = s.time ∧ x.life.state = s.life.state ∧ x.sound .account = s.sound .account := by
  refine ⟨(s.onReg fun g => { g with
    acc := (s.registers samples mag).acc, stuck := (s.registers samples mag).stuck
    trace := lastN 8 (g.trace ++ [(s.registers samples mag).summary]), last := some (s.registers samples mag).summary }).judgeStuck
      s.reg.stuck (s.registers samples mag).stuck, by simp [State.afterBlock, State.beforeSupervision], ?_⟩
  exact ⟨by simp, State.time_congr (by simp), by simp, by simp [State.sound]⟩

/-! ### Runs of blocks -/

theorem accAfter_cons (acc : Accumulators) (x : BlockCase × Accumulators × Registered)
    (run : List (BlockCase × Accumulators × Registered)) : accAfter acc (x :: run) = accAfter x.2.2.acc run := by
  unfold accAfter
  rw [List.getLast?_cons]
  cases run.getLast? <;> rfl

/-- A balance that each block keeps is kept over a run: what f counts out and h holds at the end is what g counts in and h held. -/
theorem registerAll_balance {f g : BlockCase × Accumulators × Registered → Nat} {h : Accumulators → Nat}
    (hstep : ∀ (b : BlockCase) (acc : Accumulators) (counts : List Nat),
      let r := registerBlock b.cal b.settings b.inputs acc counts b.result
      f (b, acc, r) + h r.acc = g (b, acc, r) + h acc) (blocks : List BlockCase) (acc : Accumulators) (counts : List Nat) :
    ((registerAll blocks acc counts).map f).sum + h (accAfter acc (registerAll blocks acc counts)) =
      ((registerAll blocks acc counts).map g).sum + h acc := by
  induction blocks generalizing acc counts with
  | nil => rfl
  | cons b rest ih =>
    have hb := hstep b acc counts
    simp only [registerAll, List.map_cons, List.sum_cons, accAfter_cons] at hb ⊢
    have := ih (registerBlock b.cal b.settings b.inputs acc counts b.result).acc
      (registerBlock b.cal b.settings b.inputs acc counts b.result).stuck
    omega

theorem registerAll_blocks (blocks : List BlockCase) (acc : Accumulators) (counts : List Nat) :
    (registerAll blocks acc counts).map Prod.fst = blocks := by
  induction blocks generalizing acc counts with
  | nil => rfl
  | cons b rest ih => rw [registerAll, List.map_cons, ih]

theorem forall_mem_registerAll {p : BlockCase × Accumulators × Registered → Prop}
    (hstep : ∀ (b : BlockCase) (acc : Accumulators) (counts : List Nat),
      p (b, acc, registerBlock b.cal b.settings b.inputs acc counts b.result)) (blocks : List BlockCase) (acc : Accumulators)
    (counts : List Nat) : ∀ x ∈ registerAll blocks acc counts, p x := by
  induction blocks generalizing acc counts with
  | nil => simp [registerAll]
  | cons b rest ih =>
    rw [registerAll]
    exact List.forall_mem_cons.2 ⟨hstep b acc counts, ih _ _⟩

/-- The residue carries what the measured energy leaves (R4). -/
theorem measured_add_newResidue (power : Int) (gain residue : Nat) :
    4294967296 * measured power gain residue + newResidue power gain residue = power.natAbs * gain + residue :=
  Nat.div_add_mod _ _

/-- An accumulator carries what it does not give out. -/
theorem giveOut_balance (acc gain : Nat) : 1000000 * (giveOut acc gain).2 + (giveOut acc gain).1 = gain + acc :=
  (Nat.div_add_mod _ _).trans (Nat.add_comm _ _)

theorem le_registeredEnergy (m : MeasureSettings) (energy irms : Nat) (fixed cut : Bool) :
    energy ≤ registeredEnergy m energy irms fixed cut := Nat.le_max_left _ _

/-- What is registered beyond what was measured goes through the substituted accumulator (R14). -/
theorem registerBlock_substituted (cal : CalSettings) (m : MeasureSettings) (inp : BlockInputs) (acc : Accumulators)
    (counts : List Nat) (b : BlockResult) :
    let r := registerBlock cal m inp acc counts b
    1000000 * r.substituted + (measured b.power.p1 cal.g.p1 acc.residue.p1 + measured b.power.p2 cal.g.p2 acc.residue.p2 +
      measured b.power.p3 cal.g.p3 acc.residue.p3) + r.acc.substituted = r.total + acc.substituted := by
  intro r
  obtain ⟨h1, h2, h3⟩ : measured b.power.p1 cal.g.p1 acc.residue.p1 ≤ r.summary.phases.p1.energy ∧
      measured b.power.p2 cal.g.p2 acc.residue.p2 ≤ r.summary.phases.p2.energy ∧
      measured b.power.p3 cal.g.p3 acc.residue.p3 ≤ r.summary.phases.p3.energy :=
    ⟨le_registeredEnergy _ _ _ _ _, le_registeredEnergy _ _ _ _ _, le_registeredEnergy _ _ _ _ _⟩
  obtain ⟨rest, ht, hs⟩ : ∃ rest, r.total = r.summary.phases.p1.energy + r.summary.phases.p2.energy + r.summary.phases.p3.energy + rest ∧
      1000000 * r.substituted + r.acc.substituted =
        ((r.summary.phases.p1.energy - measured b.power.p1 cal.g.p1 acc.residue.p1) +
          (r.summary.phases.p2.energy - measured b.power.p2 cal.g.p2 acc.residue.p2) +
          (r.summary.phases.p3.energy - measured b.power.p3 cal.g.p3 acc.residue.p3) + rest) + acc.substituted :=
    ⟨_, rfl, giveOut_balance _ _⟩
  omega

/-- The run of a constant factor. -/
theorem sum_map_factor {α : Type} (k : Nat) (f : α → Nat) (l : List α) : (l.map fun x => k * f x).sum = k * (l.map f).sum :=
  List.sum_map_mul_left l f k

end Sys2Proof.Machine
end

section
open Sys2Proof Sys2Proof.Machine

/-- Settles O29: a block is what it registers (Registered.byTerms_registerBlock), what the account unit takes of it
(State.acctTakes_acct), and the judgement of CHANNEL-STUCK. -/
theorem blocksAreRegistered : Obligations.BlocksAreRegistered := by
  refine fun samples mag s => ⟨fun he => ?_, fun h => ⟨s.afterBlock samples mag, State.exec_blockComplete_of_takesBlock s mag h, ?_⟩⟩
  · change Host.Outcome.next (s.blockDone samples mag) = _
    simp [State.blockDone, he]
  · obtain ⟨h1, h2⟩ := s.afterBlock_records samples mag
    have hreg := s.afterBlock_reg samples mag
    have hstuck : (s.afterBlock samples mag).reg.stuck = (s.registers samples mag).stuck := by rw [hreg]
    obtain ⟨f1, f2, f3⟩ := s.judgeStuck_faults s.reg.stuck (s.registers samples mag).stuck
    obtain ⟨x, hx, ha, ht, hl, hs⟩ := s.afterBlock_acct samples mag
    obtain ⟨a1, a2⟩ := x.acctTakes_acct (s.registers samples mag)
    rw [ha, hs] at a1
    rw [ha, hs, ht, hl] at a2
    rw [hstuck, State.afterBlock_life, hx]
    refine ⟨h1, h2, hreg, BlockResult.sumsOf_blockResult samples, stuckCounted_zipWith samples s.reg.stuck,
      Registered.byTerms_registerBlock _ _ _ _ _ _, rfl, rfl, f1, f2, f3, a1, fun hsound => ?_⟩
    obtain ⟨hq, hh, hn⟩ := a2 hsound
    refine ⟨hq, hq ▸ quantaJoined_joinQuanta _ _ _, hh, fun hne => ?_⟩
    obtain ⟨hr, hsub⟩ := hn hne
    rw [hr, hsub]
    exact ⟨rfl, rfl, rfl, rfl⟩

/-- Settles O30: each balance is kept by every block, so over the run (registerAll_balance). -/
theorem energyIsConserved : Obligations.EnergyIsConserved := by
  intro blocks acc counts
  have hres : ∀ f : BlockCase → Nat, (blocks.map f).sum = ((registerAll blocks acc counts).map fun x => f x.1).sum := fun f => by
    conv_lhs => rw [← registerAll_blocks blocks acc counts]
    rw [List.map_map]
    rfl
  refine ⟨?_, ?_, ?_, ?_, ?_, ?_, ?_, ?_, ?_⟩
  · rw [hres, ← sum_map_factor]
    exact registerAll_balance (h := fun a => a.residue.p1) (fun b acc counts => measured_add_newResidue _ _ _) blocks acc counts
  · rw [hres, ← sum_map_factor]
    exact registerAll_balance (h := fun a => a.residue.p2) (fun b acc counts => measured_add_newResidue _ _ _) blocks acc counts
  · rw [hres, ← sum_map_factor]
    exact registerAll_balance (h := fun a => a.residue.p3) (fun b acc counts => measured_add_newResidue _ _ _) blocks acc counts
  · rw [← sum_map_factor]
    exact registerAll_balance (h := fun a => a.q) (fun b acc counts => giveOut_balance _ _) blocks acc counts
  · rw [← sum_map_factor]
    refine registerAll_balance (h := fun a => a.reverse.p1) (fun b acc counts => ?_) blocks acc counts
    simpa [registerBlock, Tri.zip, Tri.map] using giveOut_balance acc.reverse.p1 _
  · rw [← sum_map_factor]
    refine registerAll_balance (h := fun a => a.reverse.p2) (fun b acc counts => ?_) blocks acc counts
    simpa [registerBlock, Tri.zip, Tri.map] using giveOut_balance acc.reverse.p2 _
  · rw [← sum_map_factor]
    refine registerAll_balance (h := fun a => a.reverse.p3) (fun b acc counts => ?_) blocks acc counts
    simpa [registerBlock, Tri.zip, Tri.map] using giveOut_balance acc.reverse.p3 _
  · rw [← sum_map_factor, Nat.add_right_comm, ← List.sum_map_add]
    exact registerAll_balance (h := fun a => a.substituted) (fun b acc counts => registerBlock_substituted _ _ _ _ _ _) blocks acc counts
  · exact forall_mem_registerAll (fun b acc counts => ⟨le_registeredEnergy _ _ _ _ _, le_registeredEnergy _ _ _ _ _,
      le_registeredEnergy _ _ _ _ _, Registered.byTerms_registerBlock _ _ _ _ _ _⟩) blocks acc counts

end

section
/-! The conditions judged from blocks (O32). -/

namespace Sys2Proof.Machine

variable {s t x : State}

/-! ### Latches are not lost -/

theorem isLatched_append (l m : List EvRecord) (c : EvClass) : isLatched (l ++ m) c = (isLatched l c || isLatched m c) := by
  simp [isLatched]

theorem isLatched_cons (r : EvRecord) (l : List EvRecord) (c : EvClass) :
    isLatched (r :: l) c = (r.cls == c && r.state == .opened || isLatched l c) := by
  simp [isLatched]

/-- A final record is no latch. -/
theorem EvRecord.isFinal.not_opened {r : EvRecord} (h : r.isFinal) : (r.state == .opened) = false := by
  rcases h with h | h <;> simp [h]

theorem isLatched_makeRoom (log : List EvRecord) (slots : List (Option Slot)) (c : EvClass) :
    isLatched (makeRoom log slots).1 c = isLatched log c := by
  unfold makeRoom
  split
  · rfl
  · rcases removeOldestFinal_spec log with ⟨h1, -⟩ | ⟨older, r, newer, h1, rfl, hr, -⟩
    · rw [h1]
    · rw [h1]
      simp [isLatched_append, isLatched_cons, hr.not_opened]

theorem isLatched_chooseSlot {log log' : List EvRecord} {slots : List (Option Slot)} {k : Nat}
    (h : chooseSlot log slots = some (k, log')) (c : EvClass) : isLatched log' c = isLatched log c := by
  unfold chooseSlot at h
  split at h
  · simp only [Option.some.injEq, Prod.mk.injEq] at h
    rw [h.2]
  · rcases takeFromFinal_spec log with ⟨h1, -⟩ | ⟨older, r, newer, k', h1, rfl, hr, -, -⟩
    · simp [h1] at h
    · rw [h1] at h
      simp only [Option.some.injEq, Prod.mk.injEq] at h
      obtain ⟨rfl, rfl⟩ := h
      simp [isLatched_append, isLatched_cons]

@[simp] theorem isLatched_nil (c : EvClass) : isLatched [] c = false := rfl

/-- A record that is appended adds its own latch and loses none. -/
theorem isLatched_logAppend (r : EvRecord) (seek : Bool) (trace : List Summary) (ev : EvidenceRec) (slots : List (Option Slot))
    (c : EvClass) : isLatched (logAppend r seek trace ev slots).1.log c =
      (isLatched ev.log c || (r.cls == c && r.state == .opened)) := by
  unfold logAppend
  dsimp only
  split
  · next k log h =>
    split at h
    · simp [isLatched_append, isLatched_cons, isLatched_nil, isLatched_chooseSlot h, isLatched_makeRoom]
    · simp at h
  · simp [isLatched_append, isLatched_cons, isLatched_nil, isLatched_makeRoom]

/-- No latch is lost, nothing ceases to be held back, and the suspension of the bypass counting does not end. -/
structure State.KeepsLatches (s t : State) : Prop where
  latched : ∀ c, isLatched s.tam.evidence.log c = true → isLatched t.tam.evidence.log c = true
  clearing : t.tam.clearing = s.tam.clearing
  entryHold : t.tam.entryHold = s.tam.entryHold
  suspended : s.tam.suspended = true → t.tam.suspended = true

theorem State.KeepsLatches.refl (s : State) : s.KeepsLatches s := ⟨fun _ => id, rfl, rfl, id⟩

theorem State.KeepsLatches.trans (h : s.KeepsLatches x) (h' : x.KeepsLatches t) : s.KeepsLatches t :=
  ⟨fun c hc => h'.latched c (h.latched c hc), h'.clearing.trans h.clearing, h'.entryHold.trans h.entryHold,
    fun hs => h'.suspended (h.suspended hs)⟩

/-- Nothing held back, and the class not being cleared. -/
theorem State.KeepsLatches.takes (h : s.KeepsLatches t) (hc : s.tam.clearing = []) (he : s.tam.entryHold = false) (a : Arrival) :
    t.tam.holdsBack a = false := by
  simp [Tamper.holdsBack, h.clearing, h.entryHold, hc, he]

theorem State.judgeRest_suspended (s : State) (h : s.tam.suspended = true) : s.judgeRest.tam.suspended = true := by
  unfold State.judgeRest State.beginOperation State.toRest
  simp only [State.onSw, State.onTam, State.pend, State.onLink]
  (repeat' split) <;> simp_all

theorem State.handHold_suspended (s : State) (r : Hold) (b : Bool) (h : s.tam.suspended = true) :
    (s.handHold r b).tam.suspended = true := by
  unfold State.handHold
  split
  · exact h
  · split
    · exact h
    · simp only [State.pend_frame, State.request_frame]
      exact State.judgeRest_suspended _ h

theorem State.handHold_keepsLatches (s : State) (r : Hold) (b : Bool) : s.KeepsLatches (s.handHold r b) :=
  ⟨fun c h => by simpa using h, by simp, by simp, s.handHold_suspended r b⟩

theorem State.judgeTamper_keepsLatches (s : State) : s.KeepsLatches s.judgeTamper := by
  unfold State.judgeTamper
  split
  · exact s.handHold_keepsLatches _ _
  · exact .refl s

theorem State.appendRecord_isLatched (s : State) (r : EvRecord) (c : EvClass) : isLatched (s.appendRecord r).tam.evidence.log c =
    (isLatched s.tam.evidence.log c || (r.cls == c && r.state == .opened)) := by
  simp [State.appendRecord, isLatched_logAppend]

theorem State.appendRecord_keepsLatches (s : State) (r : EvRecord) : s.KeepsLatches (s.appendRecord r) :=
  ⟨fun c h => by simp [State.appendRecord_isLatched, h], by simp [State.appendRecord], by simp [State.appendRecord],
    fun h => by simp [State.appendRecord, h]⟩

/-- An edit that leaves each record's class and state leaves the latches. -/
theorem State.editLog_keepsLatches (s : State) {f : EvRecord → EvRecord} (hf : ∀ r, (f r).cls = r.cls ∧ (f r).state = r.state) :
    s.KeepsLatches (s.editLog f) := by
  refine ⟨fun c h => ?_, by simp [State.editLog], by simp [State.editLog], fun h => by simp [State.editLog, h]⟩
  simpa [State.editLog, isLatched, hf] using h

theorem EvRecord.repeated_same (c : EvClass) (n : Nat) (r : EvRecord) :
    (r.repeated c n).cls = r.cls ∧ (r.repeated c n).state = r.state := by
  unfold EvRecord.repeated
  split <;> exact ⟨rfl, rfl⟩

theorem EvRecord.noteEnd_same (c : EvClass) (time : Option Nat) (r : EvRecord) :
    (r.noteEnd c time).cls = r.cls ∧ (r.noteEnd c time).state = r.state := by
  unfold EvRecord.noteEnd
  split <;> exact ⟨rfl, rfl⟩

theorem State.notifyEvidence_keepsLatches (s : State) (c : EvClass) : s.KeepsLatches (s.notifyEvidence c) := by
  unfold State.notifyEvidence
  split
  · exact ⟨fun _ => id, rfl, rfl, id⟩
  · exact .refl s

theorem State.recordOnset_keepsLatches (s : State) (a : Arrival) : s.KeepsLatches (s.recordOnset a) := by
  unfold State.recordOnset
  split
  · exact .refl s
  · split
    · exact s.appendRecord_keepsLatches _
    · split
      · exact (s.editLog_keepsLatches (EvRecord.repeated_same a.cls 1)).trans (State.notifyEvidence_keepsLatches _ _)
      · exact (s.appendRecord_keepsLatches _).trans (State.judgeTamper_keepsLatches _)

theorem State.recordEnd_keepsLatches (s : State) (a : Arrival) : s.KeepsLatches (s.recordEnd a) := by
  unfold State.recordEnd
  split
  · exact s.editLog_keepsLatches (EvRecord.noteEnd_same a.cls a.time)
  · exact .refl s

theorem State.arrive_keepsLatches (s : State) (a : Arrival) : s.KeepsLatches (s.arrive a) := by
  unfold State.arrive State.takeArrival
  split
  · exact ⟨fun _ => id, rfl, rfl, id⟩
  · split
    · exact s.recordOnset_keepsLatches a
    · exact s.recordEnd_keepsLatches a

/-- An onset that is taken with detection on leaves its class latched, but for a cover's in a service window. -/
theorem State.recordOnset_latched (s : State) {a : Arrival} (hd : (s.policy a.cls).detect = true) (hc : a.cls.isCover = false) :
    isLatched (s.recordOnset a).tam.evidence.log a.cls = true := by
  unfold State.recordOnset
  simp only [hd, hc, Bool.not_true, Bool.false_and, Bool.false_eq_true, if_false]
  split
  · next h =>
    exact ((s.editLog_keepsLatches (EvRecord.repeated_same a.cls 1)).trans (State.notifyEvidence_keepsLatches _ _)).latched _ h
  · simp [State.appendRecord_isLatched, blankRecord]

/-! ### A change of a condition -/

theorem State.classChange_same (s : State) (c : EvClass) (b : Bool) (p : Option Nat) (v : Int) : s.classChange c b b p v = s := by
  cases b <;> simp [State.classChange]

theorem State.classChange_conditions (s : State) (c : EvClass) (b a : Bool) (p : Option Nat) (v : Int) :
    (s.classChange c b a p v).tam.conditions = s.tam.conditions := by
  simp only [State.classChange]
  (repeat' split) <;> simp

theorem State.classChange_keepsLatches (s : State) (c : EvClass) (b a : Bool) (p : Option Nat) (v : Int) :
    s.KeepsLatches (s.classChange c b a p v) := by
  simp only [State.classChange, State.latchOnset, State.latchEnd]
  (repeat' split) <;> first | exact s.arrive_keepsLatches _ | exact .refl s

/-- A condition that begins, with detection on and nothing held back, latches its class. -/
theorem State.classChange_latched (s : State) {c : EvClass} (p : Option Nat) (v : Int) (hd : (s.policy c).detect = true)
    (hc : c.isCover = false) (hb : ∀ a, s.tam.holdsBack a = false) :
    isLatched (s.classChange c false true p v).tam.evidence.log c = true := by
  have e : s.classChange c false true p v = s.recordOnset ⟨c, true, s.time, p, some v⟩ := by
    simp [State.classChange, State.latchOnset, State.arrive_taken (hb _), State.takeArrival]
  rw [e]
  exact s.recordOnset_latched hd hc

theorem State.classChange_ls (s : State) (c : EvClass) (b a : Bool) (p : Option Nat) (v : Int) :
    (s.classChange c b a p v).sw.ls = s.sw.ls := by
  simp only [State.classChange, State.latchOnset, State.latchEnd, State.arrive, State.takeArrival, State.recordOnset, State.recordExcused,
    State.recordEnd, State.judgeTamper]
  (repeat' split) <;> simp

/-! ### One class judged after another -/

/-- The class is judged: its flags alone take new values, and the onset or the end follows from its condition before and after. -/
structure State.judges (s : State) (c : EvClass) (t : State) : Prop where
  intro ::
  takes : ∃ (f : Tamper → Tamper) (p : Option Nat) (v : Int),
    t = (s.onTam f).classChange c (s.tam.condition c) ((f s.tam).condition c) p v ∧
      (∀ d, d ≠ c → (f s.tam).condition d = s.tam.condition d) ∧ (f s.tam).evidence = s.tam.evidence ∧
      (f s.tam).slots = s.tam.slots ∧ (f s.tam).clearing = s.tam.clearing ∧ (f s.tam).entryHold = s.tam.entryHold ∧
      (f s.tam).suspended = s.tam.suspended

theorem State.judges.keepsLatches {c : EvClass} (h : s.judges c t) : s.KeepsLatches t := by
  obtain ⟨f, p, v, rfl, -, he, -, hc, hh, hs⟩ := h.takes
  refine .trans ⟨fun d hd => ?_, hc, hh, fun h => hs.trans h⟩ (State.classChange_keepsLatches _ _ _ _ _ _)
  rw [← he] at hd
  exact hd

theorem State.judges.others {c d : EvClass} (h : s.judges c t) (hd : d ≠ c) : t.tam.condition d = s.tam.condition d := by
  obtain ⟨f, p, v, rfl, hf, -⟩ := h.takes
  exact (Tamper.condition_congr (State.classChange_conditions _ _ _ _ _ _) d).trans (hf d hd)

theorem State.judges.ls {c : EvClass} (h : s.judges c t) : t.sw.ls = s.sw.ls := by
  obtain ⟨f, p, v, rfl, -⟩ := h.takes
  exact State.classChange_ls _ _ _ _ _ _

/-- A condition that begins, with detection on and nothing held back, latches its class. -/
theorem State.judges.latched {c : EvClass} (h : s.judges c t) (hb : s.tam.condition c = false) (ha : t.tam.condition c = true)
    (hd : (s.policy c).detect = true) (hc : c.isCover = false) (hcl : s.tam.clearing = []) (hh : s.tam.entryHold = false) :
    isLatched t.tam.evidence.log c = true := by
  obtain ⟨f, p, v, rfl, -, he, -, hc', hh', -⟩ := h.takes
  rw [Tamper.condition_congr (State.classChange_conditions _ _ _ _ _ _)] at ha
  change (f s.tam).condition c = true at ha
  rw [hb, ha]
  refine State.classChange_latched _ p v ?_ hc fun a => ?_
  · exact hd
  · simp [State.onTam, Tamper.holdsBack, hc', hh', hcl, hh]

/-- A condition that stays as it is leaves log and slots as they are. -/
theorem State.judges.same {c : EvClass} (h : s.judges c t) (hc : t.tam.condition c = s.tam.condition c) :
    t.tam.evidence = s.tam.evidence ∧ t.tam.slots = s.tam.slots := by
  obtain ⟨f, p, v, rfl, -, he, hs, -⟩ := h.takes
  rw [Tamper.condition_congr (State.classChange_conditions _ _ _ _ _ _)] at hc
  change (f s.tam).condition c = _ at hc
  rw [hc, State.classChange_same]
  exact ⟨he, hs⟩

/-- A block toward the other value of RESIDUAL (R143). -/
def residualToward (x : MeasureSettings) (before : Persist) (sum : Summary) : Bool :=
  if before.present then sum.residual * 5 < x.residualThreshold * 4 else x.residualThreshold < sum.residual

theorem State.judgeReverse_judges (s : State) (sum : Summary) : s.judges .reverse (s.judgeReverse sum) :=
  ⟨fun t => { t with reverse := s.tam.reverse.zip (Persist.judgeShows 32) (sum.phases.map (showsReverse s.config.measure)) }, _, _, rfl,
    fun d hd => by cases d <;> simp_all [Tamper.condition], rfl, rfl, rfl, rfl, rfl⟩

theorem State.judgeResidual_judges (s : State) (sum : Summary) : s.judges .residual (s.judgeResidual sum) :=
  ⟨fun t => { t with residual := s.tam.residual.judge 16 (residualToward s.config.measure s.tam.residual sum) }, _, _, rfl,
    fun d hd => by cases d <;> simp_all [Tamper.condition], rfl, rfl, rfl, rfl, rfl⟩

theorem State.judgeCut_judges (s : State) (sum : Summary) : s.judges .voltageCut (s.judgeCut sum) :=
  ⟨fun t => { t with voltageCut := s.tam.voltageCut.zip (Persist.judgeShows 16) (sum.phases.map (showsCut s.config.measure)) }, _, _, rfl,
    fun d hd => by cases d <;> simp_all [Tamper.condition], rfl, rfl, rfl, rfl, rfl⟩

theorem State.judgeBypass_judges (s : State) (sum : Summary) : s.judges .relayBypass (s.judgeBypass sum) := by
  unfold State.judgeBypass
  split
  · exact ⟨id, none, 0, (State.classChange_same s _ _ _ _).symm, fun _ _ => rfl, rfl, rfl, rfl, rfl, rfl⟩
  · exact ⟨fun t => { t with bypass := s.tam.bypass.judgeShows 8 (showsBypass s.config.measure s.sw.ls sum) }, _, _, rfl,
      fun d hd => by cases d <;> simp_all [Tamper.condition], rfl, rfl, rfl, rfl, rfl⟩

theorem State.judgeReverse_conditions (s : State) (sum : Summary) : (s.judgeReverse sum).tam.conditions =
    { s.tam.conditions with
      reverse := s.tam.reverse.zip (Persist.judgeShows 32) (sum.phases.map (showsReverse s.config.measure)) } :=
  State.classChange_conditions _ _ _ _ _ _

theorem State.judgeResidual_conditions (s : State) (sum : Summary) : (s.judgeResidual sum).tam.conditions =
    { s.tam.conditions with
      residual := s.tam.residual.judge 16 (residualToward s.config.measure s.tam.residual sum) } :=
  State.classChange_conditions _ _ _ _ _ _

theorem State.judgeCut_conditions (s : State) (sum : Summary) : (s.judgeCut sum).tam.conditions =
    { s.tam.conditions with
      voltageCut := s.tam.voltageCut.zip (Persist.judgeShows 16) (sum.phases.map (showsCut s.config.measure)) } :=
  State.classChange_conditions _ _ _ _ _ _

theorem State.judgeBypass_conditions (s : State) (sum : Summary) : (s.judgeBypass sum).tam.conditions =
    { s.tam.conditions with
      bypass := if s.tam.suspended then s.tam.bypass
        else s.tam.bypass.judgeShows 8 (showsBypass s.config.measure s.sw.ls sum) } := by
  unfold State.judgeBypass
  split
  · rfl
  · exact State.classChange_conditions _ _ _ _ _ _

theorem State.collectPost_tam (s : State) (sum : Summary) :
    (s.collectPost sum).tam = { s.tam with slots := s.tam.slots.map (Option.map (Slot.collect sum)) } := by
  unfold State.collectPost
  simp only []
  split <;> simp [State.onTam]

theorem State.superviseBlock_keepsLatches (s : State) (w : SwitchState) (n : Nat) : s.KeepsLatches (s.superviseBlock w n) := by
  refine ⟨fun c h => by simpa using h, ?_, ?_, fun h => ?_⟩
  · simp
  · simp
  · unfold State.superviseBlock State.trip
    (repeat' split) <;> simp only [State.request_frame, State.onSup]
    · exact State.handHold_suspended _ _ _ h
    all_goals exact h

/-! ### The judgement of a flag -/

theorem Persist.judgedBy_judge (limit : Nat) (toward : Prop) (b : Bool) (h : b = true ↔ toward) (p : Persist) :
    p.judgedBy limit toward (p.judge limit b) := by
  unfold Persist.judgedBy Persist.judge
  rw [← h]
  refine ⟨fun hn => ?_, fun hb hlt => ?_, fun hb hle => ?_⟩
  · simp [hn]
  · simp [hb, hlt]
  · simp [hb, Nat.not_lt.2 hle]

theorem Persist.judgedBy_judgeShows (limit : Nat) (shown : Prop) (b : Bool) (h : b = true ↔ shown) (p : Persist) :
    p.judgedBy limit (shown ↔ p.present = false) (p.judgeShows limit b) := by
  refine p.judgedBy_judge limit _ _ ?_
  rw [← h]
  cases b <;> cases p.present <;> simp

theorem showsReverse_iff (m : MeasureSettings) (p : PhaseSummary) :
    showsReverse m p = true ↔ p.reverse = true ∧ m.reverseMin ≤ p.energy := by
  simp [showsReverse]

theorem showsCut_iff (m : MeasureSettings) (p : PhaseSummary) : showsCut m p = true ↔ p.vrms < m.presence ∧ 200 < p.irms := by
  simp [showsCut]

theorem showsBypass_iff (m : MeasureSettings) (ls : Tri Bool) (sum : Summary) : showsBypass m ls sum = true ↔
    (sum.switch = .opened ∨ sum.switch = .armed) ∧ (ls.p1 = true ∨ ls.p2 = true ∨ ls.p3 = true ∨
      m.bypassThreshold < sum.phases.p1.irms ∨ m.bypassThreshold < sum.phases.p2.irms ∨
      m.bypassThreshold < sum.phases.p3.irms) := by
  simp [showsBypass, Tri.any, Tri.map, or_assoc]

/-! ### A block -/

/-- s when a block has been registered and the account unit has taken it, before the tamper unit. -/
def State.beforeTamper (s : State) (samples : List SampleSet) (mag : Bool) : State :=
  let r := s.registers samples mag
  ((s.onReg fun g => { g with
    acc := r.acc, stuck := r.stuck, trace := lastN 8 (g.trace ++ [r.summary]), last := some r.summary }).judgeStuck
      s.reg.stuck r.stuck).acctTakes r

theorem State.exec_blockComplete_beforeTamper {samples : List SampleSet} (mag : Bool) (h : s.takesBlock samples) :
    exec (.blockComplete samples mag) s = .next (((s.beforeTamper samples mag).tamperTakes (s.registers samples mag).summary).superviseBlock
      s.sw.state (s.registers samples mag).total) :=
  s.exec_blockComplete_of_takesBlock mag h

theorem State.beforeTamper_frame (s : State) (samples : List SampleSet) (mag : Bool) :
    (s.beforeTamper samples mag).tam = s.tam ∧ (s.beforeTamper samples mag).sw = s.sw ∧
      (s.beforeTamper samples mag).config = s.config ∧ ∀ c, (s.beforeTamper samples mag).policy c = s.policy c := by
  refine ⟨?_, ?_, ?_, fun c => State.policy_congr ?_ ?_ c⟩ <;> simp [State.beforeTamper, State.config, State.sound]

theorem State.config_congr (h1 : t.store.recs = s.store.recs) (h2 : t.store.unsound = s.store.unsound) : t.config = s.config := by
  unfold State.config State.sound
  rw [h1, h2]

theorem State.Onward.config (h : s.Onward t) : t.config = s.config := State.config_congr h.records.1 h.records.2.2

section
variable (s : State) (m : Summary)

/-! The tamper unit takes a summary in five steps: it collects, and judges the four classes in turn. -/

theorem State.tamperTakes_conditions : (s.tamperTakes m).tam.conditions = { s.tam.conditions with
    reverse := s.tam.reverse.zip (Persist.judgeShows 32) (m.phases.map (showsReverse s.config.measure))
    residual := s.tam.residual.judge 16 (residualToward s.config.measure s.tam.residual m)
    voltageCut := s.tam.voltageCut.zip (Persist.judgeShows 16) (m.phases.map (showsCut s.config.measure))
    bypass := if ((((s.collectPost m).judgeReverse m).judgeResidual m).judgeCut m).tam.suspended then s.tam.bypass
      else s.tam.bypass.judgeShows 8 (showsBypass s.config.measure s.sw.ls m) } := by
  have o1 : s.Onward (s.collectPost m) := State.collectPost_onward (.refl s) m
  have o2 := o1.trans (State.judgeReverse_onward (.refl _) m)
  have o3 := o2.trans (State.judgeResidual_onward (.refl _) m)
  have o4 := o3.trans (State.judgeCut_onward (.refl _) m)
  have ls0 : (s.collectPost m).sw.ls = s.sw.ls := by
    unfold State.collectPost
    simp only []
    split <;> simp [State.onTam]
  have hls : ((((s.collectPost m).judgeReverse m).judgeResidual m).judgeCut m).sw.ls = s.sw.ls := by
    rw [(State.judgeCut_judges _ m).ls, (State.judgeResidual_judges _ m).ls, (State.judgeReverse_judges _ m).ls, ls0]
  have c1 : (s.collectPost m).tam.conditions = s.tam.conditions := by rw [State.collectPost_tam]; rfl
  have c2 := (s.collectPost m).judgeReverse_conditions m
  have c3 := ((s.collectPost m).judgeReverse m).judgeResidual_conditions m
  have c4 := (((s.collectPost m).judgeReverse m).judgeResidual m).judgeCut_conditions m
  have r1 : (s.collectPost m).tam.reverse = s.tam.reverse := (congrArg Tamper.reverse c1 :)
  have r2 : ((s.collectPost m).judgeReverse m).tam.residual = s.tam.residual :=
    (congrArg Tamper.residual c2 :).trans (congrArg Tamper.residual c1 :)
  have r3 : (((s.collectPost m).judgeReverse m).judgeResidual m).tam.voltageCut = s.tam.voltageCut :=
    (congrArg Tamper.voltageCut c3 :).trans ((congrArg Tamper.voltageCut c2 :).trans (congrArg Tamper.voltageCut c1 :))
  have r4 : ((((s.collectPost m).judgeReverse m).judgeResidual m).judgeCut m).tam.bypass = s.tam.bypass :=
    (congrArg Tamper.bypass c4 :).trans ((congrArg Tamper.bypass c3 :).trans
      ((congrArg Tamper.bypass c2 :).trans (congrArg Tamper.bypass c1 :)))
  rw [State.tamperTakes, State.judgeBypass_conditions, c4, c3, c2, c1, r1, r2, r3, r4, hls, o1.config, o2.config, o3.config, o4.config]

/-- Each class that is judged from blocks, of which nothing is judged before or after. -/
theorem State.tamperTakes_judges {c : EvClass} (hc : c ∈ [EvClass.reverse, .residual, .voltageCut, .relayBypass]) :
    ∃ x y : State, s.Onward x ∧ (s.collectPost m).KeepsLatches x ∧ x.tam.condition c = s.tam.condition c ∧ x.judges c y ∧
      y.KeepsLatches (s.tamperTakes m) ∧ (s.tamperTakes m).tam.condition c = y.tam.condition c := by
  have o1 : s.Onward (s.collectPost m) := State.collectPost_onward (.refl s) m
  have o2 := o1.trans (State.judgeReverse_onward (.refl _) m)
  have o3 := o2.trans (State.judgeResidual_onward (.refl _) m)
  have o4 := o3.trans (State.judgeCut_onward (.refl _) m)
  have c1 : (s.collectPost m).tam.condition c = s.tam.condition c :=
    Tamper.condition_congr (by rw [State.collectPost_tam]; rfl) c
  have j1 := (s.collectPost m).judgeReverse_judges m
  have j2 := ((s.collectPost m).judgeReverse m).judgeResidual_judges m
  have j3 := (((s.collectPost m).judgeReverse m).judgeResidual m).judgeCut_judges m
  have j4 := ((((s.collectPost m).judgeReverse m).judgeResidual m).judgeCut m).judgeBypass_judges m
  simp only [List.mem_cons, List.not_mem_nil, or_false] at hc
  rcases hc with rfl | rfl | rfl | rfl
  · exact ⟨_, _, o1, .refl _, c1, j1, j2.keepsLatches.trans (j3.keepsLatches.trans j4.keepsLatches),
      (j4.others (by decide)).trans ((j3.others (by decide)).trans (j2.others (by decide)))⟩
  · exact ⟨_, _, o2, j1.keepsLatches, (j1.others (by decide)).trans c1, j2, j3.keepsLatches.trans j4.keepsLatches,
      (j4.others (by decide)).trans (j3.others (by decide))⟩
  · exact ⟨_, _, o3, j1.keepsLatches.trans j2.keepsLatches, (j2.others (by decide)).trans ((j1.others (by decide)).trans c1), j3,
      j4.keepsLatches, j4.others (by decide)⟩
  · exact ⟨_, _, o4, j1.keepsLatches.trans (j2.keepsLatches.trans j3.keepsLatches),
      (j3.others (by decide)).trans ((j2.others (by decide)).trans ((j1.others (by decide)).trans c1)), j4, .refl _, rfl⟩

theorem State.collectPost_keepsLatches : s.KeepsLatches (s.collectPost m) := by
  refine ⟨fun c => ?_, ?_, ?_, ?_⟩ <;> rw [State.collectPost_tam]
  exacts [id, id]

theorem State.tamperTakes_keepsLatches : s.KeepsLatches (s.tamperTakes m) :=
  (s.collectPost_keepsLatches m).trans ((State.judgeReverse_judges _ m).keepsLatches.trans
    ((State.judgeResidual_judges _ m).keepsLatches.trans ((State.judgeCut_judges _ m).keepsLatches.trans
      (State.judgeBypass_judges _ m).keepsLatches)))

/-- A condition that begins latches its class. -/
theorem State.tamperTakes_latched {c : EvClass} (hc : c ∈ [EvClass.reverse, .residual, .voltageCut, .relayBypass])
    (hb : s.tam.condition c = false) (ha : (s.tamperTakes m).tam.condition c = true) (hd : (s.policy c).detect = true)
    (hcl : s.tam.clearing = []) (hh : s.tam.entryHold = false) : isLatched (s.tamperTakes m).tam.evidence.log c = true := by
  obtain ⟨x, y, hx, kx, ex, hj, ky, ey⟩ := s.tamperTakes_judges m hc
  have k := (s.collectPost_keepsLatches m).trans kx
  refine ky.latched c (hj.latched (ex.trans hb) (ey ▸ ha) ?_ ?_ (k.clearing.trans hcl) (k.entryHold.trans hh))
  · rw [hx.policy]
    exact hd
  · simp only [List.mem_cons, List.not_mem_nil, or_false] at hc
    rcases hc with rfl | rfl | rfl | rfl <;> rfl

/-- With no condition changed the log stays as it is, and the summary is collected alone. -/
theorem State.tamperTakes_same (h : ∀ c, (s.tamperTakes m).tam.condition c = s.tam.condition c) :
    (s.tamperTakes m).tam.evidence = s.tam.evidence ∧
      (s.tamperTakes m).tam.slots = s.tam.slots.map (Option.map (Slot.collect m)) := by
  have j1 := (s.collectPost m).judgeReverse_judges m
  have j2 := ((s.collectPost m).judgeReverse m).judgeResidual_judges m
  have j3 := (((s.collectPost m).judgeReverse m).judgeResidual m).judgeCut_judges m
  have j4 := ((((s.collectPost m).judgeReverse m).judgeResidual m).judgeCut m).judgeBypass_judges m
  have c1 : ∀ c, (s.collectPost m).tam.condition c = s.tam.condition c := fun c =>
    Tamper.condition_congr (by rw [State.collectPost_tam]; rfl) c
  have h1 := h .reverse
  have h2 := h .residual
  have h3 := h .voltageCut
  have h4 := h .relayBypass
  unfold State.tamperTakes at h1 h2 h3 h4
  rw [j4.others (by decide), j3.others (by decide), j2.others (by decide), ← c1] at h1
  rw [j4.others (by decide), j3.others (by decide), ← c1, ← j1.others (by decide)] at h2
  rw [j4.others (by decide), ← c1, ← j1.others (by decide), ← j2.others (by decide)] at h3
  rw [← c1, ← j1.others (by decide), ← j2.others (by decide), ← j3.others (by decide)] at h4
  obtain ⟨e1, s1⟩ := j1.same h1
  obtain ⟨e2, s2⟩ := j2.same h2
  obtain ⟨e3, s3⟩ := j3.same h3
  obtain ⟨e4, s4⟩ := j4.same h4
  unfold State.tamperTakes
  rw [e4, e3, e2, e1, s4, s3, s2, s1, State.collectPost_tam]
  exact ⟨rfl, rfl⟩

end

theorem State.superviseBlock_conditions (s : State) (w : SwitchState) (n : Nat) :
    (s.superviseBlock w n).tam.conditions = s.tam.conditions := by
  simp [Tamper.conditions]

end Sys2Proof.Machine
end

section
open Sys2Proof Sys2Proof.Machine

/-- Settles O32: the block's own part is the tamper unit's taking of its summary; the account unit before it and the supervision
after it leave the conditions, the log and the slots. -/
theorem blockConditionsBeginAndEnd : Obligations.BlockConditionsBeginAndEnd := by
  intro samples mag s htakes
  obtain ⟨htam, hsw, hconfig, hpolicy⟩ := s.beforeTamper_frame samples mag
  have hexec := s.exec_blockComplete_beforeTamper mag htakes
  generalize s.beforeTamper samples mag = y at *
  refine ⟨_, hexec, ?_⟩
  intro m x reverse cut bypass
  set t := (y.tamperTakes m).superviseBlock s.sw.state (s.registers samples mag).total with ht
  have hc : t.tam.conditions = (y.tamperTakes m).tam.conditions := State.superviseBlock_conditions _ _ _
  have hk : (y.tamperTakes m).KeepsLatches t := State.superviseBlock_keepsLatches _ _ _
  have hf := hc.trans (y.tamperTakes_conditions m)
  rw [htam, hsw, hconfig] at hf
  have hrev := congrArg Tamper.reverse hf
  change t.tam.reverse = _ at hrev
  have hres := congrArg Tamper.residual hf
  change t.tam.residual = _ at hres
  have hcut := congrArg Tamper.voltageCut hf
  change t.tam.voltageCut = _ at hcut
  have hbyp := congrArg Tamper.bypass hf
  change t.tam.bypass = _ at hbyp
  dsimp only at hrev hres hcut hbyp
  have ks : ((((y.collectPost m).judgeReverse m).judgeResidual m).judgeCut m).KeepsLatches t :=
    (State.judgeBypass_judges _ m).keepsLatches.trans hk
  have k0 : s.tam.suspended = true → ((((y.collectPost m).judgeReverse m).judgeResidual m).judgeCut m).tam.suspended = true :=
    fun h => ((y.collectPost_keepsLatches m).trans ((State.judgeReverse_judges _ m).keepsLatches.trans
      ((State.judgeResidual_judges _ m).keepsLatches.trans (State.judgeCut_judges _ m).keepsLatches))).suspended (htam ▸ h)
  rw [hrev, hres, hcut]
  refine ⟨Persist.judgedBy_judgeShows 32 _ _ (showsReverse_iff x _) _, Persist.judgedBy_judgeShows 32 _ _ (showsReverse_iff x _) _,
    Persist.judgedBy_judgeShows 32 _ _ (showsReverse_iff x _) _, Persist.judgedBy_judge 16 _ _ ?_ _,
    Persist.judgedBy_judgeShows 16 _ _ (showsCut_iff x _) _, Persist.judgedBy_judgeShows 16 _ _ (showsCut_iff x _) _,
    Persist.judgedBy_judgeShows 16 _ _ (showsCut_iff x _) _, fun h => ?_, fun h => ?_, fun c hmem hb ha hd hcl hh => ?_,
    fun c h => ?_, fun h => ?_⟩
  · unfold residualToward
    split
    · simp only [x, decide_eq_true_eq]; omega
    · simp only [x, decide_eq_true_eq]
  · rw [hbyp, if_pos (k0 h)]
  · have hs : ((((y.collectPost m).judgeReverse m).judgeResidual m).judgeCut m).tam.suspended = false :=
      Bool.eq_false_iff.2 fun h' => by simp [ks.suspended h'] at h
    rw [hbyp, if_neg (by simp [hs])]
    exact Persist.judgedBy_judgeShows 8 _ _ (showsBypass_iff x _ _) _
  · rw [← htam] at hb hcl hh
    rw [Tamper.condition_congr hc] at ha
    exact hk.latched c (y.tamperTakes_latched m hmem hb ha (by rw [hpolicy]; exact hd) hcl hh)
  · exact hk.latched c ((y.tamperTakes_keepsLatches m).latched c (htam ▸ h))
  · have hsame := y.tamperTakes_same m fun c => by rw [← Tamper.condition_congr hc, h c, htam]
    rw [htam] at hsame
    obtain ⟨he, hs⟩ := hsame
    exact ⟨(by simp [ht] : t.tam.evidence = (y.tamperTakes m).tam.evidence).trans he,
      (by simp [ht] : t.tam.slots = (y.tamperTakes m).tam.slots).trans hs⟩

end

section
/-! The account unit takes the entries of its queue, and what a charge, a closed day and a code do to the account (O33 to O37). -/

namespace Sys2Proof.Machine

variable {s t : State}

/-! ### An entry is taken -/

theorem State.mains_of_mayTake (h : s.mayTake = true) : s.mains = true := by
  simp only [State.mayTake, Bool.and_eq_true] at h
  obtain ⟨⟨⟨_, hm⟩, _⟩, _⟩ := h
  exact hm

/-- The entry leaves the queue, and its write, which carries the pending counts, is asked for. -/
theorem State.takeInto_spec (h : s.mayTake = true) (rest : List Entry) (p : Purpose) (hp : p.merges = false) :
    State.agreeBut [.store, .acct] s (s.takeInto rest p) ∧
      (s.takeInto rest p).acct = { s.acct with queue := rest, pendingReverse := .all3 0, pendingSubstituted := 0 } ∧
      s.asks (s.takeInto rest p) p := by
  refine ⟨by simp [State.takeInto, State.agreeBut_iff], by simp [State.takeInto, Account.clearPending], ?_⟩
  have hm : (s.onAcct fun a => { a.clearPending with queue := rest }).holdup = false := State.mains_not_holdup (s := s) (State.mains_of_mayTake h)
  exact State.request_asks _ p hp (.inl hm)

theorem State.chargeHead_quanta {time : Option Nat} {n : Nat} {rest : List Entry} (h : s.mayTake = true)
    (hq : s.acct.queue = .quanta time n :: rest) : s.chargeHead =
      if s.life.state = .halted then s.onAcct fun a => { a with queue := lessOne time n rest }
      else s.takeInto (lessOne time n rest) (.charge (s.chargeOne time)) := by
  simp only [State.chargeHead, h, hq, if_true]

theorem State.takeBoundary_head {first count target : Nat} {rest : List Entry} (h : s.mayTake = true)
    (hq : s.acct.queue = .dayBoundary first count target :: rest) : s.takeBoundary =
      s.takeInto rest (.dayBoundary (s.accountNow.closeDays s.floor s.config.account.daily count)
        (dayRecords s.accountNow s.config.account.daily first count) target) := by
  simp only [State.takeBoundary, h, hq, if_true]

theorem State.takeAdoption_head {day : Nat} {rest : List Entry} (h : s.mayTake = true)
    (hq : s.acct.queue = .dayAdoption day :: rest) :
    s.takeAdoption = (s.onAcct fun a => { a with queue := rest }).request (.dayAdoption day) := by
  simp only [State.takeAdoption, h, hq, if_true]

theorem State.takeEntry_head {rest : List Entry} (h : s.mayTake = true) (hq : s.acct.queue = .entry :: rest) :
    s.takeEntry = s.takeInto rest .entry := by
  simp only [State.takeEntry, h, hq, if_true]

theorem Account.hasPending_iff (a : Account) :
    a.hasPending = true ↔ a.pendingReverse ≠ .all3 0 ∨ a.pendingSubstituted ≠ 0 := by
  obtain ⟨q, ⟨r1, r2, r3⟩, p, c⟩ := a
  simp [Account.hasPending, Tri.sum, Tri.all3]
  omega

theorem State.writePending_spec (h : s.mayTake = true) (hq : s.acct.queue = []) (hp : s.acct.hasPending = true) :
    s.writePending = s.takeInto [] (.charge s.accountNow) := by
  simp [State.writePending, h, hq, hp]

/-- A code that fits goes into its write. -/
theorem State.takeCode_fits {kind amount sequence : Nat} {rest : List Entry} (h : s.mayTake = true)
    (hq : s.acct.queue = .code kind amount sequence :: rest) {r : AccountRec} {applied recovered : Nat}
    (he : s.codeEffect kind amount = some (r, applied, recovered)) :
    s.takeCode = s.takeInto rest (.codeEffect r sequence ⟨some .ok, some kind, some sequence, applied, recovered, []⟩) := by
  simp only [State.takeCode, h, hq, he, if_true]

/-- A code that does not fit leaves the queue, and a waiting submission is refused. -/
theorem State.takeCode_overflows {kind amount sequence : Nat} {rest : List Entry} (h : s.mayTake = true)
    (hq : s.acct.queue = .code kind amount sequence :: rest) (he : s.codeEffect kind amount = none) :
    s.takeCode =
      let s1 := s.onAcct fun a => { a with queue := rest }
      if s1.awaitsCode then s1.endCode .overflow (refusedResult .overflow (some kind) (some sequence)) else s1 := by
  simp only [State.takeCode, h, hq, he, if_true]

theorem State.agreeBut.mono {p q : List Part} (h : State.agreeBut p s t) (hpq : ∀ x ∈ p, x ∈ q) : State.agreeBut q s t :=
  fun x hx => h x fun hp => hx (hpq x hp)

theorem Purpose.merges_codeEffect (a : AccountRec) (n : Nat) (r : CodeResult) : (Purpose.codeEffect a n r).merges = false := rfl

/-- A CREDIT code's effect (R69). -/
theorem State.codeEffect_credit (s : State) (amount : Nat) :
    let a := s.accountNow
    let recovered := min a.debt (amount * s.config.account.rate / 100)
    let balance : Int := a.balance + amount - recovered
    s.codeEffect 1 amount = if balance ≤ s.config.account.ceiling then some ({ a with
        balance := balance
        debt := a.debt - recovered
        emergency := a.emergency && decide (balance < 0)
        dayCredited := min 999999999 (a.dayCredited + amount)
        totalCredited := min 999999999999 (a.totalCredited + amount) }, amount - recovered, recovered)
      else none := by
  intro a recovered balance
  rw [State.codeEffect, if_pos rfl]
  by_cases h : balance ≤ s.config.account.ceiling
  · have hc : a.credit s.config.account amount = some _ := if_neg (Int.not_lt.2 h)
    rw [if_pos h]
    exact congrArg (Option.map _) hc
  · have hc : a.credit s.config.account amount = none := if_pos (Int.lt_of_not_ge h)
    rw [if_neg h]
    exact congrArg (Option.map _) hc

/-- A SET-DEBT code's effect (R70). -/
theorem State.codeEffect_setDebt (s : State) (amount : Nat) : s.codeEffect 5 amount =
    if s.accountNow.debt + amount ≤ 999999999 then
      some ({ s.accountNow with debt := s.accountNow.debt + amount }, 0, 0) else none := by
  rw [State.codeEffect, if_neg (by decide)]
  simp only [AccountRec.setDebt, ← Nat.not_le, ite_not]
  split <;> rfl

theorem State.takeCode_overflow_spec {kind amount sequence : Nat} {rest : List Entry} (h : s.mayTake = true)
    (hq : s.acct.queue = .code kind amount sequence :: rest) (he : s.codeEffect kind amount = none) :
    State.agreeBut [.store, .acct, .code, .link, .fresh] s s.takeCode ∧ s.takeCode.acct.queue = rest ∧
      s.takeCode.store = s.store ∧ s.takeCode.acct = { s.acct with queue := rest } ∧ (s.awaitsCode = true →
        s.takeCode.code.last = ⟨some .overflow, some kind, some sequence, 0, 0, []⟩ ∧
          s.replied s.takeCode .overflow s.takeCode.codeBody) := by
  rw [State.takeCode_overflows h hq he]
  have ha : (s.onAcct fun a => { a with queue := rest }).awaitsCode = s.awaitsCode := rfl
  simp only [ha]
  cases s.awaitsCode with
  | false => simp [State.agreeBut_iff]
  | true => simp [State.agreeBut_iff, State.endCode, State.setResult, State.codeBody, refusedResult, State.replied, State.answer, Link.atStage]

theorem State.sound_of_mayTake (h : s.mayTake = true) : s.sound .account = true := by
  simp only [State.mayTake, Bool.and_eq_true] at h
  obtain ⟨⟨_, hs⟩, _⟩ := h
  exact hs

/-- With the account record sound the body of an EMERGENCY is settled by the records and the condition. -/
theorem State.emergencyBody_congr (h : s.sound .account = true) (hs : t.store = s.store) (hc : t.acct.condition = s.acct.condition) :
    t.emergencyBody = s.emergencyBody := by
  have ht : t.sound .account = true := by rw [State.sound, hs]; exact h
  have hf : t.floor = s.floor := by
    unfold State.floor
    rw [State.config_congr (t := t) (s := s) (by rw [hs]) (by rw [hs]), hs]
  simp only [State.emergencyBody, State.conditionBytes, State.balanceBytes, State.floorBytes, h, ht, hs, hc, hf, if_true]

theorem State.takeEmergency_head {rest : List Entry} (h : s.mayTake = true) (hq : s.acct.queue = .emergency :: rest) :
    s.takeEmergency = if s.emergencyAllowed then s.takeInto rest (.emergencyTaken { s.accountNow with emergency := true })
      else
        let s1 := s.onAcct fun a => { a with queue := rest }
        if s1.awaits 0x12 then s1.answer .notAllowed s1.emergencyBody else s1 := by
  simp only [State.takeEmergency, h, hq, if_true]

/-! ### A charge (R56) -/

/-- The band a quantum is charged at (R39). -/
theorem Tariff.bandInForce_spec (tf : Tariff) (time : Option Nat) :
    tf.bandInForce true time = tf.prices.penaltyBand ∧ tf.bandInForce false none = tf.prices.defaultBand ∧
      ∀ t0, tf.bandInForce false (some t0) = tf.bandAt t0 := by
  simp [Tariff.bandInForce]

/-- What the debit leaves of the balance, and what joins the debt. -/
theorem AccountRec.takeDebit_spec (r : AccountRec) (d : Nat) :
    (-99999999 ≤ r.balance - d → r.takeDebit d = { r with balance := r.balance - d }) ∧
      (r.balance - d < -99999999 → r.takeDebit d = { r with
        balance := -99999999
        debt := saturate 999999999 (r.debt + (-99999999 - (r.balance - d)).toNat) }) :=
  ⟨fun h => if_neg (Int.not_lt.2 h), fun h => if_pos h⟩

theorem AccountRec.charge_fields (r : AccountRec) (band price : Nat) :
    let d := (r.residue + price) / 1000
    r.charge band price = { r.count band with
      balance := (r.takeDebit d).balance
      debt := (r.takeDebit d).debt
      residue := (r.residue + price) % 1000
      dayImport := saturate 999999999 (r.dayImport + 1)
      dayCharged := saturate 999999999 (r.dayCharged + d)
      totalCharged := saturate 999999999999 (r.totalCharged + d) } := by
  intro d
  obtain ⟨hge, hlt⟩ := r.takeDebit_spec d
  obtain ⟨hge', hlt'⟩ := (r.count band).takeDebit_spec d
  rcases Int.lt_or_le (r.balance - d) (-99999999) with h | h
  · rw [hlt h, AccountRec.charge, hlt' h]
    rfl
  · rw [hge h, AccountRec.charge, hge' h]
    rfl

/-- One charge: the debit with the residue is the price, and it is taken from the balance or joins the debt. -/
theorem AccountRec.charge_balance (r : AccountRec) (band price : Nat) (hb : -99999999 ≤ r.balance)
    (hd : r.debt + (r.residue + price) / 1000 ≤ 999999999) (hc : r.totalCharged + (r.residue + price) / 1000 ≤ 999999999999) :
    let f := r.charge band price
    f.residue = (r.residue + price) % 1000 ∧ f.totalCharged = r.totalCharged + (r.residue + price) / 1000 ∧
      -99999999 ≤ f.balance ∧ f.debt ≤ r.debt + (r.residue + price) / 1000 ∧
      (r.balance - f.balance) + ((f.debt : Int) - r.debt) = ((r.residue + price) / 1000 : Nat) ∧
      f.total = (r.total + 1) % 1000000000 := by
  obtain ⟨hge, hlt⟩ := r.takeDebit_spec ((r.residue + price) / 1000)
  rw [AccountRec.charge_fields]
  generalize hd' : (r.residue + price) / 1000 = d at *
  refine ⟨rfl, Nat.min_eq_right hc, ?_⟩
  change -99999999 ≤ (r.takeDebit d).balance ∧ (r.takeDebit d).debt ≤ r.debt + d ∧
    (r.balance - (r.takeDebit d).balance) + (((r.takeDebit d).debt : Int) - r.debt) = d ∧ _
  rcases Int.lt_or_le (r.balance - d) (-99999999) with h | h
  · simp only [hlt h, saturate]
    refine ⟨by omega, by omega, by omega, rfl⟩
  · simp only [hge h]
    refine ⟨by omega, by omega, by omega, rfl⟩

/-! ### Days' charges (R66) -/

/-- One day's charge: the balance goes down to the floor at most, the rest joins the debt. -/
theorem AccountRec.daily_spec (r : AccountRec) (floor : Int) (charge : Nat) :
    let f := r.daily floor charge
    f = { r with balance := f.balance, debt := f.debt, totalCharged := f.totalCharged } ∧
      f.totalCharged = min 999999999999 (r.totalCharged + charge) ∧
      (floor ≤ r.balance - charge → f.balance = r.balance - charge ∧ f.debt = r.debt) ∧
      (r.balance - charge < floor → floor ≤ r.balance → f.balance = floor ∧
        (f.debt : Int) = min 999999999 (r.debt + (charge - (r.balance - floor)))) ∧
      (r.balance < floor → f.balance = r.balance ∧ f.debt = min 999999999 (r.debt + charge)) := by
  intro f
  simp only [f, AccountRec.daily, saturate]
  split
  · refine ⟨rfl, rfl, fun _ => ⟨rfl, rfl⟩, fun h1 => ?_, fun h1 => ?_⟩ <;> dsimp only <;> omega
  · refine ⟨rfl, rfl, fun h1 => ?_, fun h1 h2 => ?_, fun h1 => ?_⟩ <;> dsimp only <;> omega

theorem AccountRec.dailies_spec (floor : Int) (charge : Nat) : ∀ (n : Nat) (r : AccountRec), r.debt ≤ 999999999 →
    r.totalCharged ≤ 999999999999 →
    let f := AccountRec.dailies floor charge n r
    f = { r with balance := f.balance, debt := f.debt, totalCharged := f.totalCharged } ∧
      f.totalCharged = min 999999999999 (r.totalCharged + n * charge) ∧
      (floor ≤ r.balance → f.balance = max floor (r.balance - n * charge) ∧
        (f.debt : Int) = min 999999999 (r.debt + max 0 (n * charge - (r.balance - floor)))) ∧
      (r.balance < floor → f.balance = r.balance ∧ f.debt = min 999999999 (r.debt + n * charge)) := by
  intro n
  induction n with
  | zero =>
    intro r hd hc
    simp only [AccountRec.dailies]
    refine ⟨trivial, by omega, fun h => ⟨by omega, by omega⟩, fun h => ⟨trivial, by omega⟩⟩
  | succ n ih =>
    intro r hd hc
    obtain ⟨e1, c1, a1, b1, d1⟩ := r.daily_spec floor charge
    have hd1 : (r.daily floor charge).debt ≤ 999999999 := by
      rcases Int.lt_or_le r.balance floor with h | h
      · rw [(d1 h).2]; omega
      · rcases Int.lt_or_le (r.balance - charge) floor with h' | h'
        · have := (b1 h' h).2; omega
        · rw [(a1 h').2]; exact hd
    obtain ⟨e2, c2, a2, b2⟩ := ih (r.daily floor charge) hd1 (by rw [c1]; omega)
    have hi : (((n + 1 : Nat) : Int)) * charge = ((n * charge : Nat) : Int) + charge := by push_cast; ring
    have hn : ((n : Int)) * charge = ((n * charge : Nat) : Int) := by push_cast; rfl
    rw [hn] at a2
    simp only [AccountRec.dailies, hi, Nat.succ_mul]
    generalize n * charge = k at *
    generalize r.daily floor charge = y at *
    generalize AccountRec.dailies floor charge n y = f at *
    refine ⟨by rw [e2, e1], ?_, fun h => ?_, fun h => ?_⟩
    · clear a1 b1 d1 a2 b2
      omega
    · rcases Int.lt_or_le (r.balance - charge) floor with h' | h'
      · obtain ⟨hb, hdebt⟩ := b1 h' h
        obtain ⟨hb2, hdebt2⟩ := a2 hb.ge
        clear a1 b1 d1 a2 b2 c1 c2
        exact ⟨by omega, by omega⟩
      · obtain ⟨hb, hdebt⟩ := a1 h'
        obtain ⟨hb2, hdebt2⟩ := a2 (hb ▸ h')
        clear a1 b1 d1 a2 b2 c1 c2
        exact ⟨by omega, by omega⟩
    · obtain ⟨hb, hdebt⟩ := d1 h
      obtain ⟨hb2, hdebt2⟩ := b2 (hb ▸ h)
      clear a1 b1 d1 a2 b2 c1 c2
      exact ⟨by omega, by omega⟩

end Sys2Proof.Machine
end

section
open Sys2Proof Sys2Proof.Machine

/-- Settles O33: the write is the charge at the band in force of the account as it stands. -/
theorem quantumIsCharged : Obligations.QuantumIsCharged := by
  intro time n rest s hmay hq
  refine ⟨s.chargeHead, rfl, ?_⟩
  rw [State.chargeHead_quanta hmay hq]
  by_cases hh : s.life.state = .halted
  · rw [if_pos hh]
    exact ⟨by simp [State.agreeBut_iff], rfl, fun _ => ⟨rfl, rfl, rfl⟩, fun h => absurd hh h⟩
  · rw [if_neg hh]
    obtain ⟨hagree, hacct, hasks⟩ := State.takeInto_spec hmay (lessOne time n rest) (.charge (s.chargeOne time)) rfl
    refine ⟨hagree, by rw [hacct]; rfl, fun h => absurd h hh, fun _ => ⟨by rw [hacct], by rw [hacct], s.chargeOne time, hasks, ?_⟩⟩
    intro r band penalty
    have hpen : s.penalty = true ↔ penalty := s.penalty_iff
    obtain ⟨hb1, hb2, hb3⟩ := s.tariff.bandInForce_spec time
    have hbands : (penalty → band = s.tariff.prices.penaltyBand) ∧ (¬ penalty → time = none → band = s.tariff.prices.defaultBand) ∧
        (¬ penalty → ∀ t0, time = some t0 → band = s.tariff.bandAt t0) := by
      refine ⟨fun h => ?_, fun h ht => ?_, fun h t0 ht => ?_⟩
      · simp only [band, hpen.2 h, hb1]
      · simp only [band, Bool.eq_false_iff.2 (mt hpen.1 h), ht, hb2]
      · simp only [band, Bool.eq_false_iff.2 (mt hpen.1 h), ht, hb3]
    obtain ⟨p1, p2, p3⟩ := hbands
    refine ⟨p1, p2, p3, ?_⟩
    intro price d
    have hcount : ∀ a, a = s.accountNow.count band ∨ a = s.accountNow.charge band price →
        a.total = (r.total + 1) % 1000000000 ∧ a.bands = r.bands.modify band (fun x => (x + 1) % 1000000000) ∧
          a.reverse = r.reverse.zip (fun x y => (x + y) % 1000000000) s.acct.pendingReverse ∧
          a.substituted = (r.substituted + s.acct.pendingSubstituted) % 1000000000 ∧ a.emergency = r.emergency ∧
          a.dayCredited = r.dayCredited ∧ a.totalCredited = r.totalCredited := by
      rintro a (rfl | rfl)
      · exact ⟨rfl, rfl, rfl, rfl, rfl, rfl, rfl⟩
      · rw [AccountRec.charge_fields]
        exact ⟨rfl, rfl, rfl, rfl, rfl, rfl, rfl⟩
    by_cases hc : s.life.state = .commissioning
    · have hone : s.chargeOne time = s.accountNow.count band := if_pos hc
      have hserv : ¬ s.inService = true := by simp [State.inService, hc]
      obtain ⟨c1, c2, c3, c4, c5, c6, c7⟩ := hcount _ (.inl hone)
      rw [hone] at *
      exact ⟨c1, c2, c3, c4, c5, c6, c7, fun _ => ⟨rfl, rfl, rfl, rfl, rfl, rfl⟩, fun h => absurd h hserv⟩
    · have hone : s.chargeOne time = s.accountNow.charge band price := if_neg hc
      obtain ⟨c1, c2, c3, c4, c5, c6, c7⟩ := hcount _ (.inr hone)
      refine ⟨c1, c2, c3, c4, c5, c6, c7, fun h => absurd h hc, fun _ => ?_⟩
      rw [hone, AccountRec.charge_fields]
      obtain ⟨hge, hlt⟩ := s.accountNow.takeDebit_spec d
      refine ⟨?_, ?_, rfl, rfl, rfl, fun h => ?_, fun h => ?_⟩
      · change (r.residue + price) % 1000 + 1000 * ((r.residue + price) / 1000) = _
        omega
      · exact Nat.mod_lt _ (by decide)
      · change (s.accountNow.takeDebit d).balance = _ ∧ (s.accountNow.takeDebit d).debt = _
        rw [hge h]
        exact ⟨rfl, rfl⟩
      · change (s.accountNow.takeDebit d).balance = _ ∧ ((s.accountNow.takeDebit d).debt : Int) = _
        rw [hlt h]
        refine ⟨rfl, ?_⟩
        change ((min 999999999 (r.debt + (-99999999 - (r.balance - d)).toNat) : Nat) : Int) = _
        omega

/-- Settles O34, by induction on the charges. -/
theorem chargesAreConserved : Obligations.ChargesAreConserved := by
  intro charges
  induction charges with
  | nil =>
    intro r f prices debits hres htot hb hd hc
    simp only [f, prices, debits, List.foldl_nil, List.map_nil, List.sum_nil, List.length_nil] at *
    refine ⟨by omega, by omega, by omega, by omega, by omega⟩
  | cons x rest ih =>
    intro r f prices debits hres htot hb hd hc
    simp only [f, prices, debits, List.foldl_cons, List.map_cons, List.sum_cons, List.length_cons] at *
    have hle : (r.residue + x.2) / 1000 ≤ (r.residue + (x.2 + (rest.map Prod.snd).sum)) / 1000 :=
      Nat.div_le_div_right (by omega)
    obtain ⟨e1, e2, e3, e4, e5, e6⟩ := r.charge_balance x.1 x.2 hb (by omega) (by omega)
    obtain ⟨i1, i2, i3, i4, i5⟩ := ih (r.charge x.1 x.2) (by rw [e1]; omega) (by rw [e6]; omega) e3 (by rw [e1]; omega)
      (by rw [e1]; omega)
    generalize r.charge x.1 x.2 = y at *
    generalize rest.foldl (fun a x => a.charge x.1 x.2) y = g at *
    generalize (rest.map Prod.snd).sum = k at *
    refine ⟨by omega, i2, by omega, by omega, by rw [i5, e6]; omega⟩

/-- Settles O35: each entry is one write; the days' charges by induction on their number. -/
theorem accountUnitTakesEntries : Obligations.AccountUnitTakesEntries := by
  refine ⟨fun s hmay => ⟨fun first count target rest hq => ?_, fun day rest hq => ?_, fun rest hq => ?_, fun hq hp => ?_⟩, ?_⟩
  · obtain ⟨h1, h2, h3⟩ := State.takeInto_spec hmay rest (.dayBoundary (s.accountNow.closeDays s.floor s.config.account.daily count)
      (dayRecords s.accountNow s.config.account.daily first count) target) rfl
    exact ⟨_, congrArg Host.Outcome.next (State.takeBoundary_head hmay hq), h1, h2, h3⟩
  · refine ⟨_, congrArg Host.Outcome.next (State.takeAdoption_head hmay hq), by simp [State.agreeBut_iff], by simp, ?_⟩
    exact State.request_asks _ _ rfl (.inl (State.mains_not_holdup (s := s) (State.mains_of_mayTake hmay)))
  · obtain ⟨h1, h2, h3⟩ := State.takeInto_spec hmay rest .entry rfl
    exact ⟨_, congrArg Host.Outcome.next (State.takeEntry_head hmay hq), h1, h2, h3⟩
  · obtain ⟨h1, h2, h3⟩ := State.takeInto_spec hmay [] (.charge s.accountNow) rfl
    exact ⟨_, congrArg Host.Outcome.next (State.writePending_spec hmay hq ((Account.hasPending_iff _).2 hp)), h1,
      by rw [h2, ← hq], h3⟩
  · intro r floor charge n hd hc f
    obtain ⟨e, c, a, b⟩ := AccountRec.dailies_spec floor charge n r hd hc
    refine ⟨a, b, c, rfl, rfl, rfl, ?_⟩
    change (AccountRec.dailies floor charge n r).residue = _ ∧ (AccountRec.dailies floor charge n r).total = _ ∧
      (AccountRec.dailies floor charge n r).bands = _ ∧ (AccountRec.dailies floor charge n r).emergency = _
    rw [e]
    exact ⟨rfl, rfl, rfl, rfl⟩

/-- Settles O36: a code fits exactly where the ceiling or the debt limit is kept. -/
theorem codeEffectsOnTheAccount : Obligations.CodeEffectsOnTheAccount := by
  intro kind amount sequence rest s hmay hq hkind
  refine ⟨s.takeCode, rfl, ?_⟩
  rcases hkind with rfl | rfl
  · by_cases hfit : s.accountNow.balance + amount - (min s.accountNow.debt (amount * s.config.account.rate / 100) : Nat) ≤
        (s.config.account.ceiling : Int)
    · have he := (s.codeEffect_credit amount).trans (if_pos hfit)
      obtain ⟨h1, h2, h3⟩ := State.takeInto_spec hmay rest _ (Purpose.merges_codeEffect _ _ _)
      rw [State.takeCode_fits hmay hq he]
      exact ⟨h1.mono (by decide), by rw [h2], fun hn => absurd hfit hn, fun _ => ⟨h1 .code (by decide), h1 .link (by decide), by rw [h2],
        by rw [h2], fun _ => h3, fun h => absurd h (by decide)⟩⟩
    · have he := (s.codeEffect_credit amount).trans (if_neg hfit)
      obtain ⟨h1, h2, h3⟩ := State.takeCode_overflow_spec hmay hq he
      exact ⟨h1, h2, fun _ => h3, fun h => absurd h hfit⟩
  · by_cases hfit : s.accountNow.debt + amount ≤ 999999999
    · have he := (s.codeEffect_setDebt amount).trans (if_pos hfit)
      obtain ⟨h1, h2, h3⟩ := State.takeInto_spec hmay rest _ (Purpose.merges_codeEffect _ _ _)
      rw [State.takeCode_fits hmay hq he]
      exact ⟨h1.mono (by decide), by rw [h2], fun hn => absurd hfit hn, fun _ => ⟨h1 .code (by decide), h1 .link (by decide), by rw [h2],
        by rw [h2], fun h => absurd h (by decide), fun _ => h3⟩⟩
    · have he := (s.codeEffect_setDebt amount).trans (if_neg hfit)
      obtain ⟨h1, h2, h3⟩ := State.takeCode_overflow_spec hmay hq he
      exact ⟨h1, h2, fun _ => h3, fun h => absurd h hfit⟩

/-- Settles O37. -/
theorem emergencyCredit : Obligations.EmergencyCredit := by
  intro s
  refine ⟨fun hx => ⟨s.examineEmergency, congrArg Host.Outcome.next (State.onRequest_examines s _ hx), fun h => ?_, fun h hs => ?_,
    fun h hs => ?_⟩, fun rest hmay hq => ?_⟩
  · simp only [State.examineEmergency, h, if_true]
    exact s.answer_onlyReplied _ _
  · simp only [State.examineEmergency, h, hs, Bool.not_true, Bool.false_eq_true, if_false]
    simp [State.agreeBut_iff, State.await, Link.atStage]
  · simp only [State.examineEmergency, h, hs, Bool.not_false, Bool.false_eq_true, if_true, if_false]
    exact s.answer_onlyReplied _ _
  · intro allowed
    refine ⟨s.takeEmergency, rfl, ?_⟩
    have hallowed : s.emergencyAllowed = true ↔ allowed := by
      simp [State.emergencyAllowed, allowed, Nat.pos_iff_ne_zero, and_assoc]
    rw [State.takeEmergency_head hmay hq]
    by_cases ha : s.emergencyAllowed = true
    · obtain ⟨h1, h2, h3⟩ := State.takeInto_spec hmay rest (.emergencyTaken { s.accountNow with emergency := true }) rfl
      rw [if_pos ha]
      exact ⟨by rw [h2], fun _ => ⟨h1, h3⟩, fun h => absurd (hallowed.1 ha) h⟩
    · rw [if_neg ha]
      have hw : (s.onAcct fun a => { a with queue := rest }).awaits 0x12 = s.awaits 0x12 := rfl
      simp only [hw]
      cases s.awaits 0x12 with
      | false => exact ⟨rfl, fun h => absurd (hallowed.2 h) ha, fun _ => ⟨by simp [State.agreeBut_iff], fun h => by cases h⟩⟩
      | true =>
        refine ⟨by simp, fun h => absurd (hallowed.2 h) ha, fun _ => ⟨by simp [State.agreeBut_iff], fun _ => ?_⟩⟩
        rw [if_pos rfl, State.emergencyBody_congr (t := State.answer _ _ _) (s := s.onAcct fun a => { a with queue := rest })
          (State.sound_of_mayTake hmay) (by simp) (by simp)]
        exact State.answer_replied _ _ _

end

section
/-! A completed account write makes the credit test and the condition afresh, a completed boundary the next comparison (O38). -/

namespace Sys2Proof.Machine

variable {s t x y : State}

/-! ### What a completion leaves to its effect -/

/-- Before the hold-up limit expires a completion is its effect on the state that has stored the write, and what then starts. -/
theorem State.complete_unexpired {sel : Purpose → Bool} {w : Write} {rest : List Write} (effect : Write → State → State)
    (h : s.completes sel w rest) (hl : s.backup.limitExpired = false)
    (he : (effect w (s.stored w rest)).backup.limitExpired = s.backup.limitExpired) :
    s.complete sel effect = (effect w (s.stored w rest)).pump := by
  rw [s.complete_eq effect h, State.settle_of_not_expired _ (by simpa using he.trans hl)]

@[simp] theorem State.stored_frame (s : State) (w : Write) (rest : List Write) :
    (s.stored w rest).pending = s.pending ∧ (s.stored w rest).backup = s.backup ∧ (s.stored w rest).reg = s.reg ∧
      (s.stored w rest).cal = s.cal ∧ (s.stored w rest).acct = s.acct ∧ (s.stored w rest).code = s.code ∧
      (s.stored w rest).sw = s.sw ∧ (s.stored w rest).sup = s.sup ∧ (s.stored w rest).tam = s.tam ∧
      (s.stored w rest).life = s.life ∧ (s.stored w rest).link = s.link ∧ (s.stored w rest).fresh = s.fresh ∧
      (s.stored w rest).store.unsound = s.store.unsound :=
  ⟨rfl, rfl, rfl, rfl, rfl, rfl, rfl, rfl, rfl, rfl, rfl, rfl, rfl⟩

/-- What a request lets start is no part of what it asks of the other parts. -/
theorem State.onlySuspends_of (h : t.tam.evidence = s.tam.evidence ∧ t.tam.slots = s.tam.slots ∧ t.tam.conditions = s.tam.conditions ∧
    t.tam.clearing = s.tam.clearing ∧ t.tam.entryHold = s.tam.entryHold ∧ t.tam.heldBack = s.tam.heldBack) : s.onlySuspends t := by
  obtain ⟨he, hs, hc, hcl, hh, hb⟩ := h
  unfold State.onlySuspends
  cases hs' : s.tam
  cases ht' : t.tam
  simp_all [Tamper.conditions]

theorem State.onlySuspends.refl (s : State) : s.onlySuspends s := rfl

theorem State.onlySuspends.trans (h : s.onlySuspends x) (h' : x.onlySuspends t) : s.onlySuspends t := by
  unfold State.onlySuspends at *
  rw [h', h]

theorem State.handHold_onlySuspends (s : State) (r : Hold) (b : Bool) : s.onlySuspends (s.handHold r b) :=
  State.onlySuspends_of (by simp)

/-! ### The credit test and condition (R59, R64) -/

/-- The account's floor and what is judged of it rest on the records and the friendly state alone. -/
theorem State.floor_congr (h1 : t.store.recs = s.store.recs) (h2 : t.store.unsound = s.store.unsound) : t.floor = s.floor := by
  unfold State.floor
  rw [State.config_congr h1 h2, h1]

theorem State.creditDue_congr (h1 : t.store.recs = s.store.recs) (h2 : t.store.unsound = s.store.unsound)
    (h3 : t.cal.friendly = s.cal.friendly) : t.creditDue = s.creditDue := by
  unfold State.creditDue
  rw [State.config_congr h1 h2, State.floor_congr h1 h2, h1, h3]

theorem State.conditionNow_congr (h1 : t.store.recs = s.store.recs) (h2 : t.store.unsound = s.store.unsound)
    (h3 : t.cal.friendly = s.cal.friendly) : t.conditionNow = s.conditionNow := by
  unfold State.conditionNow
  rw [State.config_congr h1 h2, State.floor_congr h1 h2, State.creditDue_congr h1 h2 h3, h1]

theorem State.creditDue_iff (s : State) : s.creditDue = true ↔ s.store.recs.account.balance ≤ s.floor ∧
    ¬ (s.cal.friendly = true ∧ s.floor - s.config.account.friendlyCap < s.store.recs.account.balance) := by
  simp [State.creditDue, imp_iff_not_or]

/-- The condition is the one that now applies, with the CREDIT notice on a change. -/
theorem State.judgeCondition_spec (s : State) (b : Bool) :
    (s.judgeCondition b).acct = { s.acct with condition := some s.conditionNow } ∧
      (s.acct.condition ≠ some s.conditionNow ∨ b = true → .credit ∈ (s.judgeCondition b).link.notices) ∧
      (∀ n ∈ s.link.notices, n ∈ (s.judgeCondition b).link.notices) := by
  unfold State.judgeCondition
  dsimp only
  split
  · next h =>
    simp only [Bool.and_eq_true, decide_eq_true_eq, Bool.not_eq_true'] at h
    obtain ⟨h, hb⟩ := h
    refine ⟨?_, ?_, fun n hn => hn⟩
    · rw [← h]
    · simp [h, hb]
  · exact ⟨by simp, fun _ => State.pend_mem _ _, fun n hn => State.pend_keeps_mem _ _ _ hn⟩

/-- The credit test of a sound account outside HALTED: CREDIT as it is due, in service alone, and the condition judged. -/
theorem State.creditTest_spec (s : State) (b : Bool) (hs : s.sound .account = true) (hl : s.life.state ≠ .halted ∨ b = true) :
    (s.inService = true → (s.creditTest b).sw.record.holds.credit = s.creditDue) ∧
      (s.inService = false → (s.creditTest b).sw = s.sw ∧ (s.creditTest b).tam = s.tam) ∧ s.onlySuspends (s.creditTest b) ∧
      (s.creditTest b).acct = { s.acct with condition := some s.conditionNow } ∧
      (s.acct.condition ≠ some s.conditionNow ∨ b = true → .credit ∈ (s.creditTest b).link.notices) := by
  have he : s.creditTest b = (if s.inService then s.handHold .credit s.creditDue else s).judgeCondition b := by
    rw [State.creditTest, if_neg]
    rcases hl with h | h <;> simp [hs, h]
  rw [he]
  cases hi : s.inService with
  | true =>
    obtain ⟨h1, h2, -⟩ := (s.handHold .credit s.creditDue).judgeCondition_spec b
    rw [State.conditionNow_congr (s := s) (by simp) (by simp) (by simp)] at h1 h2
    simp only [if_true]
    refine ⟨fun _ => ?_, fun h => absurd h (by decide), ?_, by simpa using h1, by simpa using h2⟩
    · have hc : s.life.state ≠ .commissioning := fun h => by simp [State.inService, h] at hi
      simpa [HoldSet.has] using State.handHold_has s .credit s.creditDue (by simp [hc])
    · simpa [State.onlySuspends] using s.handHold_onlySuspends .credit s.creditDue
  | false =>
    obtain ⟨h1, h2, -⟩ := s.judgeCondition_spec b
    simp only [Bool.false_eq_true, if_false]
    exact ⟨fun h => absurd h (by decide), fun _ => by simp, by simp [State.onlySuspends], h1, h2⟩

theorem State.creditTest_queue (s : State) (b : Bool) : (s.creditTest b).acct.queue = s.acct.queue := by
  unfold State.creditTest
  split
  · rfl
  · rw [(State.judgeCondition_spec _ _).1]
    split <;> simp

/-! ### The comparison (R42, R53) -/

/-- What the comparison leaves of the account unit and the calendar. -/
theorem State.compareDay_keeps' (s : State) : s.compareDay.acct = { s.acct with queue := s.compareDay.acct.queue } ∧
    s.compareDay.cal = { s.cal with outstanding := s.compareDay.cal.outstanding } := by
  unfold State.compareDay
  split
  · split
    · exact ⟨rfl, rfl⟩
    · dsimp only
      split <;> exact ⟨rfl, rfl⟩
  · exact ⟨rfl, rfl⟩

/-- The comparison that is not made. -/
theorem State.compareDay_idle (h : ¬ (s.alive = true ∧ s.mains = true ∧ s.inService = true ∧ s.clockValid = true)) : s.compareDay = s := by
  rw [State.compareDay, if_neg]
  simpa [and_assoc] using fun h1 h2 h3 h4 => absurd ⟨h1, h2, h3, h4⟩ h

/-- The comparison with nothing outstanding. -/
theorem State.compareDay_made (h : s.alive = true ∧ s.mains = true ∧ s.inService = true ∧ s.clockValid = true)
    (ho : s.cal.outstanding = false) :
    (∀ p, s.store.recs.days.lastDay = some p → dayOf s.clock ≤ p → s.compareDay = s) ∧
      (∀ p, s.store.recs.days.lastDay = some p → p < dayOf s.clock → s.compareDay.cal.outstanding = true ∧
        boundaryPlaced (.dayBoundary p (min (dayOf s.clock - p) 62) (dayOf s.clock)) p s.acct.queue s.compareDay.acct.queue) ∧
      (s.store.recs.days.lastDay = none → s.compareDay.cal.outstanding = true ∧
        s.compareDay.acct.queue = s.acct.queue ++ [.dayAdoption (dayOf s.clock)]) := by
  obtain ⟨h1, h2, h3, h4⟩ := h
  refine ⟨fun p hp hd => ?_, fun p hp hd => ?_, fun hp => ?_⟩ <;>
    simp only [State.compareDay, h1, h2, h3, h4, ho, hp, Bool.not_false, Bool.and_self, if_true]
  · rw [if_neg (Nat.not_lt.2 hd)]
  · rw [if_pos hd]
    exact ⟨rfl, boundaryPlaced_placeBoundary _ _ _⟩
  · exact ⟨rfl, rfl⟩

/-! ### What a credit test made in the course of a command leaves -/

/-- From s to t a credit test has been made, of the account, the friendly state and the settings of t. -/
structure State.tested (s t : State) : Prop where
  due : s.inService = true → t.sw.record.holds.credit = t.creditDue
  outside : s.inService = false → t.sw = s.sw ∧ t.tam = s.tam
  suspends : s.onlySuspends t
  acct : t.acct = { s.acct with queue := t.acct.queue, condition := some t.conditionNow }
  notice : s.acct.condition ≠ some t.conditionNow → .credit ∈ t.link.notices

theorem State.creditTest_tested (s : State) (hs : s.sound .account = true) (hl : s.life.state ≠ .halted) :
    s.tested (s.creditTest false) := by
  obtain ⟨h1, h2, h3, h4, h5⟩ := s.creditTest_spec false hs (.inl hl)
  have hc : (s.creditTest false).conditionNow = s.conditionNow := State.conditionNow_congr (by simp) (by simp) (by simp)
  have hd : (s.creditTest false).creditDue = s.creditDue := State.creditDue_congr (by simp) (by simp) (by simp)
  exact ⟨fun h => hd ▸ h1 h, h2, h3, by rw [hc, h4], fun h => h5 (.inl (hc ▸ h))⟩

/-- What follows the test touches neither what it rests on nor what it settled. -/
theorem State.tested.onward (h : x.tested y) (hi : s.inService = x.inService) (hx : x.sw = s.sw ∧ x.tam = s.tam ∧ x.acct = s.acct)
    (ht : t.sw = y.sw ∧ t.tam = y.tam ∧ t.acct = { y.acct with queue := t.acct.queue }) (hr : t.store.recs = y.store.recs)
    (hu : t.store.unsound = y.store.unsound) (hf : t.cal.friendly = y.cal.friendly)
    (hn : ∀ n ∈ y.link.notices, n ∈ t.link.notices) : s.tested t := by
  obtain ⟨h1, h2, h3, h4, h5⟩ := h
  obtain ⟨e1, e2, e3⟩ := hx
  obtain ⟨f1, f2, f3⟩ := ht
  have hc : t.conditionNow = y.conditionNow := State.conditionNow_congr hr hu hf
  have hd : t.creditDue = y.creditDue := State.creditDue_congr hr hu hf
  refine ⟨fun h => ?_, fun h => ?_, ?_, ?_, fun h => ?_⟩
  · rw [f1, hd, h1 (hi ▸ h)]
  · rw [f1, f2, ← e1, ← e2]
    exact h2 (hi ▸ h)
  · unfold State.onlySuspends at *
    rw [f2, ← e2]
    exact h3
  · rw [f3, hc, ← e3, h4]
  · exact hn _ (h5 (by rw [e3, ← hc]; exact h))

theorem accountWritten_tested (s : State) (w : Write) (hs : s.sound .account = true) (hl : s.life.state ≠ .halted) :
    s.tested (accountWritten w s) ∧ State.agreeBut [.store, .acct, .sw, .tam, .link, .fresh] s (accountWritten w s) ∧
      (accountWritten w s).acct.queue = s.acct.queue := by
  have h := s.creditTest_tested hs hl
  have hq : (s.creditTest false).acct.queue = s.acct.queue := by rw [(s.creditTest_spec false hs (.inl hl)).2.2.2.1]
  unfold accountWritten
  dsimp only
  (repeat' split) <;> refine ⟨?_, by simp [State.agreeBut_iff], by simp [hq]⟩ <;>
    exact h.onward rfl ⟨rfl, rfl, rfl⟩ (by simp) (by simp) (by simp) (by simp) (fun n hn => by simpa [State.answer] using hn)

theorem boundaryWritten_tested (s : State) (w : Write) (hs : s.sound .account = true) (hl : s.life.state ≠ .halted) :
    s.tested (boundaryWritten w s) ∧ State.agreeBut [.store, .cal, .acct, .sw, .tam, .link] s (boundaryWritten w s) ∧
      (boundaryWritten w s).cal.friendly = s.cal.friendly ∧ .day ∈ (boundaryWritten w s).link.notices := by
  have h := (s.onCal fun c => { c with outstanding := false }).creditTest_tested hs hl
  unfold boundaryWritten
  generalize hy : (s.onCal fun c => { c with outstanding := false }).creditTest false = y at *
  have hcal : y.cal.friendly = s.cal.friendly := by rw [← hy]; simp
  obtain ⟨ha, hc⟩ := (y.pend .day).compareDay_keeps'
  refine ⟨h.onward rfl ⟨rfl, rfl, rfl⟩ ⟨by simp, by simp, by simpa using ha⟩ (by simp) (by simp) (by rw [hc]; simp)
    fun n hn => ?_, ?_, by rw [hc]; simpa using hcal, ?_⟩
  · simpa using State.pend_keeps_mem _ _ _ hn
  · rw [← hy]
    simp [State.agreeBut_iff]
  · simpa using y.pend_mem .day

/-- A write that completes stores nothing of what the account's soundness rests on, so the test is made of the state as stored. -/
theorem State.tested.of_stored {w : Write} {rest : List Write} (h : (s.stored w rest).tested t) : s.tested t.pump :=
  h.onward rfl ⟨rfl, rfl, rfl⟩ (by simp) (by simp) (by simp) (by simp) (by simp)

/-- What the test says of the hold, the condition and the notice. -/
theorem State.tested.spec (h : s.tested t) : s.onlySuspends t ∧
    (s.inService = true → (t.sw.record.holds.credit = true ↔
      t.store.recs.account.balance ≤ t.floor ∧
        ¬ (t.cal.friendly = true ∧ t.floor - t.config.account.friendlyCap < t.store.recs.account.balance))) ∧
    (s.inService = false → t.sw = s.sw ∧ t.tam = s.tam) ∧ t.acct.condition = some t.conditionNow ∧
    t.acct.pendingReverse = s.acct.pendingReverse ∧ t.acct.pendingSubstituted = s.acct.pendingSubstituted ∧
    (s.acct.condition ≠ some t.conditionNow → .credit ∈ t.link.notices) :=
  ⟨h.suspends, fun hi => by rw [h.due hi]; exact t.creditDue_iff, h.outside, by rw [h.acct], by rw [h.acct], by rw [h.acct], h.notice⟩

/-- The comparison that follows a completed boundary or adoption, of a state that agrees with s in what it rests on. -/
theorem State.compareDay_follows (hd : x.alive = s.alive ∧ x.mains = s.mains ∧ x.inService = s.inService ∧ x.backup = s.backup)
    (ho : x.cal.outstanding = false) (hq : x.acct.queue = s.acct.queue) (hr : t.store.recs = x.store.recs)
    (ht : t.cal = x.compareDay.cal ∧ t.acct = x.compareDay.acct) :
    let compares := s.alive = true ∧ s.mains = true ∧ s.inService = true ∧ s.clockValid = true
    (¬ compares → t.cal.outstanding = false ∧ t.acct.queue = s.acct.queue) ∧
      (∀ p, compares → t.store.recs.days.lastDay = some p → dayOf s.clock ≤ p →
        t.cal.outstanding = false ∧ t.acct.queue = s.acct.queue) ∧
      (∀ p, compares → t.store.recs.days.lastDay = some p → p < dayOf s.clock → t.cal.outstanding = true ∧
        boundaryPlaced (.dayBoundary p (min (dayOf s.clock - p) 62) (dayOf s.clock)) p s.acct.queue t.acct.queue) ∧
      (compares → t.store.recs.days.lastDay = none → t.cal.outstanding = true ∧
        t.acct.queue = s.acct.queue ++ [.dayAdoption (dayOf s.clock)]) := by
  obtain ⟨d1, d2, d3, d4⟩ := hd
  obtain ⟨t1, t2⟩ := ht
  have hclock : x.clock = s.clock := congrArg (fun b : Backup => b.retained.clock) d4
  have hvalid : x.clockValid = s.clockValid := congrArg (fun b : Backup => b.retained.valid) d4
  intro compares
  have hcomp : (x.alive = true ∧ x.mains = true ∧ x.inService = true ∧ x.clockValid = true) ↔ compares := by
    rw [d1, d2, d3, hvalid]
  rw [t1, t2, hr]
  refine ⟨fun h => ?_, fun p h hp hle => ?_, fun p h hp hlt => ?_, fun h hp => ?_⟩
  · rw [x.compareDay_idle (mt hcomp.1 h)]
    exact ⟨ho, hq⟩
  · rw [(x.compareDay_made (hcomp.2 h) ho).1 p hp (hclock ▸ hle)]
    exact ⟨ho, hq⟩
  · rw [← hclock, ← hq]
    exact (x.compareDay_made (hcomp.2 h) ho).2.1 p hp (hclock ▸ hlt)
  · rw [← hclock, ← hq]
    exact (x.compareDay_made (hcomp.2 h) ho).2.2 hp

end Sys2Proof.Machine
end

section
open Sys2Proof Sys2Proof.Machine

/-- Settles O38: the effect of either write is the credit test, and of a boundary or an adoption the comparison at its end. -/
theorem accountWriteMakesTheCreditTest : Obligations.AccountWriteMakesTheCreditTest := by
  refine ⟨fun c sel s w rest hc h hs hl he => ?_, fun c sel s w rest hc h he => ?_⟩
  · rcases hc with ⟨rfl, rfl⟩ | ⟨rfl, rfl⟩
    · obtain ⟨ht, ha, hq⟩ := accountWritten_tested (s.stored w rest) w hs hl
      obtain ⟨h1, h2, h3, h4, h5, h6, h7⟩ := ht.of_stored.spec
      exact ⟨_, congrArg Host.Outcome.next (State.complete_unexpired accountWritten h he (by simp)),
        by simp [State.agreeBut_iff], h1, h2, h3, h4, h5, h6, by simp, h7,
        fun _ => ⟨by simpa using hq, by simp⟩, fun hc => by cases hc⟩
    · obtain ⟨ht, ha, hf, hd⟩ := boundaryWritten_tested (s.stored w rest) w hs hl
      obtain ⟨h1, h2, h3, h4, h5, h6, h7⟩ := ht.of_stored.spec
      exact ⟨_, congrArg Host.Outcome.next (State.complete_unexpired boundaryWritten h he (by simp [boundaryWritten])),
        by simp [State.agreeBut_iff, boundaryWritten], h1, h2, h3, h4, h5, h6, by simpa using hf, h7,
        fun hc => by (cases hc), fun _ => by simpa using hd⟩
  · rcases hc with ⟨rfl, rfl⟩ | ⟨⟨day, hw⟩, rfl, rfl⟩
    · refine ⟨_, congrArg Host.Outcome.next (State.complete_unexpired boundaryWritten h he (by simp [boundaryWritten])), ?_⟩
      refine State.compareDay_follows (x := (((s.stored w rest).onCal fun c => { c with outstanding := false }).creditTest false).pend .day)
        ?_ (by simp) ?_ ?_ ⟨?_, ?_⟩
      · simp [State.alive, State.mains, State.inService]
      · simp [State.creditTest_queue]
      · simp [boundaryWritten]
      · simp [boundaryWritten]
      · simp [boundaryWritten]
    · refine ⟨_, congrArg Host.Outcome.next (State.complete_unexpired otherWritten h he (by simp [otherWritten, hw])), ?_⟩
      refine State.compareDay_follows (x := (s.stored w rest).onCal fun c => { c with outstanding := false })
        ?_ (by simp) ?_ ?_ ⟨?_, ?_⟩
      · simp [State.alive, State.mains, State.inService]
      · simp
      · simp [otherWritten, hw]
      · simp [otherWritten, hw]
      · simp [otherWritten, hw]

end

section
/-! The clock's second, the ends it reaches, and SET-TIME (O40 to O43). -/

namespace Sys2Proof.Machine

variable {s t x y : State}

/-! ### What waits, in MAINS -/

/-- In MAINS what starts is the oldest that waits, so the order of all that is under way stays. -/
theorem State.pump_underWay_of_mains (hm : s.mains = true) : s.pump.underWay = s.underWay := by
  have hall : s.startsNext = fun _ => true := funext fun p => by simp [State.startsNext, hm]
  unfold State.pump
  rw [hall]
  split
  · next p hf hw =>
    cases hl : s.store.waiting with
    | nil => simp [hl] at hw
    | cons q rest =>
      simp only [hl, List.find?_cons, Option.some.injEq] at hw
      simp [State.underWay, State.onStore, hf, hl, hw]
  · rfl

theorem State.request_underWay_of_mains (hm : s.mains = true) (p : Purpose) :
    (s.request p).underWay = s.store.flight.map Write.purpose ++ addRequest p s.store.waiting := by
  have hh := s.mains_not_holdup hm
  rw [State.request, if_neg (by simp [hh]), State.pump_underWay_of_mains (by simpa [State.mains] using hm)]
  rfl

theorem State.writing_eq (s : State) (sel : Purpose → Bool) : s.writing sel = s.underWay.any sel := by
  simp [State.writing, State.underWay, List.any_map, Function.comp_def]

/-- A request that a kind leaves out, as it does the log's writes, changes nothing of that kind. -/
theorem addRequest_any {sel : Purpose → Bool} {p : Purpose} (hp : sel p = false) (he : ∀ a b, sel (.evidenceLog a b) = false)
    (l : List Purpose) : (addRequest p l).any sel = l.any sel := by
  induction l with
  | nil => simp [addRequest, hp]
  | cons q rest ih =>
    unfold addRequest
    split <;> simp [he, ih]

theorem addRequest_rearmedTo {p : Purpose} (hp : p.rearmedTo = none) (l : List Purpose) :
    (addRequest p l).findSome? Purpose.rearmedTo = l.findSome? Purpose.rearmedTo := by
  induction l with
  | nil => simp [addRequest, hp]
  | cons q rest ih =>
    unfold addRequest
    split
    · rfl
    · rfl
    · rfl
    · rw [List.findSome?_cons, List.findSome?_cons, ih]

/-- The lockout in force and the writes of the tariff record are the same in both states. -/
def State.sameEnds (s t : State) : Prop := t.lockoutUntil = s.lockoutUntil ∧ t.tariffBusy = s.tariffBusy

theorem State.sameEnds.refl (s : State) : s.sameEnds s := ⟨rfl, rfl⟩

theorem State.sameEnds.trans (h : s.sameEnds x) (h' : x.sameEnds t) : s.sameEnds t :=
  ⟨h'.1.trans h.1, h'.2.trans h.2⟩

theorem State.sameEnds_of_store (h : t.store = s.store) : s.sameEnds t := by
  constructor
  · rw [State.lockoutUntil, State.lockoutUntil, h]
  · rw [State.tariffBusy, State.tariffBusy, State.writing, State.writing, h]

theorem State.lockoutUntil_request (hm : s.mains = true) {p : Purpose} (hp : p.rearmedTo = none) :
    (s.request p).lockoutUntil = s.lockoutUntil := by
  have hu : ∀ x : State, x.lockoutUntil = x.store.recs.code.lockEnd.map fun t => (x.underWay.findSome? Purpose.rearmedTo).getD t :=
    fun _ => rfl
  rw [hu, hu, State.request_underWay_of_mains hm]
  simp [State.underWay, List.findSome?_append, addRequest_rearmedTo hp]

theorem State.request_sameEnds (hm : s.mains = true) {p : Purpose} (hp : p.rearmedTo = none) (hc : p.covers.contains .tariff = false) :
    s.sameEnds (s.request p) := by
  refine ⟨State.lockoutUntil_request hm hp, ?_⟩
  have hc' : ∀ a b, (Purpose.evidenceLog a b).covers.contains .tariff = false := by decide
  rw [State.tariffBusy, State.tariffBusy, State.writing_eq, State.writing_eq, State.request_underWay_of_mains hm, List.any_append,
    addRequest_any hc hc']
  simp [State.underWay]

theorem State.handHold_sameEnds (hm : s.mains = true) (r : Hold) (b : Bool) : s.sameEnds (s.handHold r b) := by
  unfold State.handHold
  split
  · exact .refl s
  · split
    · exact .refl s
    · have hj : s.sameEnds (s.onSw fun w => { w with record := { w.record with holds := w.record.holds.put r b } }).judgeRest :=
        State.sameEnds_of_store (by simp)
      refine hj.trans (.trans (State.request_sameEnds (p := .switchRecord) ?_ rfl rfl) (State.sameEnds_of_store rfl))
      simpa [State.mains] using hm

theorem State.creditTest_sameEnds (hm : s.mains = true) (b : Bool) : s.sameEnds (s.creditTest b) := by
  unfold State.creditTest
  split
  · exact .refl s
  · split
    · exact (State.handHold_sameEnds hm .credit s.creditDue).trans (State.sameEnds_of_store (by simp))
    · exact State.sameEnds_of_store (by simp)

theorem State.evalFriendly_sameEnds (hm : s.mains = true) : s.sameEnds s.evalFriendly := by
  unfold State.evalFriendly
  dsimp only
  split
  · exact .refl s
  · exact (State.sameEnds_of_store rfl).trans (State.creditTest_sameEnds (s := s.onCal _) hm _)

theorem State.newMinute_sameEnds (hm : s.mains = true) : s.sameEnds s.newMinute := by
  unfold State.newMinute
  split
  · exact State.evalFriendly_sameEnds hm
  · exact .refl s

/-! ### The friendly state (R40) -/

theorem State.evalFriendly_cal (s : State) :
    s.evalFriendly.cal = { s.cal with friendly := s.clockValid && s.tariff.friendlyAt s.clock } := by
  unfold State.evalFriendly
  dsimp only
  split
  · next h => rw [h]
  · simp

theorem State.evalFriendly_queue (s : State) : s.evalFriendly.acct.queue = s.acct.queue := by
  unfold State.evalFriendly
  dsimp only
  split
  · rfl
  · simp [State.creditTest_queue]

theorem State.creditTest_onlySuspends (s : State) (b : Bool) : s.onlySuspends (s.creditTest b) :=
  State.onlySuspends_of (by simp [Tamper.conditions])

theorem State.evalFriendly_onlySuspends (s : State) : s.onlySuspends s.evalFriendly :=
  State.onlySuspends_of (by simp [Tamper.conditions])

theorem State.newMinute_cal (s : State) : s.newMinute.cal =
    if s.clock % 60 = 0 then { s.cal with friendly := s.clockValid && s.tariff.friendlyAt s.clock } else s.cal := by
  unfold State.newMinute
  split
  · exact s.evalFriendly_cal
  · rfl

theorem State.newMinute_queue (s : State) : s.newMinute.acct.queue = s.acct.queue := by
  unfold State.newMinute
  split
  · exact s.evalFriendly_queue
  · rfl

theorem State.newMinute_onlySuspends (s : State) : s.onlySuspends s.newMinute :=
  State.onlySuspends_of (by simp [Tamper.conditions])

/-! ### The ends (R48, R91, R128) -/

/-- A READY tariff whose time has come is activated. -/
theorem State.activate_due {parts : PendingSections} {t0 ident : Nat} (ha : s.alive = true) (hm : s.mains = true)
    (hp : s.store.recs.tariff.pending = .ready parts t0 ident) (hv : s.clockValid = true) (hle : t0 ≤ s.clock)
    (hb : s.tariffBusy = false) : s.activate = s.request .tariffActivation ∧ s.asks s.activate .tariffActivation := by
  have he : s.activate = s.request .tariffActivation := by
    rw [State.activate, if_pos]
    simp [State.activationDue, hp, ha, hm, hv, hle, hb]
  rw [he]
  exact ⟨rfl, s.request_asks _ rfl (.inl (s.mains_not_holdup hm))⟩

theorem Purpose.isLockoutEnd_iff (p : Purpose) : p.isLockoutEnd = true ↔ p = .lockoutEnd := by
  cases p <;> simp [Purpose.isLockoutEnd]

theorem State.reached_iff (s : State) (u : Nat) : s.reached u = true ↔ u ≤ s.clock ∨ s.clock = maxClock := by
  simp [State.reached]

/-- A lockout whose end is reached has its ending write asked for. -/
theorem State.lockoutReached_due {u : Nat} (ha : s.alive = true) (hm : s.mains = true) (hu : s.lockoutUntil = some u)
    (hc : s.sound .code = true) (hr : u ≤ s.clock ∨ s.clock = maxClock) :
    .lockoutEnd ∈ s.lockoutReached.underWay ∧ (.lockoutEnd ∉ s.underWay →
      s.lockoutReached = s.request .lockoutEnd ∧ s.asks s.lockoutReached .lockoutEnd) := by
  have hasks := s.request_asks .lockoutEnd rfl (.inl (s.mains_not_holdup hm))
  have hw : s.writing Purpose.isLockoutEnd = true ↔ .lockoutEnd ∈ s.underWay := by
    simp [State.writing_eq, Purpose.isLockoutEnd_iff]
  have hdue : s.lockoutDue = !s.writing Purpose.isLockoutEnd := by
    simp [State.lockoutDue, hu, ha, hm, hc, (s.reached_iff u).2 hr]
  unfold State.lockoutReached
  by_cases hin : .lockoutEnd ∈ s.underWay
  · rw [hdue, hw.2 hin]
    exact ⟨hin, fun h => absurd hin h⟩
  · rw [hdue, Bool.eq_false_iff.2 (mt hw.1 hin)]
    refine ⟨?_, fun _ => ⟨rfl, hasks⟩⟩
    obtain ⟨-, -, hperm⟩ := hasks
    exact hperm.mem_iff.2 (by simp)

/-- A back-off end no more than its period ahead is left as it is. -/
theorem State.bringInBackoff_near {u period : Nat} (hb : s.sup.supply.backoff = some ⟨u, period⟩) (h : u ≤ s.clock + period) :
    s.bringInBackoff = s := by
  simp [State.bringInBackoff, hb, Nat.not_lt.2 h]

/-- A back-off end further ahead is brought in. -/
theorem State.bringInBackoff_far {u period : Nat} (hm : s.mains = true) (hb : s.sup.supply.backoff = some ⟨u, period⟩)
    (h : s.clock + period < u) : s.bringInBackoff =
      (s.onSup fun v => { v with supply := { v.supply with backoff := some ⟨s.clock + period, period⟩ } }).request .supplyRecord := by
  simp [State.bringInBackoff, hb, hm, h]

/-- A back-off whose end is reached is absent, and LOAD leaves the hold set. -/
theorem State.backoffTest_due {b : Backoff} (hb : s.sup.supply.backoff = some b) (hr : s.reached b.until_ = true) :
    s.backoffTest.sup = { s.sup with supply := { s.sup.supply with backoff := none } } ∧
      s.backoffTest.sw.record.holds.load = false := by
  have he : s.backoffTest = ((s.onSup fun u => { u with supply := { u.supply with backoff := none } }).handHold .load false).request
      .supplyRecord := by
    simp [State.backoffTest, hb, hr]
  rw [he]
  refine ⟨by simp, ?_⟩
  simpa [HoldSet.has] using State.handHold_has (s.onSup fun u => { u with supply := { u.supply with backoff := none } }) .load false rfl

theorem State.backoffReached_due {b : Backoff} (ha : s.alive = true) (hm : s.mains = true) (hb : s.sup.supply.backoff = some b)
    (hn : b.until_ ≤ s.clock + b.period) (hr : s.reached b.until_ = true) :
    s.backoffReached.sup = { s.sup with supply := { s.sup.supply with backoff := none } } ∧
      s.backoffReached.sw.record.holds.load = false := by
  have he : s.backoffReached = s.backoffTest := by
    rw [State.backoffReached, ha, hm, State.bringInBackoff_near hb hn]
    rfl
  rw [he]
  exact State.backoffTest_due hb hr

theorem State.backoffReached_onlySuspends (s : State) : s.onlySuspends s.backoffReached := by
  unfold State.backoffReached
  split
  · exact State.onlySuspends_of (by simp [Tamper.conditions])
  · exact .refl s

theorem State.clockTests_onlySuspends (s : State) : s.onlySuspends s.clockTests := by
  have h := (s.compareDay.activate.lockoutReached).backoffReached_onlySuspends
  unfold State.onlySuspends at *
  simpa [State.clockTests] using h

/-! ### SET-TIME (R32 to R36) -/

/-- A CLOCK-STEP record stands at the newest end, without a slot. -/
theorem State.clockStep_last (s : State) (prior : Option Nat) (v o : Nat) : (s.clockStep prior v o).tam.evidence.log.getLast? =
    some { blankRecord .clockStep .ended prior with
      number := s.tam.evidence.next, finish := some v, value := some (o : Int) } := by
  have hseek : ((s.policy .clockStep).snapshot && EvClass.clockStep.snapshotable && s.mains && !false) = false := by
    have hn : EvClass.clockStep.snapshotable = false := by decide
    simp [hn]
  unfold State.clockStep State.appendRecord
  simp only [blankRecord] at hseek ⊢
  rw [hseek]
  simp [logAppend]

theorem State.takeSetTime_onlyWaits (s : State) (v : Nat) (d : Option Nat) (h : s.holdup = false) :
    s.onlyWaits (s.takeSetTime v d) (.setTime v s.time (if s.clockValid then 0 else 1) d s.lockoutLeft) :=
  s.await_request_onlyWaits _ rfl (.inl h)

theorem State.withinAllowance_iff (s : State) (v : Nat) : s.withinAllowance v = true ↔
    (v ≤ s.clock + 300 ∧ s.clock ≤ v + 300) ∧ ∀ d ∈ s.store.recs.days.adjustDay, d < s.clock / 86400 := by
  unfold State.withinAllowance
  cases s.store.recs.days.adjustDay with
  | none => simp
  | some d =>
    simp only [Bool.and_eq_true, decide_eq_true_eq, Option.mem_def, Option.some.injEq, forall_eq', dayOf]
    exact and_congr_right fun _ => decide_eq_true_iff

theorem State.setTimeBody_congr (h : t.backup = s.backup) : t.setTimeBody = s.setTimeBody := by
  simp only [State.setTimeBody, State.clock, State.clockValid, h]

theorem State.clockSet_life (s : State) (v : Nat) :
    (s.clockSet v).life = { s.life with faults := s.life.faults.filter (· ≠ .clockInvalid) } := by
  unfold State.clockSet
  rw [State.endFault_life]
  split
  · rfl
  · next h =>
    have hf : s.life.faults.filter (· ≠ .clockInvalid) = s.life.faults :=
      List.filter_eq_self.2 fun f hf => decide_eq_true fun he => h (by simpa [← he] using hf)
    rw [hf]
    rfl

/-! ### What follows a test leaves of the ends -/

theorem State.lockoutReached_lockoutUntil (hm : s.mains = true) : s.lockoutReached.lockoutUntil = s.lockoutUntil := by
  unfold State.lockoutReached
  split
  · exact State.lockoutUntil_request hm rfl
  · rfl

theorem State.activate_lockoutUntil (hm : s.mains = true) : s.activate.lockoutUntil = s.lockoutUntil := by
  unfold State.activate
  split
  · exact State.lockoutUntil_request hm rfl
  · rfl

theorem State.backoffReached_sameEnds (hm : s.mains = true) : s.sameEnds s.backoffReached := by
  unfold State.backoffReached
  split
  · have hb : s.sameEnds s.bringInBackoff := by
      unfold State.bringInBackoff
      split
      · split
        · exact (State.sameEnds_of_store rfl).trans (State.request_sameEnds (s := s.onSup _) hm rfl rfl)
        · exact .refl s
      · exact .refl s
    have hm' : s.bringInBackoff.mains = true := by simpa [State.mains] using hm
    refine hb.trans ?_
    generalize s.bringInBackoff = x at hm'
    unfold State.backoffTest
    split
    · split
      · have h1 := State.handHold_sameEnds (s := x.onSup fun u => { u with supply := { u.supply with backoff := none } }) hm' .load false
        refine (State.sameEnds_of_store rfl).trans (h1.trans (State.request_sameEnds ?_ rfl rfl))
        simpa [State.mains] using hm'
      · exact .refl x
    · exact .refl x
  · exact .refl s

/-- The tests on the clock, in MAINS: a lockout and a back-off whose ends are reached. -/
theorem State.clockTests_ends (ha : s.alive = true) (hm : s.mains = true) :
    (∀ u, s.lockoutUntil = some u → s.sound .code = true → u ≤ s.clock ∨ s.clock = maxClock → .lockoutEnd ∈ s.clockTests.underWay) ∧
      (∀ u period, s.sup.supply.backoff = some ⟨u, period⟩ → u ≤ s.clock →
        s.clockTests.sup.supply.backoff = none ∧ s.clockTests.sw.record.holds.load = false) ∧
      s.clockTests.lockoutUntil = s.lockoutUntil := by
  have ha1 : s.compareDay.activate.alive = true := by simpa [State.alive] using ha
  have hm0 : s.compareDay.mains = true := by simpa [State.mains] using hm
  have hm1 : s.compareDay.activate.mains = true := by simpa [State.mains] using hm
  have hm2 : s.compareDay.activate.lockoutReached.mains = true := by simpa [State.mains] using hm
  have ha2 : s.compareDay.activate.lockoutReached.alive = true := by simpa [State.alive] using ha
  have hu1 : s.compareDay.activate.lockoutUntil = s.lockoutUntil :=
    (State.activate_lockoutUntil hm0).trans (State.sameEnds_of_store (by simp)).1
  refine ⟨fun u hu hc hr => ?_, fun u period hb hr => ?_, ?_⟩
  · have hin := (State.lockoutReached_due ha1 hm1 (hu1.trans hu) (by simpa [State.sound] using hc) (by simpa [State.clock] using hr)).1
    obtain ⟨q, hq, hs⟩ := (State.backoffReached_onward (.refl _)).writes _ hin
    cases hs
    exact hq
  · have h := State.backoffReached_due (b := ⟨u, period⟩) ha2 hm2 (by simpa using hb) ?_ ((State.reached_iff _ _).2 (.inl ?_))
    · obtain ⟨h1, h2⟩ := h
      exact ⟨by rw [State.clockTests, h1], h2⟩
    · simp only [State.clock, State.lockoutReached_frame, State.activate_frame, State.compareDay_frame]
      exact Nat.le_add_right_of_le hr
    · simpa [State.clock] using hr
  · exact (State.backoffReached_sameEnds hm2).1.trans ((State.lockoutReached_lockoutUntil hm1).trans hu1)

theorem State.clockTests_cal (s : State) : s.clockTests.cal = s.compareDay.cal ∧ s.clockTests.acct = s.compareDay.acct := by
  simp [State.clockTests]

/-! ### The second (R29) -/

theorem State.works_of_alive (ha : s.alive = true) (hm : s.mains = true) : s.works = true := by
  unfold State.alive at ha
  unfold State.works
  split at ha <;> simp_all

/-- What the tests make of the new second in MAINS. -/
theorem State.second_tests (s : State) (ha : s.alive = true) (hm : s.mains = true) :
    let t := (s.setClock (s.clock + 1)).newMinute.clockTests
    (s.inService = true → s.clockValid = true → s.cal.outstanding = false →
      (∀ p, s.store.recs.days.lastDay = some p → p < dayOf (s.clock + 1) → t.cal.outstanding = true ∧
        boundaryPlaced (.dayBoundary p (min (dayOf (s.clock + 1) - p) 62) (dayOf (s.clock + 1))) p s.acct.queue t.acct.queue) ∧
      (∀ p, s.store.recs.days.lastDay = some p → dayOf (s.clock + 1) ≤ p → t.cal.outstanding = false) ∧
      (s.store.recs.days.lastDay = none → t.cal.outstanding = true ∧
        t.acct.queue = s.acct.queue ++ [.dayAdoption (dayOf (s.clock + 1))])) ∧
    (∀ parts t0 ident, s.store.recs.tariff.pending = .ready parts t0 ident → s.clockValid = true → t0 ≤ s.clock + 1 →
      s.tariffBusy = false → .tariffActivation ∈ t.underWay) ∧
    (∀ until_, s.lockoutUntil = some until_ → s.sound .code = true → until_ ≤ s.clock + 1 ∨ s.clock + 1 = maxClock →
      .lockoutEnd ∈ t.underWay) ∧
    (∀ until_ period, s.sup.supply.backoff = some ⟨until_, period⟩ → until_ ≤ s.clock + 1 →
      t.sup.supply.backoff = none ∧ t.sw.record.holds.load = false) := by
  have hx : (s.setClock (s.clock + 1)).mains = true := hm
  have hsame := State.newMinute_sameEnds hx
  have hq : (s.setClock (s.clock + 1)).newMinute.acct.queue = s.acct.queue := State.newMinute_queue _
  have ho : (s.setClock (s.clock + 1)).newMinute.cal.outstanding = s.cal.outstanding := by
    rw [State.newMinute_cal]
    split <;> rfl
  have hy : ∀ y : State, y = (s.setClock (s.clock + 1)).newMinute → y.alive = s.alive ∧ y.mains = s.mains ∧
      y.inService = s.inService ∧ y.clockValid = s.clockValid ∧ y.clock = s.clock + 1 ∧ y.store.recs = s.store.recs ∧
      y.store.unsound = s.store.unsound ∧ y.sup = s.sup := by
    rintro y rfl
    simp [State.alive, State.mains, State.inService, State.clockValid, State.clock, State.setClock]
  generalize (s.setClock (s.clock + 1)).newMinute = y at *
  obtain ⟨hya, hym, hyi, hyv, hyc, hyr, hyu, hys⟩ := hy y rfl
  have ha' := hya.trans ha
  have hm' := hym.trans hm
  obtain ⟨hl, hb, -⟩ := State.clockTests_ends ha' hm'
  have hut : y.lockoutUntil = s.lockoutUntil := hsame.1
  have hbt : y.tariffBusy = s.tariffBusy := hsame.2
  intro t
  refine ⟨fun hi hv hout => ?_, fun parts t0 ident hp hv hle hbusy => ?_, fun u hu hc hr => ?_, fun u period hp hr => ?_⟩
  · obtain ⟨c1, c2, c3⟩ := State.compareDay_made ⟨ha', hm', hyi.trans hi, hyv.trans hv⟩ (ho.trans hout)
    rw [hyr, hyc, hq] at c2 c3
    rw [hyr, hyc] at c1
    have ht : t.cal = y.compareDay.cal ∧ t.acct = y.compareDay.acct := y.clockTests_cal
    rw [ht.1, ht.2]
    exact ⟨c2, fun p hp hd => by rw [c1 p hp hd, ho, hout], c3⟩
  · have hd : y.compareDay.tariffBusy = false := by
      rw [(State.sameEnds_of_store (s := y) (t := y.compareDay) (by simp)).2, hbt, hbusy]
    obtain ⟨-, -, -, hperm⟩ := State.activate_due (s := y.compareDay) (by simpa [State.alive] using ha')
      (by simpa [State.mains] using hm') (by simpa [hyr] using hp) (by simpa [State.clockValid] using hyv.trans hv)
      (by rw [show y.compareDay.clock = y.clock by simp [State.clock], hyc]; exact hle) hd
    have hin : Purpose.tariffActivation ∈ y.compareDay.activate.underWay := hperm.mem_iff.2 (by simp)
    obtain ⟨q, hq', hs'⟩ := (State.backoffReached_onward (State.lockoutReached_onward (.refl _))).writes _ hin
    cases hs'
    exact hq'
  · exact hl u (hut.trans hu) (by simpa [State.sound, hyu] using hc) (by rw [hyc]; exact hr)
  · have h := hb u period (hys ▸ hp) (by rw [hyc]; exact hr)
    exact h

theorem State.agreeBut.trans {p q : List Part} (h : State.agreeBut p s x) (h' : State.agreeBut q x t) : State.agreeBut (p ++ q) s t := by
  intro r hr
  rw [List.mem_append, not_or] at hr
  have h1 := h r hr.1
  have h2 := h' r hr.2
  cases r <;> exact h2.trans h1

/-! ### A SET-TIME takes effect (R36) -/

/-- The state a SET-TIME has changed, before a waiting request is replied. -/
def State.timeSet (s : State) (value : Nat) (prior : Option Nat) (outcome : Nat) : State :=
  (((s.clockSet value).clockStep prior value outcome).evalFriendly).clockTests

theorem setTimeWritten_eq {w : Write} {value : Nat} {prior : Option Nat} {outcome : Nat} {d c : Option Nat}
    (hw : w.purpose = .setTime value prior outcome d c) (s : State) : setTimeWritten w s =
      if (s.timeSet value prior outcome).awaits 0x20 then
        (s.timeSet value prior outcome).answer .ok (s.timeSet value prior outcome).setTimeBody
      else s.timeSet value prior outcome := by
  simp only [setTimeWritten, hw]
  rfl

theorem State.timeSet_spec (s : State) (value : Nat) (prior : Option Nat) (outcome : Nat) :
    let t := s.timeSet value prior outcome
    State.agreeBut [.backup, .store, .cal, .acct, .sw, .sup, .tam, .life, .link] s t ∧
      t.backup = { s.backup with retained := { s.backup.retained with clock := value, valid := true } } ∧
      t.life = { s.life with faults := s.life.faults.filter (· ≠ .clockInvalid) } ∧
      t.cal.friendly = t.tariff.friendlyAt value ∧
      t.tam.evidence.log.getLast? = some { blankRecord .clockStep .ended prior with
        number := s.tam.evidence.next, finish := some value, value := some (outcome : Int) } := by
  intro t
  have hb : (s.clockSet value).backup = { s.backup with retained := { s.backup.retained with clock := value, valid := true } } := by
    simp [State.clockSet]
  have hs : (s.clockSet value).store = s.store ∧ (s.clockSet value).tam = s.tam := by simp [State.clockSet]
  have hc : (((s.clockSet value).clockStep prior value outcome).evalFriendly).cal.friendly = s.tariff.friendlyAt value := by
    rw [State.evalFriendly_cal]
    simp [State.clockValid, State.clock, State.tariff, hb]
  refine ⟨?_, ?_, ?_, ?_, ?_⟩
  · simp [t, State.timeSet, State.clockSet, State.agreeBut_iff]
  · simpa [t, State.timeSet] using hb
  · simpa [t, State.timeSet] using s.clockSet_life value
  · have ht : t.tariff = s.tariff := by simp [t, State.timeSet, State.tariff]
    rw [ht, ← hc]
    exact (congrArg Calendar.friendly (State.clockTests_cal _).1).trans (congrArg Calendar.friendly (State.compareDay_keeps' _).2 :)
  · have hl := (s.clockSet value).clockStep_last prior value outcome
    have hev : t.tam.evidence = ((s.clockSet value).clockStep prior value outcome).tam.evidence :=
      (congrArg Tamper.evidence (State.clockTests_onlySuspends _) :).trans (by simp)
    rw [hev, hl, hs.2]

/-- The tests that the new value meets. -/
theorem State.timeSet_ends (s : State) (value : Nat) (prior : Option Nat) (outcome : Nat) (ha : s.alive = true) (hm : s.mains = true) :
    let t := s.timeSet value prior outcome
    (∀ until_ period, s.sup.supply.backoff = some ⟨until_, period⟩ → until_ ≤ value →
      t.sup.supply.backoff = none ∧ t.sw.record.holds.load = false) ∧
    (∀ until_, t.lockoutUntil = some until_ → t.sound .code = true → until_ ≤ value → .lockoutEnd ∈ t.underWay) := by
  intro t
  have hy : ∀ y : State, y = ((s.clockSet value).clockStep prior value outcome).evalFriendly → y.alive = s.alive ∧ y.mains = s.mains ∧
      y.clock = value ∧ y.sup = s.sup ∧ y.store.unsound = s.store.unsound := by
    rintro y rfl
    simp [State.alive, State.mains, State.clock, State.clockSet]
  have ht : t.store.unsound = s.store.unsound := by simp [t, State.timeSet, State.clockSet]
  simp only [t, State.timeSet] at ht ⊢
  generalize ((s.clockSet value).clockStep prior value outcome).evalFriendly = y at *
  obtain ⟨hya, hym, hyc, hys, hyu⟩ := hy y rfl
  obtain ⟨hl, hb, hu⟩ := State.clockTests_ends (hya.trans ha) (hym.trans hm)
  refine ⟨fun u period hp hle => hb u period (hys ▸ hp) (hyc.symm ▸ hle), fun u hp hc hle => ?_⟩
  refine hl u (hu ▸ hp) ?_ (.inl (hyc.symm ▸ hle))
  rw [State.sound, hyu, ← ht]
  exact hc

end Sys2Proof.Machine
end

section
open Sys2Proof Sys2Proof.Machine

/-- Settles O42: the examination's branches in their order. -/
theorem setTimeExamination : Obligations.SetTimeExamination := by
  intro value s hx v lockout
  refine ⟨s.examineSetTime v, congrArg Host.Outcome.next (State.onRequest_examines s _ hx), ?_⟩
  unfold State.examineSetTime
  by_cases h1 : s.life.state = .halted
  · rw [if_pos h1, if_pos h1]
    exact s.answer_onlyReplied _ _
  rw [if_neg h1, if_neg h1]
  by_cases h2 : maxClock < v
  · rw [if_pos h2, if_pos (show 3155759999 < v from h2)]
    exact s.answer_onlyReplied _ _
  rw [if_neg h2, if_neg (show ¬ 3155759999 < v from h2)]
  by_cases h3 : s.holdup = true
  · rw [if_pos h3, if_pos h3]
    exact s.answer_onlyReplied _ _
  rw [if_neg h3, if_neg h3]
  have h3' : s.holdup = false := Bool.eq_false_iff.2 h3
  by_cases h4 : s.life.state ≠ .inService
  · rw [if_pos h4, if_pos h4]
    exact s.takeSetTime_onlyWaits v none h3'
  rw [if_neg h4, if_neg h4]
  cases h5 : s.clockValid with
  | false =>
    have h := s.takeSetTime_onlyWaits v (some (dayOf v)) h3'
    rw [State.time, h5] at h
    exact h
  | true =>
    have ht : s.time = some s.clock := by rw [State.time, if_pos h5]
    by_cases h6 : s.withinAllowance v = true
    · have h := s.takeSetTime_onlyWaits v (some (dayOf v)) h3'
      rw [ht, h5] at h
      simp only [Bool.not_true, Bool.false_eq_true, Bool.true_eq_false, if_false]
      rw [if_pos h6, if_pos ((s.withinAllowance_iff v).1 h6)]
      exact h
    · simp only [Bool.not_true, Bool.false_eq_true, Bool.true_eq_false, if_false]
      rw [if_neg h6, if_neg (mt (s.withinAllowance_iff v).2 h6)]
      refine ⟨by simp [State.refuseSetTime, State.agreeBut_iff], ?_, ?_⟩
      · rw [State.refuseSetTime, State.setTimeBody_congr (s := s) (by simp)]
        exact State.Onward.answer_replied (State.clockStep_onward (.refl s) _ _ _) _ _
      · rw [State.refuseSetTime, ← ht]
        simpa using s.clockStep_last s.time v 2

/-- Settles O41: each command is its test, and each completion its effect on the state as stored. -/
theorem endsReachedByTheClock : Obligations.EndsReachedByTheClock := by
  refine ⟨fun s ha hm => ⟨fun parts t0 ident hp hv hle hb => ?_, fun u hu hc hr hn => ?_, fun u period hb hn hr => ?_,
    fun u period hb hf hpos hmax => ?_⟩, fun s w rest he => ⟨fun h => ?_, fun h => ?_⟩⟩
  · obtain ⟨-, hasks⟩ := State.activate_due ha hm hp hv hle hb
    exact ⟨s.activate, rfl, hasks, by simp [State.agreeBut_iff]⟩
  · obtain ⟨-, hasks⟩ := (State.lockoutReached_due ha hm hu hc hr).2 hn
    exact ⟨s.lockoutReached, rfl, hasks, by simp [State.agreeBut_iff]⟩
  · obtain ⟨h1, h2⟩ := State.backoffReached_due ha hm hb hn ((s.reached_iff u).2 hr)
    exact ⟨s.backoffReached, rfl, h1, h2, by simp [State.agreeBut_iff], s.backoffReached_onlySuspends⟩
  · have hsup : s.bringInBackoff.sup = { s.sup with supply := { s.sup.supply with backoff := some ⟨s.clock + period, period⟩ } } := by
      rw [State.bringInBackoff_far hm hb hf]
      simp
    have hclock : s.bringInBackoff.clock = s.clock := by simp [State.clock]
    have hnot : s.bringInBackoff.reached (s.clock + period) = false := by
      simp [State.reached, hclock, hmax, hpos.ne']
    have he : s.backoffReached = s.bringInBackoff := by
      rw [State.backoffReached, ha, hm]
      simp [State.backoffTest, hsup, hnot]
    refine ⟨s.backoffReached, rfl, ?_, by rw [he, hsup]⟩
    rw [he, State.bringInBackoff_far hm hb hf]
    simp [State.agreeBut_iff]
  · refine ⟨_, congrArg Host.Outcome.next (State.complete_unexpired activationWritten h he (by simp [activationWritten])), ?_, ?_, ?_, ?_⟩
    · simp [State.agreeBut_iff, activationWritten]
    · have := (s.stored w rest).evalFriendly_onlySuspends
      unfold State.onlySuspends at *
      simpa [activationWritten] using this
    · simpa [activationWritten] using State.pend_mem _ _
    · have hc := (s.stored w rest).evalFriendly_cal
      simpa [activationWritten, State.tariff, State.clock, State.clockValid] using hc
  · refine ⟨_, congrArg Host.Outcome.next (State.complete_unexpired lockoutWritten h he (by simp [lockoutWritten]; split <;> simp)), ?_⟩
    have hpump : ∀ x : State, x.pump.tam = x.tam := fun x => by simp
    cases hc : s.tam.codeAttack with
    | false =>
      have hl : lockoutWritten w (s.stored w rest) = s.stored w rest := if_neg (by simp [hc])
      rw [hl]
      simp [State.agreeBut_iff, hc]
    | true =>
      have hl : lockoutWritten w (s.stored w rest) =
          ((s.stored w rest).onTam fun t => { t with codeAttack := false }).latchEnd .codeAttack := if_pos (by simp [hc])
      rw [hl]
      obtain ⟨-, h2, h3⟩ := ((s.stored w rest).onTam fun t => { t with codeAttack := false }).latchEnd_spec .codeAttack
      have hcond := congrArg Tamper.codeAttack
        (((s.stored w rest).onTam fun t => { t with codeAttack := false }).latchEnd_conditions .codeAttack)
      exact ⟨by simp [State.agreeBut_iff, State.latchEnd_sw, State.latchEnd_link], by rw [hpump]; exact hcond,
        fun k => by rw [hpump]; exact h3 k, fun _ hb => by rw [hpump]; exact h2 hb⟩

/-- Settles O40: with the new value the minute begins, and then the tests are made. -/
theorem clockSecondPasses : Obligations.ClockSecondPasses := by
  intro s
  refine ⟨fun h => ?_, fun hi hc => ?_⟩
  · have hr : s.clockRuns = false := by
      rcases h with h | h <;> simp [State.clockRuns, h]
    exact congrArg Host.Outcome.next (show s.secondPasses = s by rw [State.secondPasses, hr]; rfl)
  · have hruns : s.clockRuns = true := by simp [State.clockRuns, hi, hc]
    cases hw : s.works with
    | false =>
      have he : s.secondPasses = s.setClock (s.clock + 1) := by
        rw [State.secondPasses, if_pos hruns]
        exact if_neg (by simpa [State.setClock, State.works, State.mains, State.holdup] using hw)
      refine ⟨s.setClock (s.clock + 1), congrArg Host.Outcome.next he, rfl, by simp [State.agreeBut_iff, State.setClock],
        State.onlySuspends.refl _, fun _ => by simp [State.agreeBut_iff, State.setClock], fun h => by simp at h,
        fun h => by simp at h, fun ha hm => ?_⟩
      have hworks : s.works = true := State.works_of_alive ha hm
      simp [hworks] at hw
    | true =>
      have he : s.secondPasses = (s.setClock (s.clock + 1)).newMinute.clockTests := by
        rw [State.secondPasses, if_pos hruns]
        exact if_pos (by simpa [State.setClock, State.works, State.mains, State.holdup] using hw)
      refine ⟨_, congrArg Host.Outcome.next he, by simp [State.setClock], by simp [State.agreeBut_iff, State.setClock],
        (State.newMinute_onlySuspends (s.setClock (s.clock + 1))).trans (State.clockTests_onlySuspends _), fun h => by simp at h,
        fun _ hmin => ?_, fun _ hmin => ?_, fun ha hm => State.second_tests s ha hm⟩
      · rw [(State.clockTests_cal _).1, (State.compareDay_keeps' _).2, State.newMinute_cal]
        exact (congrArg Calendar.friendly (if_pos hmin) :)
      · rw [(State.clockTests_cal _).1, (State.compareDay_keeps' _).2, State.newMinute_cal]
        exact (congrArg Calendar.friendly (if_neg hmin) :)

/-- Settles O43: the effect is the new value with its record, the friendly state of it, and the tests. -/
theorem setTimeTakesEffect : Obligations.SetTimeTakesEffect := by
  intro s value prior outcome adjustDay carry puts rest h he
  refine ⟨_, congrArg Host.Outcome.next (State.complete_unexpired setTimeWritten h he (setTimeWritten_limitExpired _ _)), ?_⟩
  set x := s.stored ⟨.setTime value prior outcome adjustDay carry, puts⟩ rest
  rw [setTimeWritten_eq rfl]
  obtain ⟨h1, h2, h3, h4, h5⟩ := x.timeSet_spec value prior outcome
  have hends := x.timeSet_ends value prior outcome
  set z := x.timeSet value prior outcome
  have hpump : ∀ y : State, (y = z ∨ y = z.answer .ok z.setTimeBody) → State.agreeBut [.store, .link, .fresh] z y.pump ∧
      y.pump.store.recs = z.store.recs ∧ y.pump.store.unsound = z.store.unsound ∧
      (z.mains = true → y.pump.underWay = z.underWay) := by
    rintro y (rfl | rfl)
    · exact ⟨by simp [State.agreeBut_iff], by simp, by simp, fun hm => State.pump_underWay_of_mains hm⟩
    · refine ⟨by simp [State.agreeBut_iff], by simp, by simp, fun hm => ?_⟩
      rw [State.pump_underWay_of_mains (by simpa [State.mains] using hm)]
      simp [State.underWay]
  generalize ht : (if z.awaits 0x20 = true then z.answer .ok z.setTimeBody else z).pump = t
  obtain ⟨ha, hr, hu, hw⟩ := ht ▸ hpump (if z.awaits 0x20 = true then z.answer .ok z.setTimeBody else z) (by split <;> simp)
  have hcal : t.cal = z.cal := ha .cal (by decide)
  have htam : t.tam = z.tam := ha .tam (by decide)
  have hsup : t.sup = z.sup := ha .sup (by decide)
  have hsw : t.sw = z.sw := ha .sw (by decide)
  have hx : State.agreeBut [.store] s x := by simp [x, State.agreeBut_iff]
  refine ⟨(hx.trans (h1.trans ha)).mono ?_, (ha .backup (by decide)).trans h2, (ha .life (by decide)).trans h3, ?_,
    by rw [htam]; exact h5, fun halive hm => ?_⟩
  · decide
  · rw [hcal, State.tariff, hr]
    exact h4
  · obtain ⟨hb, hl⟩ := hends halive hm
    have hzm : z.mains = true := by rw [State.mains, h2]; exact hm
    have hlock : t.lockoutUntil = z.lockoutUntil := by
      change t.store.recs.code.lockEnd.map (fun v => (t.underWay.findSome? Purpose.rearmedTo).getD v) = _
      rw [hr, hw hzm]
      rfl
    rw [hsup, hsw, hw hzm]
    exact ⟨hb, fun u hul hc hle => hl u (hlock ▸ hul) (by rw [State.sound, ← hu]; exact hc) hle⟩

end

section
/-! The service window's end, and the examinations of keys, settings, tariffs and digits (O45 to O48). -/

namespace Sys2Proof.Machine

variable {s t x y : State}

/-! ### The end of a window (R183) -/

/-- An onset that is taken with detection on leaves its class latched, unless a service window excuses it (R153, R157). -/
theorem State.recordOnset_latches (s : State) {a : Arrival} (hd : (s.policy a.cls).detect = true)
    (hc : ¬ (a.cls.isCover = true ∧ s.life.state = .serviceWindow)) :
    isLatched (s.recordOnset a).tam.evidence.log a.cls = true := by
  have hc' : (a.cls.isCover && s.life.state == .serviceWindow) = false := by
    simpa using hc
  unfold State.recordOnset
  simp only [hd, hc', Bool.not_true, Bool.false_eq_true, if_false]
  split
  · next h =>
    exact ((s.editLog_keepsLatches (EvRecord.repeated_same a.cls 1)).trans (State.notifyEvidence_keepsLatches _ _)).latched _ h
  · simp [State.appendRecord_isLatched, blankRecord]

theorem State.countTaken_of_mains (hm : s.mains = true) (a : Arrival) : s.countTaken a = s := by
  simp [State.countTaken, s.mains_not_holdup hm]

theorem State.countTaken_tam (s : State) (a : Arrival) : (s.countTaken a).tam = s.tam := by
  unfold State.countTaken
  split <;> rfl

theorem State.countTaken_keepsLatches (s : State) (a : Arrival) : s.KeepsLatches (s.countTaken a) := by
  refine ⟨fun c => ?_, ?_, ?_, ?_⟩ <;> rw [State.countTaken_tam]
  exacts [id, id]

theorem State.coverOnset_keepsLatches (s : State) (w : Cover) : s.KeepsLatches (s.coverOnset w) := by
  unfold State.coverOnset
  dsimp only
  split
  · exact s.arrive_keepsLatches _
  · exact (s.countTaken_keepsLatches _).trans (State.arrive_keepsLatches _ _)

/-- A cover's onset with nothing held back, outside a service window. -/
theorem State.coverOnset_latched (s : State) (w : Cover) (hd : (s.policy w.cls).detect = true) (hl : s.life.state ≠ .serviceWindow)
    (hc : s.tam.clearing = []) (he : s.tam.entryHold = false) : isLatched (s.coverOnset w).tam.evidence.log w.cls = true := by
  have hn : ∀ a, s.tam.holdsBack a = false := fun a => by simp [Tamper.holdsBack, hc, he]
  unfold State.coverOnset
  dsimp only
  rw [hn, if_neg (by decide), State.arrive_taken (by rw [State.countTaken_tam, hn])]
  refine State.recordOnset_latches _ ?_ fun h => hl (by simpa using h.2)
  rw [State.policy_congr (s := s) (by simp) (by simp)]
  exact hd

theorem State.coverOnset_backup (hm : s.mains = true) (w : Cover) : (s.coverOnset w).backup = s.backup := by
  unfold State.coverOnset
  dsimp only
  rw [State.countTaken_of_mains hm]
  simp

/-- The life state once the window has ended, with its notice and its write. -/
def State.windowClosed (s : State) : State :=
  ((s.onLife fun v => { v with state := .inService, window := none, timer := none }).pend .life).request .lifeRecord

theorem State.endWindow_eq (s : State) : s.endWindow =
    (let s2 := if s.tam.coverOpen then s.windowClosed.coverOnset .main else s.windowClosed
     if s.tam.termOpen then s2.coverOnset .terminal else s2) := rfl

theorem State.endWindow_onward' (s : State) : s.windowClosed.Onward s.endWindow := by
  rw [State.endWindow_eq]
  dsimp only
  split <;> split <;> first | exact .refl _ | skip
  · exact State.coverOnset_onward (State.coverOnset_onward (.refl _) _) _
  · exact State.coverOnset_onward (.refl _) _
  · exact State.coverOnset_onward (.refl _) _

theorem State.windowClosed_onward (s : State) : s.Onward s.windowClosed :=
  State.request_onward (State.pend_onward (State.onLife_onward (.refl _) _) _) _

theorem State.windowClosed_tam (s : State) : s.windowClosed.tam = s.tam := by simp [State.windowClosed]

/-- Each cover that stands open latches as the window ends. -/
theorem State.endWindow_latched (s : State) (w : Cover) (ho : s.tam.coverSeen w = true) (hd : (s.policy w.cls).detect = true)
    (hc : s.tam.clearing = []) (he : s.tam.entryHold = false) : isLatched s.endWindow.tam.evidence.log w.cls = true := by
  have ht := s.windowClosed_tam
  have hl : s.windowClosed.life.state ≠ .serviceWindow := by simp [State.windowClosed]
  have hp : (s.windowClosed.policy w.cls).detect = true := by rw [s.windowClosed_onward.policy]; exact hd
  rw [State.endWindow_eq]
  cases w with
  | main =>
    have hco : s.tam.coverOpen = true := ho
    have h := s.windowClosed.coverOnset_latched .main hp hl (by rw [ht, hc]) (by rw [ht, he])
    dsimp only
    rw [if_pos hco]
    split
    · exact (State.coverOnset_keepsLatches _ _).latched _ h
    · exact h
  | terminal =>
    have hto : s.tam.termOpen = true := ho
    dsimp only
    rw [if_pos hto]
    split
    · refine State.coverOnset_latched _ .terminal ?_ (by simpa using hl) ?_ ?_
      · rw [(State.coverOnset_onward (.refl s.windowClosed) _).policy]
        exact hp
      · rw [(State.coverOnset_keepsLatches _ _).clearing, ht, hc]
      · rw [(State.coverOnset_keepsLatches _ _).entryHold, ht, he]
    · exact s.windowClosed.coverOnset_latched .terminal hp hl (by rw [ht, hc]) (by rw [ht, he])

theorem State.endWindow_backup (hm : s.mains = true) : s.endWindow.backup = s.backup := by
  have hb : s.windowClosed.backup = s.backup := by simp [State.windowClosed]
  have hm1 : s.windowClosed.mains = true := by rw [State.mains, hb]; exact hm
  rw [State.endWindow_eq]
  dsimp only
  split <;> split
  · rw [State.coverOnset_backup (by rw [State.mains, State.coverOnset_backup hm1]; exact hm1), State.coverOnset_backup hm1, hb]
  · rw [State.coverOnset_backup hm1, hb]
  · rw [State.coverOnset_backup hm1, hb]
  · exact hb

/-- What a window's end does. -/
theorem State.endWindow_spec (s : State) : s.endWindow.life = { s.life with state := .inService, window := none, timer := none } ∧
    .life ∈ s.endWindow.link.notices ∧ State.agreeBut [.backup, .store, .sw, .tam, .life, .link] s s.endWindow ∧
    (s.mains = true → s.endWindow.backup = s.backup ∧ .lifeRecord ∈ s.endWindow.underWay) ∧
    s.endWindow.link.inHand = s.link.inHand ∧
    (∀ which, s.tam.coverSeen which = true → (s.policy which.cls).detect = true → s.tam.clearing = [] →
      s.tam.entryHold = false → isLatched s.endWindow.tam.evidence.log which.cls = true) := by
  have ho := s.endWindow_onward'
  refine ⟨?_, ho.notices _ ?_, ?_, fun hm => ⟨State.endWindow_backup hm, ?_⟩, ?_, fun w => s.endWindow_latched w⟩
  · rw [State.endWindow_eq]
    dsimp only
    split <;> split <;> simp [State.windowClosed]
  · simpa [State.windowClosed] using State.pend_mem _ _
  · simp [State.agreeBut_iff]
  · have hasks := State.request_asks ((s.onLife fun v => { v with state := .inService, window := none, timer := none }).pend .life)
      .lifeRecord rfl (.inl (by simpa [State.holdup] using s.mains_not_holdup hm))
    obtain ⟨-, -, hperm⟩ := hasks
    obtain ⟨q, hq, hs⟩ := ho.writes .lifeRecord (hperm.mem_iff.2 (by simp))
    cases hs
    exact hq
  · exact ho.inHand.trans (s.windowClosed_onward.inHand)

end Sys2Proof.Machine
end

section
open Sys2Proof Sys2Proof.Machine

/-- Settles O45: both events end the window in the same way. -/
theorem serviceWindowEnds : Obligations.ServiceWindowEnds := by
  intro c s hc
  rcases hc with ⟨rfl, hr, ht⟩ | ⟨rfl, hx⟩
  · refine ⟨s.windowExpires, rfl, fun hl => ?_, fun _ h => by cases h⟩
    have he : s.windowExpires = s.endWindow := if_pos (by simp [hr, hl, ht])
    rw [he]
    obtain ⟨h1, h2, h3, h4, -, h6⟩ := s.endWindow_spec
    exact ⟨h1, h2, h3, h4, fun h => (by cases h), h6⟩
  · refine ⟨s.examineCloseService, congrArg Host.Outcome.next (State.onRequest_examines s _ hx), fun hl => ?_, fun hl _ => ?_⟩
    · have he : s.examineCloseService = s.await.endWindow := if_pos hl
      rw [he]
      obtain ⟨h1, h2, h3, h4, h5, h6⟩ := s.await.endWindow_spec
      exact ⟨h1, h2, by simp [State.agreeBut_iff], h4, fun _ => h5, h6⟩
    · have he : s.examineCloseService = s.answer .state s.lifeBody := if_neg hl
      rw [he]
      exact s.answer_onlyReplied _ _

end

section
/-! The examinations of keys, settings and tariffs, and what completed settings bring (O46, O47). -/

namespace Sys2Proof.Machine

variable {s t x y : State}

/-! ### Settings apply -/

/-- ARMED with an empty hold set begins a closing once no acknowledgement is required (R115). -/
theorem State.judgeRest_armed (h : s.sw.state = .armed) (hs : s.sw.sensing = none) (he : s.sw.record.holds.isEmpty = true) :
    s.judgeRest = if !s.ackRequired && s.mains then s.beginOperation .closing else s := by
  unfold State.judgeRest
  rw [if_neg (by simp [hs])]
  simp only [h, he, if_true]

theorem State.judgeRest_onlySuspends (s : State) : s.onlySuspends s.judgeRest :=
  State.onlySuspends_of (by simp [Tamper.conditions])

/-- The switch once a SWITCH section has been taken, its judgement apart (R123). -/
def State.limitKept (s : State) (withdrawn : Bool) : Switch :=
  { s.sw with record := { s.sw.record with codeLimit := if withdrawn then none else s.sw.record.codeLimit } }

theorem State.applyConfig_switch (s : State) (w : SwitchSettings) (b : Bool) : ∃ y : State, y.sw = s.limitKept b ∧
    State.agreeBut [.sw] s y ∧ s.applyConfig (.switch w b) = if s.sw.state = .armed then y.judgeRest else y := by
  cases b
  · exact ⟨s, rfl, by simp [State.agreeBut_iff], rfl⟩
  · exact ⟨s.onSw fun w => { w with record := { w.record with codeLimit := none } }, rfl, by simp [State.agreeBut_iff], rfl⟩

theorem State.applyConfig_onlySuspends (s : State) (v : SectionValue) : s.onlySuspends (s.applyConfig v) := by
  cases v
  case account a => exact s.creditTest_onlySuspends false
  case switch w b =>
    obtain ⟨y, -, ha, he⟩ := s.applyConfig_switch w b
    have ht : y.tam = s.tam := ha .tam (by decide)
    rw [he, State.onlySuspends, ← ht]
    split
    · exact y.judgeRest_onlySuspends
    · rfl
  all_goals exact .refl s

theorem State.applyConfig_agrees (s : State) (v : SectionValue) :
    State.agreeBut [.store, .acct, .sw, .tam, .link] s (s.applyConfig v) := by
  simp [State.agreeBut_iff]

theorem State.applyConfig_acct (s : State) {v : SectionValue} (h : ∀ a, v ≠ .account a) : (s.applyConfig v).acct = s.acct := by
  cases v
  case account a => exact absurd rfl (h a)
  case switch w b =>
    obtain ⟨y, -, ha, he⟩ := s.applyConfig_switch w b
    rw [he, ← ha .acct (by decide)]
    split <;> simp
  all_goals rfl

theorem State.applyConfig_rest (s : State) {v : SectionValue} (h : ∀ a, v ≠ .account a) (h' : ∀ w b, v ≠ .switch w b) :
    (s.applyConfig v).sw = s.sw ∧ (s.applyConfig v).tam = s.tam := by
  cases v
  case account a => exact absurd rfl (h a)
  case switch w b => exact absurd rfl (h' w b)
  all_goals exact ⟨rfl, rfl⟩

/-- What new SWITCH settings bring to the switch (R115, R123). -/
theorem State.applyConfig_sw (s : State) (w : SwitchSettings) (b : Bool) :
    (s.sw.state ≠ .armed → (s.applyConfig (.switch w b)).sw = s.limitKept b) ∧
      (s.sw.state = .armed → s.sw.sensing = none → s.sw.record.holds.isEmpty = true →
        (s.ackRequired = true → (s.applyConfig (.switch w b)).sw = s.limitKept b) ∧
        (s.ackRequired = false → s.mains = true → (s.applyConfig (.switch w b)).sw = (s.limitKept b).enters .closing ∧
          .switch ∈ (s.applyConfig (.switch w b)).link.notices)) := by
  obtain ⟨y, hy, ha, he⟩ := s.applyConfig_switch w b
  have hb : y.backup = s.backup := ha .backup (by decide)
  have hst : y.store = s.store := ha .store (by decide)
  have hack : y.ackRequired = s.ackRequired := by
    rw [State.ackRequired, State.ackRequired, State.config_congr (t := y) (s := s) (by rw [hst]) (by rw [hst])]
  have hm : y.mains = s.mains := by rw [State.mains, State.mains, hb]
  rw [he]
  refine ⟨fun h => by rw [if_neg h, hy], fun h hs hh => ?_⟩
  rw [if_pos h, State.judgeRest_armed (by rw [hy]; exact h) (by rw [hy]; exact hs) (by rw [hy]; exact hh), hack, hm]
  refine ⟨fun hr => by simp [hr, hy], fun hr hmm => ?_⟩
  rw [hr, hmm, ← hy]
  exact ⟨rfl, State.pend_mem _ _⟩

/-- What a completed write of a section does beyond its settings: a waiting request is replied. -/
theorem configWritten_eq {w : Write} {v : SectionValue} {clamped : Bool} (hw : w.purpose = .config v clamped) (s : State) :
    configWritten w s = if (s.applyConfig v).awaits 0x27 then
        (s.applyConfig v).answer (if clamped then .clamped else .ok) ((s.applyConfig v).writeConfigBody (sectionByte v.sec))
      else s.applyConfig v := by
  simp only [configWritten, hw]

/-- What follows an owner's effect: a reply to the request that waits for it, and the writes that then start. -/
structure State.concludes (s t : State) : Prop where
  agrees : State.agreeBut [.store, .link, .fresh] s t
  recs : t.store.recs = s.store.recs
  unsound : t.store.unsound = s.store.unsound
  notices : t.link.notices = s.link.notices
  silence : t.link.silenceRunning = s.link.silenceRunning

theorem State.concludes_pump (s : State) : s.concludes s.pump :=
  ⟨by simp [State.agreeBut_iff], by simp, by simp, by simp, by simp⟩

theorem State.concludes_answer_pump (s : State) (b : Bool) (st : Status) (body : List Byte) :
    s.concludes (if b then s.answer st body else s).pump := by
  cases b
  · exact s.concludes_pump
  · exact ⟨by simp [State.agreeBut_iff], by simp, by simp, by simp [State.answer], by simp [State.answer]⟩

/-! ### Authority (R188) -/

theorem mayWrite_iff (state : LifeState) (sec : ConfigSection) : mayWrite state sec = true ↔
    state = .commissioning ∨ (state = .serviceWindow ∧ sec ≠ .cal ∧ sec ≠ .tamper) ∨ (state = .inService ∧ sec = .link) := by
  cases state <;> cases sec <;> decide

theorem sectionOf_of_byte {sel : Byte} {sec : ConfigSection} (h : sectionByte sec = sel) : sectionOf sel = some sec := by
  subst h
  cases sec <;> rfl

theorem sectionOf_eq_none {sel : Byte} (h : 6 < sel.toNat) : sectionOf sel = none := by
  rw [← Option.not_isSome_iff_eq_none, sectionOf_isSome]
  simp [h]

theorem ConfigRec.complete_iff (c : ConfigRec) : c.complete = true ↔
    ∀ sec ∈ [ConfigSection.cal, .measure, .account, .switch, .thermal, .tamper], sec ∈ c.written := by
  simp [ConfigRec.complete]

/-! ### The four tariff requests (R46, R47) -/

/-- The guard of a tariff request with no write of the tariff record in hand. -/
theorem State.tariffGuard_spec (s : State) (body : State → List Byte) (act : State → State) (hb : s.tariffBusy = false) :
    (s.life.state = .halted → s.onlyReplied (s.tariffGuard body act) .state (body s)) ∧
      (s.life.state = .inService → s.onlyReplied (s.tariffGuard body act) .authority (body s)) ∧
      (s.life.state = .commissioning ∨ s.life.state = .serviceWindow →
        (s.holdup = true → s.onlyReplied (s.tariffGuard body act) .power (body s)) ∧
          (s.holdup = false → s.tariffGuard body act = act s)) := by
  refine ⟨fun h => ?_, fun h => ?_, fun h => ⟨fun hh => ?_, fun hh => ?_⟩⟩
  · simp only [State.tariffGuard, hb, h, Bool.false_eq_true, if_false]
    exact s.answer_onlyReplied _ _
  · simp only [State.tariffGuard, hb, h, Bool.false_eq_true, if_false]
    exact s.answer_onlyReplied _ _
  · rcases h with h | h <;> simp only [State.tariffGuard, hb, h, hh, Bool.false_eq_true, if_false, if_true] <;>
      exact s.answer_onlyReplied _ _
  · rcases h with h | h <;> simp [State.tariffGuard, hb, h, hh]

theorem State.takeTariff_onlyWaits (s : State) (kind sel : Nat) (p : Pending) (st : Status) (h : s.holdup = false) :
    s.onlyWaits (s.takeTariff kind sel p st) (.tariffRequest kind sel p st) :=
  s.await_request_onlyWaits _ rfl (.inl h)

/-- A section of a tariff in BUILDING, or in any other state. -/
theorem State.storeSection_spec (s : State) (sel : Byte) (contents : List Byte) (h : s.holdup = false) :
    (∀ parts, s.store.recs.tariff.pending = .building parts →
      (readTariffSection sel contents = none →
        s.onlyReplied (s.storeSection sel contents) .badValue (s.tariffSectionBody sel.toNat)) ∧
      (∀ v clamped, readTariffSection sel contents = some (v, clamped) → s.onlyWaits (s.storeSection sel contents)
        (.tariffRequest 0x24 sel.toNat (.building (parts.put v)) (if clamped then .clamped else .ok)))) ∧
      ((∀ parts, s.store.recs.tariff.pending ≠ .building parts) →
        s.onlyReplied (s.storeSection sel contents) .state (s.tariffSectionBody sel.toNat)) := by
  refine ⟨fun parts hp => ⟨fun hr => ?_, fun v clamped hr => ?_⟩, fun hp => ?_⟩
  · simp only [State.storeSection, hp, hr]
    exact s.answer_onlyReplied _ _
  · simp only [State.storeSection, hp, hr]
    exact s.takeTariff_onlyWaits _ _ _ _ h
  · unfold State.storeSection
    split
    · next parts hq => exact absurd hq (hp parts)
    · exact s.answer_onlyReplied _ _

theorem State.commitTariff_spec (s : State) (time ident : Nat) (h : s.holdup = false) :
    (∀ parts, s.store.recs.tariff.pending = .building parts →
      (parts.complete = false → s.onlyReplied (s.commitTariff time ident) .incomplete s.commitBody) ∧
      (parts.complete = true → s.onlyWaits (s.commitTariff time ident) (.tariffRequest 0x25 0
        (.ready parts (min 3155759999 time) ident) (if 3155759999 < time then .clamped else .ok)))) ∧
      ((∀ parts, s.store.recs.tariff.pending ≠ .building parts) →
        s.onlyReplied (s.commitTariff time ident) .state s.commitBody) := by
  refine ⟨fun parts hp => ⟨fun hc => ?_, fun hc => ?_⟩, fun hp => ?_⟩
  · simp only [State.commitTariff, hp, hc, Bool.false_eq_true, if_false]
    exact s.answer_onlyReplied _ _
  · simp only [State.commitTariff, hp, hc, if_true]
    exact s.takeTariff_onlyWaits _ _ _ _ h
  · unfold State.commitTariff
    split
    · next parts hq => exact absurd hq (hp parts)
    · exact s.answer_onlyReplied _ _

theorem State.discardTariff_spec (s : State) (h : s.holdup = false) :
    (s.store.recs.tariff.pending = .empty → s.onlyReplied s.discardTariff .ok [0]) ∧
      (s.store.recs.tariff.pending ≠ .empty → s.onlyWaits s.discardTariff (.tariffRequest 0x26 0 .empty .ok)) := by
  refine ⟨fun hp => ?_, fun hp => ?_⟩
  · have hb : s.pendingBody = [0] := by simp [State.pendingBody, hp, Pending.byte]
    simp only [State.discardTariff, hp]
    rw [hb]
    exact s.answer_onlyReplied _ _
  · unfold State.discardTariff
    split
    · next hq => exact absurd hq hp
    · exact s.takeTariff_onlyWaits _ _ _ _ h

end Sys2Proof.Machine
end

section
open Sys2Proof Sys2Proof.Machine

/-- Settles O46: the examinations branch by branch, the sections' fields and relations, and what a completed write brings. -/
theorem keyAndConfigExamination : Obligations.KeyAndConfigExamination := by
  refine ⟨fun serial key s hx => ⟨s.examineInstall serial key, congrArg Host.Outcome.next (State.onRequest_examines s _ hx), ?_⟩,
    fun sel contents s hx => ⟨s.examineConfig sel contents, congrArg Host.Outcome.next (State.onRequest_examines s _ hx), fun h => ?_,
      fun sec hsec => ?_⟩, fun sec contents => ⟨sectionHolds_readSection sec contents, sectionHolds_clampSection sec contents⟩,
    sectionRelations_iff, fun s w rest h he => ?_, fun s v clamped puts rest h he => ?_⟩
  · unfold State.examineInstall
    by_cases h1 : s.life.state = .halted
    · rw [if_pos h1, if_pos h1]
      exact s.answer_onlyReplied _ _
    rw [if_neg h1, if_neg h1]
    by_cases h2 : s.life.state = .inService ∨ s.life.state = .serviceWindow
    · rw [if_pos h2, if_pos (by rcases h2 with h2 | h2 <;> simp [h2])]
      exact s.answer_onlyReplied _ _
    have h2' : s.life.state = .commissioning := by cases hl : s.life.state <;> simp_all
    rw [if_neg h2, if_neg (not_not.2 h2')]
    by_cases h3 : s.store.recs.identity.installed = true
    · rw [if_pos h3, if_pos h3]
      exact s.answer_onlyReplied _ _
    rw [if_neg h3, if_neg h3]
    by_cases h4 : s.holdup = true
    · rw [if_pos h4, if_pos h4]
      exact s.answer_onlyReplied _ _
    rw [if_neg h4, if_neg h4]
    exact s.await_request_onlyWaits _ rfl (.inl (Bool.eq_false_iff.2 h4))
  · simp only [State.examineConfig, sectionOf_eq_none h]
    exact s.answer_onlyReplied _ _
  · intro mayCommission mayWindow mayService
    have hmay := mayWrite_iff s.life.state sec
    simp only [State.examineConfig, sectionOf_of_byte hsec]
    by_cases h1 : s.life.state = .halted
    · rw [if_pos h1, if_pos h1]
      exact s.answer_onlyReplied _ _
    rw [if_neg h1, if_neg h1]
    by_cases h2 : mayWrite s.life.state sec = true
    · rw [if_neg (not_not.2 (hmay.1 h2)), if_neg (show ¬ (!mayWrite s.life.state sec) = true by simp [h2])]
      by_cases h3 : s.holdup = true
      · rw [if_pos h3, if_pos h3]
        exact s.answer_onlyReplied _ _
      rw [if_neg h3, if_neg h3]
      by_cases h4 : relationsHold s.store.recs.account.balance (clampSection (readSection sec contents)) = false
      · rw [if_pos h4, h4]
        exact s.answer_onlyReplied _ _
      · rw [if_neg h4, Bool.eq_true_of_not_eq_false h4]
        exact s.await_request_onlyWaits _ rfl (.inl (Bool.eq_false_iff.2 h3))
    · rw [if_pos (mt hmay.2 h2), if_pos (show (!mayWrite s.life.state sec) = true by simpa using h2)]
      exact s.answer_onlyReplied _ _
  · refine ⟨_, congrArg Host.Outcome.next (State.complete_unexpired identityWritten h he ?_), ?_, ?_⟩
    · simp
    · simp [State.agreeBut_iff]
    · have hm := (s.stored w rest).pend_mem .life
      simp only [identityWritten]
      split <;> simpa [State.answer] using hm
  · refine ⟨_, congrArg Host.Outcome.next (State.complete_unexpired configWritten h he ?_), ?_⟩
    · simp
    rw [configWritten_eq rfl]
    set x := s.stored ⟨.config v clamped, puts⟩ rest with hx
    have hc := (x.applyConfig v).concludes_answer_pump ((x.applyConfig v).awaits 0x27) (if clamped then .clamped else .ok)
      ((x.applyConfig v).writeConfigBody (sectionByte v.sec))
    have hs := x.applyConfig_onlySuspends v
    have hagree := (State.agreeBut.trans (s := s) (x := x) (p := [.store]) (by simp [x, State.agreeBut_iff])
      ((x.applyConfig_agrees v).trans hc.agrees))
    have hcredit : ∀ a, v = .account a → x.sound .account = true → s.life.state ≠ .halted →
        (x.applyConfig v).acct = { s.acct with condition := some (x.applyConfig v).conditionNow } ∧
          (s.inService = true → (x.applyConfig v).sw.record.holds.credit = (x.applyConfig v).creditDue) := by
      rintro a rfl hsound hl
      have hq : (x.creditTest false).acct.queue = s.acct.queue := x.creditTest_queue false
      have ht := x.creditTest_tested hsound hl
      have ha := ht.acct
      rw [hq] at ha
      exact ⟨ha, ht.due⟩
    have hsw := fun w b (hv : v = .switch w b) => hv ▸ x.applyConfig_sw w b
    have hother := fun h => x.applyConfig_acct (v := v) h
    have hrest := fun h h' => x.applyConfig_rest (v := v) h h'
    have hlink : ∀ n, v = .link n → (x.applyConfig v).link.silenceRunning = (s.mains && x.config.silence != 0) := by
      rintro n rfl
      rfl
    have hrecs : (x.applyConfig v).store.recs = x.store.recs ∧ (x.applyConfig v).store.unsound = x.store.unsound ∧
        (x.applyConfig v).cal = x.cal := by simp
    generalize x.applyConfig v = y at *
    generalize (if y.awaits 0x27 = true then y.answer (if clamped = true then .clamped else .ok)
      (y.writeConfigBody (sectionByte v.sec)) else y).pump = t at *
    obtain ⟨hr, hu, hcal⟩ := hrecs
    have e1 : t.acct = y.acct := hc.agrees .acct (by decide)
    have e2 : t.sw = y.sw := hc.agrees .sw (by decide)
    have e3 : t.tam = y.tam := hc.agrees .tam (by decide)
    have e4 : t.cal = y.cal := hc.agrees .cal (by decide)
    have hcfg : t.config = x.config := State.config_congr (hc.recs.trans hr) (hc.unsound.trans hu)
    have hack : t.ackRequired = x.ackRequired := by rw [State.ackRequired, State.ackRequired, hcfg]
    have hcond : t.conditionNow = y.conditionNow := State.conditionNow_congr hc.recs hc.unsound (by rw [e4])
    have hdue : t.creditDue = y.creditDue := State.creditDue_congr hc.recs hc.unsound (by rw [e4])
    refine ⟨hagree.mono (by decide), by rw [State.onlySuspends, e3]; exact hs, fun a ha hsound hl => ?_, fun w b hv => ?_, fun n hv => ?_,
      fun h => e1.trans (hother h), fun h h' => ⟨e2.trans (hrest h h').1, e3.trans (hrest h h').2⟩⟩
    · have hsx : x.sound .account = true := by
        rw [State.sound, ← hu, ← hc.unsound]
        exact hsound
      rw [e1, e2, hcond, hdue]
      exact hcredit a ha hsx hl
    · rw [e2, hack, hc.notices]
      exact hsw w b hv
    · rw [hc.silence, hcfg]
      exact hlink n hv

/-- Settles O47: the guard first, and then each request's own judgement. -/
theorem tariffRequestExamination : Obligations.TariffRequestExamination := by
  refine ⟨tariffSectionJudged_readTariffSection, fun c kind payload s hreq hk hx hb => ?_⟩
  intro pending
  cases c
  case tariffBegin =>
    cases hreq
    obtain ⟨g1, g2, g3⟩ := s.tariffGuard_spec State.pendingBody (State.takeTariff 0x23 0 (.building .none) .ok) hb
    refine ⟨s.examineBegin, congrArg Host.Outcome.next (State.onRequest_examines s _ hx), fun h => ⟨_, g1 h⟩, fun h => ⟨_, g2 h⟩,
      fun h => ⟨fun hh => ⟨_, (g3 h).1 hh⟩, fun hh => ⟨fun _ => ?_, fun _ _ hc => (by cases hc), fun _ _ hc => (by cases hc),
        fun hc => by cases hc⟩⟩⟩
    rw [State.examineBegin, (g3 h).2 hh]
    exact s.takeTariff_onlyWaits _ _ _ _ hh
  case tariffSection sel contents =>
    cases hreq
    obtain ⟨g1, g2, g3⟩ := s.tariffGuard_spec (fun x => x.tariffSectionBody sel.toNat) (State.storeSection sel contents) hb
    refine ⟨s.examineSection sel contents, congrArg Host.Outcome.next (State.onRequest_examines s _ hx), fun h => ⟨_, g1 h⟩,
      fun h => ⟨_, g2 h⟩, fun h => ⟨fun hh => ⟨_, (g3 h).1 hh⟩, fun hh => ⟨fun hc => (by cases hc), ?_, fun _ _ hc => (by cases hc),
        fun hc => by cases hc⟩⟩⟩
    rintro _ _ ⟨⟩
    rw [State.examineSection, (g3 h).2 hh]
    exact s.storeSection_spec sel contents hh
  case tariffCommit time ident =>
    cases hreq
    obtain ⟨g1, g2, g3⟩ := s.tariffGuard_spec State.commitBody (State.commitTariff time.toNat ident.toNat) hb
    refine ⟨s.examineCommit time.toNat ident.toNat, congrArg Host.Outcome.next (State.onRequest_examines s _ hx), fun h => ⟨_, g1 h⟩,
      fun h => ⟨_, g2 h⟩, fun h => ⟨fun hh => ⟨_, (g3 h).1 hh⟩, fun hh => ⟨fun hc => (by cases hc), fun _ _ hc => (by cases hc), ?_,
        fun hc => by cases hc⟩⟩⟩
    rintro _ _ ⟨⟩
    rw [State.examineCommit, (g3 h).2 hh]
    exact s.commitTariff_spec time.toNat ident.toNat hh
  case tariffDiscard =>
    cases hreq
    obtain ⟨g1, g2, g3⟩ := s.tariffGuard_spec State.pendingBody State.discardTariff hb
    refine ⟨s.examineDiscard, congrArg Host.Outcome.next (State.onRequest_examines s _ hx), fun h => ⟨_, g1 h⟩, fun h => ⟨_, g2 h⟩,
      fun h => ⟨fun hh => ⟨_, (g3 h).1 hh⟩, fun hh => ⟨fun hc => (by cases hc), fun _ _ hc => (by cases hc),
        fun _ _ hc => (by cases hc), fun _ => ?_⟩⟩⟩
    rw [State.examineDiscard, (g3 h).2 hh]
    exact s.discardTariff_spec hh
  all_goals
    first
    | cases hreq; done
    | (obtain ⟨hkind, -⟩ := Prod.mk.inj (Option.some.inj hreq)
       rw [← hkind] at hk
       exact absurd hk (by decide))

end

section
/-! The digit buffer and the examination of a submitted code (O48, O49). -/

namespace Sys2Proof.Machine

variable {s t x y : State}

/-! ### Keystrokes (R75 to R77) -/

/-- A keystroke edits the buffer and is replied with the count. -/
theorem State.setDigits_answerDigits (s : State) (l : List Byte) (st : Status) :
    let t := (s.setDigits l).answerDigits st
    State.agreeBut [.code, .link, .fresh] s t ∧ t.code = { s.code with digits := l, pauseRunning := !l.isEmpty } ∧
      s.replied t st (beBytes 1 l.length) :=
  ⟨by simp [State.agreeBut_iff, State.answerDigits, State.setDigits], by simp [State.answerDigits, State.setDigits],
    (s.setDigits l).answer_replied st _⟩

theorem not_isEmpty_dropLast (l : List Byte) : (!l.dropLast.isEmpty) = decide (1 < l.length) := by
  rcases l with _ | ⟨a, _ | ⟨b, l⟩⟩ <;> simp

/-- In HALTED every key is refused. -/
theorem State.examineKey_halted (key : Byte) (h : s.life.state = .halted) :
    s.examineKey key = s.answer .state (if key = 0x0C then s.codeBody else s.digitBody) := if_pos h

theorem State.examineKey_digit {key : Byte} (h : s.life.state ≠ .halted) (hk : key.toNat ≤ 9) : s.examineKey key = s.keyDigit key := by
  rw [State.examineKey, if_neg h, if_pos hk]

theorem State.examineKey_unknown {key : Byte} (h : s.life.state ≠ .halted) (hk : 12 < key.toNat) :
    s.examineKey key = s.answerDigits .badValue := by
  have hne : ∀ b : Byte, b.toNat ≤ 12 → key ≠ b := fun b hb he => by rw [he] at hk; omega
  rw [State.examineKey, if_neg h, if_neg (by omega), if_neg (hne _ (by decide)), if_neg (hne _ (by decide)),
    if_neg (hne _ (by decide))]

/-! ### Submissions (R80, R81) -/

/-- A refusal by the state whose buffer has been emptied: the last code result and the reply. -/
theorem State.refuseCode_spec (s : State) (st : Status) (k n : Option Nat) :
    let t := (s.setDigits []).refuseCode st k n
    State.agreeBut [.code, .link, .fresh] s t ∧ t.code.last = ⟨some st, k, n, 0, 0, []⟩ ∧ s.replied t st t.code.last.bytes ∧
      t.code.digits = [] ∧ t.code.pauseRunning = false := by
  intro t
  refine ⟨?_, ?_, ?_, ?_, ?_⟩
  · simp [t, State.agreeBut_iff, State.refuseCode, State.endCode, State.setResult, State.setDigits]
  · simp [t, State.refuseCode, State.endCode, State.setResult, refusedResult]
  · simp [t, State.refuseCode, State.endCode, State.setResult, State.replied, State.answer, State.codeBody, Link.atStage, State.setDigits]
  · simp [t, State.refuseCode, State.endCode, State.setResult, State.setDigits]
  · simp [t, State.refuseCode, State.endCode, State.setResult, State.setDigits]

/-- A submission that waits for its write, made by the state whose buffer has been emptied. -/
theorem State.await_request_waits (f : Tamper → Tamper) (p : Purpose) (hp : p.merges = false) (h : s.holdup = false) :
    let t := (((s.setDigits []).onTam f).await).request p
    State.agreeBut [.store, .code, .tam, .link] s t ∧ t.code.last = s.code.last ∧ t.link = s.link.atStage .waiting ∧ s.asks t p ∧
      t.acct = s.acct ∧ t.tam = f s.tam ∧ t.code.digits = [] ∧ t.code.pauseRunning = false := by
  obtain ⟨h1, h2, h3⟩ := ((s.setDigits []).onTam f).await_request_onlyWaits p hp (.inl h)
  have hc := h3 .code (by decide)
  refine ⟨by simp [State.agreeBut_iff, State.setDigits], ?_, h1, h2, h3 .acct (by decide), h3 .tam (by decide), ?_, ?_⟩ <;>
    simp [State.setDigits]

theorem authentic_iff (serial : BitVec 32) (u : Nat) : authentic serial u = true ↔
    (crc16 0 (beBytes 4 serial.toNat ++ beBytes 6 (u / 65536 * 16))).toNat = codeCheck u := by
  simp [authentic, codeMessage]

theorem kindOk_iff (u : Nat) : kindOk u = true ↔ 1 ≤ codeKind u ∧ codeKind u ≤ 5 ∧ 1 ≤ codeSequence u := by
  simp [kindOk, and_assoc]

theorem checkOk_iff (l : List Byte) : checkOk l = true ↔ ofDigits (l.drop 18) = ofDigits (l.take 18) % 97 := by
  simp [checkOk]

/-- The classes a CLEAR-TAMPER code clears, and those it holds, of those it names and that are latched. -/
theorem State.classesToClear_eq (s : State) (mask : Nat) :
    let named := allClasses.filter fun c => mask.testBit (c.number - 1) && isLatched s.tam.evidence.log c
    s.classesToClear mask = named.filter (fun c => !s.tam.condition c) ∧ s.classesHeld mask = named.filter s.tam.condition := by
  simp only [State.classesToClear, State.classesHeld, namedClasses, List.filter_filter]
  constructor <;> congr 1 <;> funext c <;> cases isLatched s.tam.evidence.log c <;> cases s.tam.condition c <;> simp

/-- The accepted codes' refusal (R87). -/
theorem listRefusal_cases (l : List Nat) (n : Nat) : listRefusal l n =
    if n ∈ l then some .used else if l.length = 32 ∧ n < l.headD 0 then some .stale else none := by
  simp [listRefusal]

/-- The digits and the timer are as they were. -/
def State.sameBuffer (s t : State) : Prop := t.code.digits = s.code.digits ∧ t.code.pauseRunning = s.code.pauseRunning

theorem State.refuseCode_sameBuffer (s : State) (st : Status) (k n : Option Nat) : s.sameBuffer (s.refuseCode st k n) := by
  simp [State.sameBuffer, State.refuseCode, State.endCode, State.setResult]

theorem State.handEffect_code (s : State) (k n a : Nat) : (s.handEffect k n a).code = s.code := by
  unfold State.handEffect
  split <;> simp [State.takeClearTamper]

theorem State.examineWord_sameBuffer (s : State) (u : Nat) : s.sameBuffer (s.examineWord u) := by
  unfold State.examineWord
  dsimp only
  split
  · simp [State.sameBuffer, State.countCode]
  · split
    · simp [State.sameBuffer, State.countCode]
    · split
      · exact s.refuseCode_sameBuffer _ _ _
      · split
        · exact s.refuseCode_sameBuffer _ _ _
        · rw [State.sameBuffer, State.handEffect_code]
          exact ⟨rfl, rfl⟩

theorem State.submit_sameBuffer (s : State) (l : List Byte) : s.sameBuffer (s.submit l) := by
  unfold State.submit
  (repeat' split) <;> first | exact s.refuseCode_sameBuffer _ _ _ | exact s.examineWord_sameBuffer _

/-- Every submission leaves the other parts, and the buffer as it was emptied. -/
theorem State.submit_settles (s : State) (l : List Byte) :
    let t := (s.setDigits []).submit l
    State.agreeBut [.store, .acct, .code, .tam, .link, .fresh] s t ∧ t.code.digits = [] ∧ t.code.pauseRunning = false :=
  ⟨by simp [State.agreeBut_iff], (s.setDigits []).submit_sameBuffer l⟩

/-- The effects an authentic code's kind hands to its owner (R93 to R96). -/
theorem State.handEffect_account (s : State) {kind : Nat} (sequence amount : Nat) (h : kind = 1 ∨ kind = 5) :
    let t := (s.setDigits []).handEffect kind sequence amount
    State.agreeBut [.acct, .code, .link] s t ∧ t.code.last = s.code.last ∧ t.link = s.link.atStage .waiting ∧
      t.acct = { s.acct with queue := s.acct.queue ++ [.code kind (10 * amount) sequence] } := by
  rw [Nat.mul_comm 10]
  rcases h with rfl | rfl <;>
    simp [State.handEffect, State.agreeBut_iff, State.setDigits, State.await, Link.atStage]

end Sys2Proof.Machine
end

section
open Sys2Proof Sys2Proof.Machine

/-- Settles O48: each key in turn. -/
theorem keystrokesEditTheBuffer : Obligations.KeystrokesEditTheBuffer := by
  intro s
  refine ⟨fun key hx hl => ⟨fun hk => ?_, fun hk => ?_⟩, fun hx hl => ?_, fun hx hl => ?_, fun c key hc hk hx hl => ?_, fun hx hl => ?_,
    fun hu hp => ?_⟩
  · refine ⟨s.keyDigit key, congrArg Host.Outcome.next ((State.onRequest_examines s _ hx).trans (State.examineKey_digit hl hk)), ?_⟩
    unfold State.keyDigit
    by_cases h : s.code.digits.length < 20
    · rw [if_pos h]
      obtain ⟨h1, h2, h3⟩ := s.setDigits_answerDigits (s.code.digits ++ [key]) .ok
      refine ⟨h1, fun _ => ⟨by rw [h2]; simp, by simpa using h3⟩, fun h' => by omega⟩
    · rw [if_neg h]
      obtain ⟨h1, h2, h3⟩ := s.setDigits_answerDigits s.code.digits .full
      refine ⟨h1, fun h' => absurd h' h, fun h' => ⟨?_, ?_⟩⟩
      · have hne : s.code.digits.isEmpty = false := by
          cases hd : s.code.digits <;> simp_all
        rw [h2, hne]
        rfl
      · rw [h'] at h3
        exact h3
  · refine ⟨s.answerDigits .badValue, congrArg Host.Outcome.next ((State.onRequest_examines s _ hx).trans
      (State.examineKey_unknown hl hk)), ?_⟩
    exact s.answer_onlyReplied _ _
  · refine ⟨s.keyClear, congrArg Host.Outcome.next ((State.onRequest_examines s _ hx).trans (if_neg hl)), ?_⟩
    exact s.setDigits_answerDigits [] .ok
  · refine ⟨s.keyBack, congrArg Host.Outcome.next ((State.onRequest_examines s _ hx).trans (if_neg hl)), ?_⟩
    obtain ⟨h1, h2, h3⟩ := s.setDigits_answerDigits s.code.digits.dropLast .ok
    rw [not_isEmpty_dropLast] at h2
    rw [List.length_dropLast] at h3
    rw [← List.dropLast_eq_take]
    exact ⟨h1, h2, h3⟩
  · have h := s.answer_onlyReplied .state s.digitBody
    have he := State.examineKey_halted key hl
    rw [if_neg hk] at he
    rcases hc with rfl | ⟨rfl, rfl⟩ | ⟨rfl, rfl⟩
    all_goals exact ⟨_, congrArg Host.Outcome.next ((State.onRequest_examines s _ hx).trans he), h⟩
  · exact ⟨_, congrArg Host.Outcome.next ((State.onRequest_examines s _ hx).trans (State.examineKey_halted 0x0C hl)),
      s.answer_onlyReplied .state s.codeBody⟩
  · refine ⟨(s.setDigits []).pend .keypad, congrArg Host.Outcome.next (if_pos (by simp [hu, hp])), by simp [State.agreeBut_iff, State.setDigits],
      by simp [State.setDigits], rfl, State.pend_mem _ _, fun n hn => State.pend_keeps_mem _ _ _ hn⟩

/-- Settles O49: both ways submit with the buffer emptied, and the examination is one chain of refusals. -/
theorem submissionsAreExaminedInOrder : Obligations.SubmissionsAreExaminedInOrder := by
  intro c digits s hc
  obtain ⟨t, hexec, hformat, hshort, hends, hsubmit⟩ : ∃ t, exec c s = .next t ∧
      (¬ (∀ d ∈ digits, d.toNat ≤ 9) → c = .codeEnter digits → t = (s.setDigits []).refuseCode .format none none) ∧
      (digits.length < 20 → c = .codeKeyEnter → t = (s.setDigits []).refuseCode .format none none) ∧
      (t = (s.setDigits []).refuseCode .format none none ∨ t = (s.setDigits []).submit digits) ∧
      (digits.length = 20 → (∀ d ∈ digits, d.toNat ≤ 9) → t = (s.setDigits []).submit digits) := by
    rcases hc with ⟨rfl, hx⟩ | ⟨rfl, hx, rfl, hl⟩
    · have hany : digits.any (fun d => decide (9 < d.toNat)) = true ↔ ¬ ∀ d ∈ digits, d.toNat ≤ 9 := by simp
      refine ⟨s.examineEnter digits, congrArg Host.Outcome.next (State.onRequest_examines s _ hx), fun h _ => if_pos (hany.2 h),
        fun _ h => (by cases h), ?_, fun _ h => if_neg (fun ha => hany.1 ha h)⟩
      unfold State.examineEnter
      dsimp only
      split
      · exact .inl rfl
      · exact .inr rfl
    · refine ⟨s.keyEnter, congrArg Host.Outcome.next ((State.onRequest_examines s _ hx).trans (if_neg hl)), fun _ h => (by cases h),
        fun h _ => if_pos h, ?_, fun h _ => if_neg (by omega)⟩
      unfold State.keyEnter
      dsimp only
      split
      · exact .inl rfl
      · exact .inr rfl
  have hrefused := fun st k n => s.refuseCode_spec st k n
  refine ⟨t, hexec, ?_⟩
  have hall : State.agreeBut [.store, .acct, .code, .tam, .link, .fresh] s t ∧ t.code.digits = [] ∧ t.code.pauseRunning = false := by
    rcases hends with rfl | rfl
    · obtain ⟨h1, -, -, h4, h5⟩ := hrefused .format none none
      exact ⟨h1.mono (by decide), h4, h5⟩
    · exact s.submit_settles digits
  obtain ⟨ha, hd, hp⟩ := hall
  refine ⟨ha, hd, hp, ?_⟩
  intro u kind sequence amount code refused waits
  have href : ∀ st k n, t = (s.setDigits []).refuseCode st k n → refused st k n := by
    rintro st k n rfl
    obtain ⟨h1, h2, h3, -, -⟩ := hrefused st k n
    exact ⟨h1, h2, h3⟩
  refine ⟨fun h hc' => href _ _ _ (hformat h hc'), fun h hc' => href _ _ _ (hshort h hc'), fun h20 h9 => ?_⟩
  have ht := hsubmit h20 h9
  unfold State.submit at ht
  by_cases h1 : s.life.state = .halted
  · rw [if_pos h1]
    exact href _ _ _ (ht.trans (if_pos h1))
  rw [if_neg h1]
  replace ht := ht.trans (if_neg h1)
  cases h2 : s.store.recs.identity.installed with
  | false => exact href _ _ _ (ht.trans (if_pos (by simp [h2])))
  | true =>
  replace ht := ht.trans (if_neg (by simp [h2]))
  rw [if_neg (by decide)]
  by_cases h3 : s.holdup = true
  · rw [if_pos h3]
    exact href _ _ _ (ht.trans (if_pos h3))
  rw [if_neg h3]
  replace ht := ht.trans (if_neg h3)
  have h3' : s.holdup = false := Bool.eq_false_iff.2 h3
  by_cases h4 : code.lockEnd ≠ none
  · rw [if_pos h4]
    exact href _ _ _ (ht.trans (if_pos (Option.isSome_iff_ne_none.2 h4)))
  rw [if_neg h4]
  replace ht := ht.trans (if_neg (mt Option.isSome_iff_ne_none.1 h4))
  by_cases h5 : ofDigits (digits.drop 18) ≠ ofDigits (digits.take 18) % 97
  · rw [if_pos h5]
    exact href _ _ _ (ht.trans (if_pos (by rw [Bool.eq_false_iff.2 (mt (checkOk_iff _).1 h5)]; rfl)))
  rw [if_neg h5]
  replace ht := ht.trans (if_neg (by rw [(checkOk_iff _).2 (not_not.1 h5)]; decide))
  have hwaits : ∀ p, t = ((s.setDigits []).await).request p → p.merges = false → waits p ∧ t.tam = s.tam := by
    rintro p rfl hm
    obtain ⟨-, w2, w3, w4, w5, w6, -, -⟩ := s.await_request_waits id p hm h3'
    exact ⟨⟨w2, w3, w4, w5⟩, w6⟩
  have hauth := authentic_iff s.store.recs.identity.serial u
  unfold State.examineWord at ht
  by_cases h6 : (crc16 0 (beBytes 4 s.store.recs.identity.serial.toNat ++ beBytes 6 (u / 65536 * 16))).toNat ≠ codeCheck u
  · rw [if_pos h6]
    exact hwaits _ (ht.trans (if_pos (by simpa using mt hauth.1 h6))) rfl
  rw [if_neg h6]
  replace ht := ht.trans (if_neg (by simpa using hauth.2 (not_not.1 h6)))
  by_cases h7 : ¬ (1 ≤ kind ∧ kind ≤ 5 ∧ 1 ≤ sequence)
  · rw [if_pos h7]
    exact hwaits _ (ht.trans (if_pos (by simpa using mt (kindOk_iff u).1 h7))) rfl
  rw [if_neg h7]
  replace ht := ht.trans (if_neg (by simpa using (kindOk_iff u).2 (not_not.1 h7)))
  have h7' : 1 ≤ kind ∧ kind ≤ 5 ∧ 1 ≤ sequence := not_not.1 h7
  have hlist := listRefusal_cases code.accepted sequence
  change t = match listRefusal code.accepted sequence with
    | some st => (s.setDigits []).refuseCode st (some kind) (some sequence)
    | none => if s.life.state = .commissioning then (s.setDigits []).refuseCode .state (some kind) (some sequence)
      else (s.setDigits []).handEffect kind sequence amount at ht
  by_cases h8 : sequence ∈ code.accepted
  · rw [if_pos h8] at hlist ⊢
    rw [hlist] at ht
    exact href _ _ _ ht
  rw [if_neg h8] at hlist ⊢
  by_cases h9 : code.accepted.length = 32 ∧ sequence < code.accepted.headD 0
  · rw [if_pos h9] at hlist ⊢
    rw [hlist] at ht
    exact href _ _ _ ht
  rw [if_neg h9] at hlist ⊢
  rw [hlist] at ht
  by_cases h10 : s.life.state = .commissioning
  · rw [if_pos h10]
    exact href _ _ _ (ht.trans (if_pos h10))
  rw [if_neg h10]
  replace ht := ht.trans (if_neg h10)
  refine ⟨fun hk => ?_, fun hk => ?_, fun hk => ?_, fun hk => ?_⟩
  · rw [ht]
    exact s.handEffect_account sequence amount hk
  · intro named clear
    rw [hk] at ht
    have hclear : s.classesToClear amount = clear := (s.classesToClear_eq amount).1
    have hheld : s.classesHeld amount = named.filter s.tam.condition := (s.classesToClear_eq amount).2
    obtain ⟨-, w2, w3, w4, w5, w6, -, -⟩ := s.await_request_waits (fun t => { t with clearing := clear })
      (.clearTamper clear sequence s.time ⟨some .ok, some 2, some sequence, 0, 0, named.filter s.tam.condition⟩) rfl h3'
    have he : t = (((s.setDigits []).onTam fun t => { t with clearing := clear }).await).request
        (.clearTamper clear sequence s.time ⟨some .ok, some 2, some sequence, 0, 0, named.filter s.tam.condition⟩) := by
      rw [← hheld, ← hclear]
      exact ht
    rw [← he] at w2 w3 w4 w5 w6
    exact ⟨w6, w2, w3, w4, w5⟩
  · rw [hk] at ht
    exact (hwaits _ ht rfl).symm
  · rw [hk] at ht
    exact (hwaits _ ht rfl).symm

end

section
/-! The arithmetic of a code: scrambling and its inverse, printed digits and their check (O51). -/

namespace Sys2Proof.Machine

/-! ### Rounds (R84) -/

/-- Both halves are below 2^30. -/
def HalvesBound (h : Nat × Nat) : Prop := h.1 < 2 ^ 30 ∧ h.2 < 2 ^ 30

theorem roundF_lt (x k : Nat) : roundF x k < 2 ^ 30 := by
  have hy : (x + k) % halfSize * 40503 % halfSize < 1073741824 := Nat.mod_lt _ (by decide)
  simp only [roundF]
  generalize (x + k) % halfSize * 40503 % halfSize = y at hy
  simp only [halfSize]
  omega

theorem unscrambleRound_scrambleRound (k : Nat) (h : Nat × Nat) : unscrambleRound k (scrambleRound k h) = h := by
  simp [scrambleRound, unscrambleRound]

theorem scrambleRound_unscrambleRound (k : Nat) (h : Nat × Nat) : scrambleRound k (unscrambleRound k h) = h := by
  simp [scrambleRound, unscrambleRound]

theorem HalvesBound.scrambleRound {h : Nat × Nat} (hb : HalvesBound h) (k : Nat) : HalvesBound (scrambleRound k h) :=
  ⟨hb.2, Nat.xor_lt_two_pow hb.1 (roundF_lt _ _)⟩

theorem HalvesBound.unscrambleRound {h : Nat × Nat} (hb : HalvesBound h) (k : Nat) : HalvesBound (unscrambleRound k h) :=
  ⟨Nat.xor_lt_two_pow hb.2 (roundF_lt _ _), hb.1⟩

theorem halves_joinHalves {h : Nat × Nat} (hb : HalvesBound h) : halves (joinHalves h) = h := by
  obtain ⟨a, b⟩ := h
  have h2 : b < 1073741824 := hb.2
  simp only [halves, joinHalves, halfSize, Prod.mk.injEq]
  omega

theorem joinHalves_halves (u : Nat) : joinHalves (halves u) = u := by
  simp only [halves, joinHalves, halfSize]
  omega

theorem halves_bound {u : Nat} (h : u < 2 ^ 60) : HalvesBound (halves u) := by
  simp only [HalvesBound, halves, halfSize]
  omega

theorem joinHalves_lt {h : Nat × Nat} (hb : HalvesBound h) : joinHalves h < 2 ^ 60 := by
  obtain ⟨h1, h2⟩ := hb
  simp only [joinHalves, halfSize]
  omega

theorem unscramble_scramble (key : BitVec 120) {u : Nat} (h : u < 2 ^ 60) : unscramble key (scramble key u) = u := by
  have hb := halves_bound h
  rw [unscramble, scramble, halves_joinHalves ((((hb.scrambleRound _).scrambleRound _).scrambleRound _).scrambleRound _)]
  simp only [unscrambleRound_scrambleRound, joinHalves_halves]

theorem scramble_unscramble (key : BitVec 120) {u : Nat} (h : u < 2 ^ 60) : scramble key (unscramble key u) = u := by
  have hb := halves_bound h
  rw [unscramble, scramble, halves_joinHalves ((((hb.unscrambleRound _).unscrambleRound _).unscrambleRound _).unscrambleRound _)]
  simp only [scrambleRound_unscrambleRound, joinHalves_halves]

theorem scramble_lt (key : BitVec 120) {u : Nat} (h : u < 2 ^ 60) : scramble key u < 2 ^ 60 :=
  joinHalves_lt (((((halves_bound h).scrambleRound _).scrambleRound _).scrambleRound _).scrambleRound _)

theorem unscramble_lt (key : BitVec 120) {u : Nat} (h : u < 2 ^ 60) : unscramble key u < 2 ^ 60 :=
  joinHalves_lt (((((halves_bound h).unscrambleRound _).unscrambleRound _).unscrambleRound _).unscrambleRound _)

/-! ### Decimal digits (R83) -/

theorem foldl_digits (l : List Byte) (acc : Nat) :
    l.foldl (fun acc d => acc * 10 + d.toNat) acc = acc * 10 ^ l.length + ofDigits l := by
  induction l generalizing acc with
  | nil => simp [ofDigits]
  | cons d rest ih =>
    have h0 : ofDigits (d :: rest) = (0 * 10 + d.toNat) * 10 ^ rest.length + ofDigits rest := ih _
    rw [List.foldl_cons, ih, h0, List.length_cons]
    ring

theorem ofDigits_cons (d : Byte) (l : List Byte) : ofDigits (d :: l) = d.toNat * 10 ^ l.length + ofDigits l := by
  rw [← foldl_digits l d.toNat, ofDigits, List.foldl_cons, Nat.zero_mul, Nat.zero_add]

theorem digitsOf_succ (k n : Nat) : digitsOf (k + 1) n = BitVec.ofNat 8 (n / 10 ^ k % 10) :: digitsOf k n := by
  simp only [digitsOf, List.range_succ_eq_map, List.map_cons, List.map_map]
  congr 1
  refine List.map_congr_left fun j hj => ?_
  have hj : k + 1 - 1 - (j + 1) = k - 1 - j := by omega
  rw [Function.comp_apply, Nat.succ_eq_add_one, hj]

theorem length_digitsOf (k n : Nat) : (digitsOf k n).length = k := by simp [digitsOf]

theorem digitsOf_le {k n : Nat} : ∀ d ∈ digitsOf k n, d.toNat ≤ 9 := by
  intro d hd
  obtain ⟨j, -, rfl⟩ := List.mem_map.1 hd
  rw [BitVec.toNat_ofNat]
  omega

theorem ofDigits_digitsOf (k n : Nat) : ofDigits (digitsOf k n) = n % 10 ^ k := by
  induction k with
  | zero => simp [digitsOf, ofDigits, Nat.mod_one]
  | succ k ih =>
    have hd : (BitVec.ofNat 8 (n / 10 ^ k % 10)).toNat = n / 10 ^ k % 10 := by
      rw [BitVec.toNat_ofNat]
      omega
    rw [digitsOf_succ, ofDigits_cons, length_digitsOf, ih, hd, Nat.mod_pow_succ]
    ring

/-- One digit changed moves the number by the difference at its place. -/
theorem ofDigits_set (l : List Byte) (i : Nat) (d x : Byte) (h : l[i]? = some x) :
    ofDigits (l.set i d) + x.toNat * 10 ^ (l.length - 1 - i) = ofDigits l + d.toNat * 10 ^ (l.length - 1 - i) := by
  induction l generalizing i with
  | nil => simp at h
  | cons a rest ih =>
    cases i with
    | zero =>
      simp only [List.getElem?_cons_zero, Option.some.injEq] at h
      subst h
      simp only [List.set_cons_zero, ofDigits_cons, List.length_cons, Nat.add_sub_cancel, Nat.sub_zero]
      omega
    | succ i =>
      have hl : (a :: rest).length - 1 - (i + 1) = rest.length - 1 - i := by simp only [List.length_cons]; omega
      have := ih i (by simpa using h)
      rw [hl, List.set_cons_succ, ofDigits_cons, ofDigits_cons, List.length_set]
      omega

/-- A decimal digit and another at one place differ by what 97 does not divide. -/
theorem digits_mod_ne {n m p d x : Nat} (h : m + x * 10 ^ p = n + d * 10 ^ p) (hd : d ≤ 9) (hx : x ≤ 9) (hne : x ≠ d) :
    m % 97 ≠ n % 97 := by
  intro hmod
  have h1 : x * 10 ^ p ≡ d * 10 ^ p [MOD 97] := by
    refine Nat.ModEq.add_left_cancel (show m ≡ n [MOD 97] from hmod) ?_
    rw [h]
  have h2 : x ≡ d [MOD 97] := Nat.ModEq.cancel_right_of_coprime (Nat.Coprime.pow_right p (by decide)) h1
  have h3 : x % 97 = d % 97 := h2
  omega

end Sys2Proof.Machine
end

section
open Sys2Proof Sys2Proof.Machine

/-- Settles O51: each round is undone by the other, the digits spell their number, and 97 divides no power of ten times a digit. -/
theorem printedCodesAreReadBack : Obligations.PrintedCodesAreReadBack := by
  refine ⟨fun key u h => ⟨unscramble_scramble key h, scramble_unscramble key h, scramble_lt key h, unscramble_lt key h⟩,
    fun key u h hp => ?_, fun digits i d hlen hall hi hd hne hok => ?_, by norm_num [roundF, halfSize]⟩
  · have htake : (printedCode key u).take 18 = digitsOf 18 (scramble key u) :=
      List.take_left' (length_digitsOf 18 _)
    have hdrop : (printedCode key u).drop 18 = digitsOf 2 (scramble key u % 97) :=
      List.drop_left' (length_digitsOf 18 _)
    have h18 : ofDigits (digitsOf 18 (scramble key u)) = scramble key u := by
      rw [ofDigits_digitsOf, Nat.mod_eq_of_lt hp]
    refine ⟨by simp [printedCode, length_digitsOf], fun d hd => ?_, ?_, ?_⟩
    · rcases List.mem_append.1 hd with hd | hd <;> exact digitsOf_le d hd
    · rw [checkOk_iff, htake, hdrop, h18, ofDigits_digitsOf]
      omega
    · rw [htake, h18, unscramble_scramble key h]
  · rw [checkOk_iff] at hok
    rw [← Bool.not_eq_true, checkOk_iff]
    obtain ⟨x, hx⟩ : ∃ x, digits[i]? = some x := ⟨_, List.getElem?_eq_getElem (by omega)⟩
    have hx9 : x.toNat ≤ 9 := hall x (List.mem_of_getElem? hx)
    have hxd : x.toNat ≠ d.toNat := fun he => hne (by rw [hx, BitVec.eq_of_toNat_eq he])
    rcases Nat.lt_or_ge i 18 with h18 | h18
    · have hset := ofDigits_set (digits.take 18) i d x (by rw [List.getElem?_take, if_pos h18, hx])
      have hmod := digits_mod_ne hset hd hx9 hxd
      rw [List.take_set, List.drop_set_of_lt h18, hok]
      exact fun he => hmod he.symm
    · have hset := ofDigits_set (digits.drop 18) (i - 18) d x (by rw [List.getElem?_drop, Nat.add_sub_cancel' h18, hx])
      have hpos : 0 < 10 ^ ((digits.drop 18).length - 1 - (i - 18)) := Nat.pow_pos (by decide)
      rw [List.drop_set, if_neg (Nat.not_lt.2 h18), List.take_set_of_le h18, ← hok]
      intro he
      rw [he] at hset
      exact hxd (Nat.eq_of_mul_eq_mul_right hpos (Nat.add_left_cancel hset))

end

section
/-! The supply switch's attempts, operations and requests (O52 to O54). -/

namespace Sys2Proof.Machine

variable {s t x y : State}

/-! ### The confirming condition (R109) -/

theorem State.confirms_iff (s : State) (need ls : Tri Bool) : confirms s.sw.state need ls = true ↔ s.lsConfirms need ls := by
  obtain ⟨n1, n2, n3⟩ := need
  obtain ⟨l1, l2, l3⟩ := ls
  unfold State.lsConfirms
  by_cases ho : s.sw.state = .opening
  · rw [if_pos ho, ho]
    simp [confirms, Tri.any]
    tauto
  · have he : confirms s.sw.state ⟨n1, n2, n3⟩ ⟨l1, l2, l3⟩ = if (Tri.mk n1 n2 n3).any then
        ((Tri.mk n1 n2 n3).zip (fun n l => !n || l) ⟨l1, l2, l3⟩).every else (Tri.mk l1 l2 l3).any := by
      unfold confirms
      split
      · next h => exact absurd h ho
      · rfl
    rw [if_neg ho, he]
    cases n1 <;> cases n2 <;> cases n3 <;> simp [Tri.any, Tri.zip, Tri.every, or_assoc, and_assoc]

/-- The interval that begins, is kept or breaks. -/
theorem intervalAfter_spec (past : Bool) (now window : Nat) (since : Option Nat) :
    (∀ t0, since = some t0 → intervalAfter true past now window since = some t0) ∧
      (since = none → past = false → now < window → intervalAfter true past now window since = some now) ∧
      (since = none → past = true ∨ window ≤ now → intervalAfter true past now window since = none) ∧
      intervalAfter false past now window since = none := by
  refine ⟨?_, ?_, ?_, rfl⟩
  · rintro t0 rfl
    rfl
  · rintro rfl rfl hlt
    simp [intervalAfter, hlt]
  · rintro rfl (rfl | hle)
    · simp [intervalAfter]
    · simp [intervalAfter, Nat.not_lt.2 hle]

/-! ### A failed attempt (R110, R116) -/

theorem State.raiseFault_mem (s : State) (f : FaultKind) : f ∈ (s.raiseFault f).life.faults := by
  rw [State.raiseFault_life]
  split
  · next h => simpa using h
  · simp

/-- A record of a following class, where it is detected. -/
theorem State.followOnset_last (s : State) (c : EvClass) (v : Option Int) (hd : (s.policy c).detect = true) :
    ∃ slot, (s.followOnset c v).tam.evidence.log.getLast? = some { blankRecord c .active s.time with
      number := s.tam.evidence.next, slot := slot, value := v } := by
  rw [State.followOnset, if_pos hd]
  exact s.appendRecord_last _

theorem State.followOnset_conditions (s : State) (c : EvClass) (v : Option Int) :
    (s.followOnset c v).tam.conditions = s.tam.conditions := by
  unfold State.followOnset
  split <;> simp

theorem State.enterJammed_spec (s : State) : s.enterJammed.sw = { s.sw with state := .jammed, attempt := 0, progress := .idle } ∧
    State.agreeBut [.store, .sw, .tam, .life, .link] s s.enterJammed ∧ .relayJammed ∈ s.enterJammed.life.faults ∧
    s.enterJammed.tam.relayFault = true ∧ .switch ∈ s.enterJammed.link.notices ∧
    ((s.policy .relayFault).detect = true → ∃ slot, s.enterJammed.tam.evidence.log.getLast? =
      some { blankRecord .relayFault .active s.time with number := s.tam.evidence.next, slot := slot }) := by
  refine ⟨by simp [State.enterJammed], by simp [State.agreeBut_iff, State.enterJammed], ?_, ?_, State.pend_mem _ _, fun hd => ?_⟩
  · have h := (s.onSw fun w => { w with state := .jammed, attempt := 0, progress := .idle }).raiseFault_mem .relayJammed
    simpa [State.enterJammed] using h
  · have h := congrArg Tamper.relayFault ((((s.onSw fun w => { w with state := .jammed, attempt := 0, progress := .idle }).raiseFault
      .relayJammed).onTam fun t => { t with relayFault := true }).followOnset_conditions .relayFault none)
    exact (h :)
  · have h := (((s.onSw fun w => { w with state := .jammed, attempt := 0, progress := .idle }).raiseFault
      .relayJammed).onTam fun t => { t with relayFault := true }).followOnset_last .relayFault none
      (by rw [State.policy_congr (s := s) (by simp) (by simp)]; exact hd)
    rw [State.time_congr (s := s) (by simp)] at h
    simpa [State.enterJammed, blankRecord] using h

/-- The state with its inputs and progress renewed fails its attempt. -/
theorem State.attemptFails_withLs (s : State) (ls : Tri Bool) (p : Progress) : s.attemptFailed (s.withLs ls p).attemptFails ls := by
  unfold State.attemptFails
  split
  · next h =>
    exact ⟨State.pend_mem _ _, fun _ => ⟨rfl, by simp [State.agreeBut_iff, State.withLs]⟩, fun h' => absurd h (Nat.not_lt.2 h')⟩
  · next h =>
    obtain ⟨h1, h2, h3, h4, h5, h6⟩ := (s.withLs ls p).enterJammed_spec
    refine ⟨h5, fun h' => absurd h' h, fun _ => ⟨h1, ?_, h3, h4, h6⟩⟩
    exact (State.agreeBut.trans (p := [.sw]) (by simp [State.agreeBut_iff, State.withLs]) h2).mono (by decide)

/-! ### A completed operation (R107, R111) -/

theorem State.toRest_sw (s : State) (target : SwitchState) (h : ¬ operatingState target) :
    (s.toRest target).sw = s.sw.enters target :=
  (if_neg h).symm

theorem State.beginOperation_sw (s : State) (target : SwitchState) (h : operatingState target) :
    (s.beginOperation target).sw = s.sw.enters target :=
  (if_pos h).symm

/-- The state a confirmed operation is judged into. -/
def State.completesInto (s : State) (opening : Bool) : SwitchState :=
  if opening then
    (if s.sw.record.holds.isEmpty then (if s.config.switch.ack then .armed else if s.mains then .closing else .opened) else .opened)
  else if s.sw.record.holds.isEmpty then .closed
  else if s.mains then .opening else .closed

theorem State.judgeCompletion_spec (s : State) (opening : Bool) :
    (s.judgeCompletion opening).sw = s.sw.enters (s.completesInto opening) ∧ .switch ∈ (s.judgeCompletion opening).link.notices := by
  unfold State.judgeCompletion State.completesInto State.ackRequired
  have rest : ∀ w, ¬ operatingState w → (s.toRest w).sw = s.sw.enters w ∧ .switch ∈ (s.toRest w).link.notices :=
    fun w h => ⟨s.toRest_sw w h, State.pend_mem _ _⟩
  have op : ∀ w, operatingState w → (s.beginOperation w).sw = s.sw.enters w ∧ .switch ∈ (s.beginOperation w).link.notices :=
    fun w h => ⟨s.beginOperation_sw w h, State.pend_mem _ _⟩
  cases opening <;> cases s.sw.record.holds.isEmpty <;> simp only [Bool.not_true, Bool.not_false, Bool.false_eq_true, if_true, if_false]
  · cases s.mains
    · exact rest _ (by simp [operatingState])
    · exact op _ (by simp [operatingState])
  · exact rest _ (by simp [operatingState])
  · exact rest _ (by simp [operatingState])
  · cases s.config.switch.ack
    · cases s.mains
      · exact rest _ (by simp [operatingState])
      · exact op _ (by simp [operatingState])
    · exact rest _ (by simp [operatingState])

theorem State.judgeCompletion_onlySuspends (s : State) (b : Bool) : s.onlySuspends (s.judgeCompletion b) :=
  State.onlySuspends_of (by simp [Tamper.conditions])

/-- The switch as an operation completes, before it is judged. -/
def State.timeKept (s : State) (opening : Bool) (time : Nat) : Switch :=
  { s.sw with
    record := s.sw.record.withTime opening time
    attempt := 0
    progress := .idle
    timesDue := s.sw.timesDue || s.holdup }

theorem State.completesInto_timeKept (s : State) (opening : Bool) (time : Nat) :
    (s.onSw fun _ => s.timeKept opening time).completesInto opening = s.completesInto opening := by
  cases opening <;> rfl

/-- What a state is entered from does not depend on the attempt and its progress. -/
theorem Switch.enters_congr {v w : Switch} (x : SwitchState)
    (h : { v with attempt := 0, progress := .idle } = { w with attempt := 0, progress := .idle }) : v.enters x = w.enters x := by
  unfold Switch.enters
  split
  · exact congrArg (fun z : Switch => { z with state := x, attempt := 1, progress := .waiting }) h
  · exact congrArg (fun z : Switch => { z with state := x, attempt := 0, progress := .idle }) h

theorem State.completeOperation_spec (s : State) (time : Nat) :
    (s.completeOperation time).sw = (s.timeKept (s.sw.state == .opening) time).enters (s.completesInto (s.sw.state == .opening)) ∧
      State.agreeBut [.store, .sw, .tam, .link] s (s.completeOperation time) ∧ s.onlySuspends (s.completeOperation time) ∧
      s.sameRecords (s.completeOperation time) ∧ .switch ∈ (s.completeOperation time).link.notices ∧
      (s.mains = true → .switchRecord ∈ (s.completeOperation time).underWay) := by
  have hy : s.completeOperation time = ((s.onSw fun _ => s.timeKept (s.sw.state == .opening) time).judgeCompletion (s.sw.state == .opening)).request .switchRecord := rfl
  have hinto := s.completesInto_timeKept (s.sw.state == .opening) time
  obtain ⟨h1, h2⟩ := (s.onSw fun _ => s.timeKept (s.sw.state == .opening) time).judgeCompletion_spec (s.sw.state == .opening)
  have h3 := (s.onSw fun _ => s.timeKept (s.sw.state == .opening) time).judgeCompletion_onlySuspends (s.sw.state == .opening)
  rw [hinto] at h1
  refine ⟨?_, by simp [State.agreeBut_iff], ?_, by simp [State.sameRecords], ?_, fun hm => ?_⟩
  · rw [hy]
    simpa using h1
  · rw [hy]
    unfold State.onlySuspends at *
    simpa using h3
  · rw [hy]
    simpa using h2
  · rw [hy]
    obtain ⟨q, hq, hs⟩ := State.request_served ((s.onSw fun _ => s.timeKept (s.sw.state == .opening) time).judgeCompletion (s.sw.state == .opening)) .switchRecord
      (.inl (by simpa [State.holdup] using s.mains_not_holdup hm))
    cases hs
    exact hq

/-! ### Acknowledgement and REMOTE-HOLD (R103, R113, R114) -/

/-- A hold handed over that changes the hold set: the switch record, the notice and the write. -/
theorem State.handHold_changes (s : State) (r : Hold) (b : Bool) (hm : s.holdup = false)
    (hr : Hold.notInCommissioning r = false) (hb : s.sw.record.holds.has r ≠ b) :
    (s.handHold r b).sw.record = { s.sw.record with holds := s.sw.record.holds.put r b } ∧
      .switchRecord ∈ (s.handHold r b).underWay ∧ .switch ∈ (s.handHold r b).link.notices := by
  have he : s.handHold r b = (((s.onSw fun w => { w with record := { w.record with holds := w.record.holds.put r b } }).judgeRest).request
      .switchRecord).pend .switch := by
    rw [State.handHold, if_neg (by simp [hr]), if_neg hb]
  rw [he]
  refine ⟨by simp, ?_, State.pend_mem _ _⟩
  obtain ⟨q, hq, hs⟩ := State.request_served (s.onSw fun w => { w with record := { w.record with holds := w.record.holds.put r b } }).judgeRest
    .switchRecord (.inl (by simpa [State.holdup] using hm))
  cases hs
  exact hq

end Sys2Proof.Machine
end

section
open Sys2Proof Sys2Proof.Machine

/-- Settles O52: the inputs are judged by the confirming condition, and an interval is begun, kept or broken. -/
theorem attemptsAreVerified : Obligations.AttemptsAreVerified := by
  intro s
  refine ⟨fun m ha hm hp hd hl => ?_, fun a hp => ?_, fun ls ms hp => ?_, fun ls ms a since past hp => ?_, fun a hp hd => ?_,
    fun a t0 hp hd => ?_⟩
  · refine congrArg Host.Outcome.next ?_
    rw [State.startPulse, if_pos (by simp [ha, hm, hp, hd, hl])]
    simp only [State.neededPhases, State.presentPhases, hl]
    rfl
  · refine ⟨if confirms s.sw.state a.need s.sw.ls then some a.blanking else none, fun h => if_pos ((s.confirms_iff _ _).2 h),
      fun h => if_neg (mt (s.confirms_iff _ _).1 h), congrArg Host.Outcome.next ?_⟩
    simp only [State.endBlanking, hp]
    rfl
  · refine congrArg Host.Outcome.next ?_
    unfold State.lsChanges
    dsimp only
    split
    · next a since past h => exact absurd h (hp a since past)
    · rfl
  · intro now after
    obtain ⟨i1, i2, i3, i4⟩ := intervalAfter_spec past now a.window since
    have hchange : s.lsChanges ls ms =
        (let next := intervalAfter (confirms s.sw.state a.need ls) past now a.window since
         let s2 := s.withLs ls (.watching { a with now := now } next past)
         if past && since.isSome && next.isNone then s2.attemptFails else s2) := by
      simp only [State.lsChanges, hp]
      rfl
    have hkept : ∀ x, intervalAfter (confirms s.sw.state a.need ls) past now a.window since = x →
        (past = false ∨ since = none ∨ x ≠ none) → after x := by
      rintro x rfl h
      refine congrArg Host.Outcome.next (hchange.trans (if_neg ?_))
      rcases h with h | h | h <;> simp [h]
    refine ⟨fun hc => ?_, fun hc => ?_⟩
    · have hcc : confirms s.sw.state a.need ls = true := (s.confirms_iff _ _).2 hc
      exact ⟨fun t0 h => hkept _ (hcc ▸ i1 t0 h) (.inr (.inr (by simp))), fun h h1 h2 => hkept _ (hcc ▸ i2 h h1 h2) (.inl h1),
        fun h h1 => hkept _ (hcc ▸ i3 h h1) (.inr (.inl h))⟩
    · have hcc : confirms s.sw.state a.need ls = false := Bool.eq_false_iff.2 (mt (s.confirms_iff _ _).1 hc)
      refine ⟨fun h => hkept none (hcc ▸ i4) (h.imp_right .inl), fun h1 h2 => ⟨_, congrArg Host.Outcome.next hchange, ?_⟩⟩
      have hsome : since.isSome = true := Option.isSome_iff_ne_none.2 h2
      simp only [hcc, h1, hsome]
      exact s.attemptFails_withLs ls _
  · refine ⟨s.attemptFails, congrArg Host.Outcome.next (by simp only [State.endWatch, hp, hd]; rfl), ?_⟩
    exact s.attemptFails_withLs s.sw.ls s.sw.progress
  · refine congrArg Host.Outcome.next ?_
    simp only [State.endWatch, hp, hd]
    rfl

/-- Settles O53: the completion itself, and the two events that wait for each other. -/
theorem operationsComplete : Obligations.OperationsComplete := by
  intro c time s
  refine ⟨?_, ?_, fun hc ho => ?_⟩
  · rintro a past rfl hp hd
    exact congrArg Host.Outcome.next (by simp only [State.confirm, hp]; exact if_neg hd)
  · rintro rfl hd hp
    refine congrArg Host.Outcome.next ?_
    rw [State.endPulse, if_neg hd]
    dsimp only
    split
    · next n h => exact absurd h (hp n)
    · rfl
  · obtain ⟨hexec⟩ : Nonempty (exec c s = .next ((s.onSw fun w => { w with drive := .none }).completeOperation time)) := by
      rcases hc with ⟨rfl, ⟨a, past, hp⟩, hd⟩ | ⟨rfl, hp, hd⟩
      · have hs : (s.onSw fun w => { w with drive := .none }) = s := by rw [← hd]; rfl
        rw [hs]
        exact ⟨congrArg Host.Outcome.next (by simp only [State.confirm, hp, hd, if_true])⟩
      · refine ⟨congrArg Host.Outcome.next ?_⟩
        rw [State.endPulse, if_neg hd]
        simp only [hp]
    obtain ⟨h1, h2, h3, h4, h5, h6⟩ := (s.onSw fun w => { w with drive := .none }).completeOperation_spec time
    refine ⟨_, hexec, (State.agreeBut.trans (p := [.sw]) (by simp [State.agreeBut_iff]) h2).mono (by decide), h3, h4, h5, h6, ?_⟩
    intro r kept next
    rw [h1]
    rcases ho with ho | ho
    all_goals
      have hn : State.completesInto (s.onSw fun w => { w with drive := .none }) (s.sw.state == .opening) = next := by
        simp only [next, r, ho]
        rfl
      have hk : SwitchRec.withTime s.sw.record (s.sw.state == .opening) time = kept := by
        simp only [kept, r, ho]
        rfl
      change Switch.enters _ (State.completesInto (s.onSw fun w => { w with drive := .none }) (s.sw.state == .opening)) = _
      rw [hn]
      refine Switch.enters_congr _ ?_
      rw [← hk]
      rfl

/-- Settles O54. -/
theorem switchRequests : Obligations.SwitchRequests := by
  intro s
  refine ⟨fun ha hm hs => ?_, fun h => ?_, fun hx => ?_, fun c choice hc hx => ?_⟩
  · refine ⟨s.beginOperation .closing, congrArg Host.Outcome.next (if_pos (by simp [ha, hm, hs])), by simp [State.agreeBut_iff],
      s.beginOperation_sw _ (.inr rfl), rfl, State.pend_mem _ _⟩
  · refine congrArg Host.Outcome.next (if_neg ?_)
    rcases h with h | h <;> simp [h]
  · refine ⟨s.examineReconnect, congrArg Host.Outcome.next (State.onRequest_examines s _ hx), fun h => ?_, fun h hh => ?_, fun h hh => ?_⟩
    · rw [State.examineReconnect, if_pos h]
      exact s.answer_onlyReplied _ _
    · rw [State.examineReconnect, if_neg (not_not.2 h), if_pos hh]
      exact s.answer_onlyReplied _ _
    · rw [State.examineReconnect, if_neg (not_not.2 h), if_neg (by simp [hh])]
      refine ⟨by simp [State.agreeBut_iff], ?_, rfl, State.pend_mem _ _, rfl⟩
      exact s.beginOperation_sw _ (.inr rfl)
  · have he : ∃ t, exec c s = .next t ∧ t = s.examineRemote choice := by
      rcases hc with rfl | ⟨rfl, rfl⟩
      · exact ⟨_, congrArg Host.Outcome.next (State.onRequest_examines s _ hx), rfl⟩
      · exact ⟨_, congrArg Host.Outcome.next (State.onRequest_examines s _ hx), rfl⟩
    obtain ⟨t, hexec, rfl⟩ := he
    refine ⟨_, hexec, ?_⟩
    unfold State.examineRemote
    by_cases h1 : s.life.state = .halted
    · rw [if_pos h1, if_pos h1]
      exact s.answer_onlyReplied _ _
    rw [if_neg h1, if_neg h1]
    by_cases h2 : s.holdup = true
    · rw [if_pos h2, if_pos h2]
      exact s.answer_onlyReplied _ _
    rw [if_neg h2, if_neg h2]
    by_cases h3 : 1 < choice.toNat
    · rw [if_pos h3, if_pos h3]
      exact s.answer_onlyReplied _ _
    rw [if_neg h3, if_neg h3]
    by_cases h4 : s.sw.record.holds.remote = (choice == 1)
    · rw [if_pos h4, if_pos h4]
      exact s.answer_onlyReplied _ _
    rw [if_neg h4, if_neg h4]
    obtain ⟨h5, h6, h7⟩ := s.await.handHold_changes .remote (choice == 1) (by simpa [State.holdup] using h2) rfl h4
    have hsame : (s.await.handHold .remote (choice == 1)).link.inHand = s.await.link.inHand :=
      (State.handHold_onward (.refl _) .remote (choice == 1)).inHand
    refine ⟨by simp [State.agreeBut_iff], ?_, by simp [State.sameRecords], h5, hsame, h6, h7⟩
    exact State.onlySuspends.trans (State.onlySuspends_of ⟨rfl, rfl, rfl, rfl, rfl, rfl⟩) (s.await.handHold_onlySuspends _ _)

end

section
/-! RELAY-RETRY, position sensing and the end of a start (O55). -/

namespace Sys2Proof.Machine

variable {s t x y : State}

/-! ### The state leaves JAMMED (R116), and a position is sensed (R119) -/

theorem State.followEnd_conditions (s : State) (c : EvClass) : (s.followEnd c).tam.conditions = s.tam.conditions := by
  unfold State.followEnd
  split <;> simp

theorem State.endFault_not_mem (s : State) (f : FaultKind) : f ∉ (s.endFault f).life.faults := by
  rw [State.endFault_life]
  split
  · simp
  · next h => simpa using h

theorem State.leaveJammed_spec (s : State) :
    .relayJammed ∉ s.leaveJammed.life.faults ∧ s.leaveJammed.tam.relayFault = false := by
  refine ⟨?_, ?_⟩
  · have h := s.endFault_not_mem .relayJammed
    simpa [State.leaveJammed] using h
  · exact (congrArg Tamper.relayFault (((s.endFault .relayJammed).onTam fun t => { t with relayFault := false }).followEnd_conditions
      .relayFault) :)

theorem State.setSensed_spec (s : State) : s.setSensed.sw = { s.sw with sensing := none }.enters s.sensedState ∧
    .switch ∈ s.setSensed.link.notices ∧ s.onlySuspends s.setSensed ∧ State.agreeBut [.sw, .tam, .link] s s.setSensed := by
  refine ⟨?_, ?_, State.onlySuspends_of (by simp [Tamper.conditions]), by simp [State.agreeBut_iff]⟩
  · have hany : s.sw.ls.any = true ↔ s.sw.ls.p1 = true ∨ s.sw.ls.p2 = true ∨ s.sw.ls.p3 = true := by simp [Tri.any, or_assoc]
    unfold State.setSensed State.sensedState State.ackRequired
    by_cases h : s.sw.ls.any = true
    · rw [if_pos h, if_pos (hany.1 h)]
      split <;> simp [Switch.enters]
    · rw [if_neg h, if_neg (mt hany.2 h)]
      split
      · split <;> simp [Switch.enters]
      · simp [Switch.enters]
  · unfold State.setSensed
    dsimp only
    split
    · split <;> exact State.pend_mem _ _
    · split
      · split <;> exact State.pend_mem _ _
      · exact State.pend_mem _ _

/-! ### The end of a start (R172) -/

theorem State.creditTest_sensing (s : State) (b : Bool) : (s.creditTest b).sw.sensing = s.sw.sensing := by
  unfold State.creditTest
  split
  · rfl
  · split <;> simp

theorem State.backoffReached_sensing (s : State) : s.backoffReached.sw.sensing = s.sw.sensing := by
  unfold State.backoffReached State.backoffTest
  split
  · split
    · split <;> simp
    · simp
  · rfl

theorem State.judgeTamper_load (s : State) : s.judgeTamper.sw.record.holds.load = s.sw.record.holds.load ∧
    s.judgeTamper.sw.sensing = s.sw.sensing := by
  unfold State.judgeTamper
  split
  · obtain ⟨-, -, h3, -, h5⟩ := s.handHold_switch .tamper s.tamperDue
    exact ⟨h5 .load (by decide), h3⟩
  · exact ⟨rfl, rfl⟩

/-- The end of a start in MAINS: the part runs, its notices are pending, and the friendly state and LOAD are handed over. -/
theorem State.finishStart_spec (s : State) (hm : s.mains = true) :
    s.finishStart.backup = { s.backup with domain := .running } ∧ s.finishStart.sw.sensing = s.sw.sensing ∧
      s.finishStart.link.receiver = .waitHigh ∧ .life ∈ s.finishStart.link.notices ∧ .power ∈ s.finishStart.link.notices ∧
      .switch ∈ s.finishStart.link.notices ∧
      s.finishStart.cal.friendly = (s.finishStart.clockValid && s.finishStart.tariff.friendlyAt s.finishStart.clock) ∧
      (s.life.state ≠ .commissioning → s.finishStart.sw.record.holds.load = s.finishStart.sup.supply.backoff.isSome) ∧
      (∀ until_ period, s.sup.supply.backoff = some ⟨until_, period⟩ → until_ ≤ s.clock →
        s.finishStart.sup.supply.backoff = none) := by
  have hback : s.finishStart.backup = { s.backup with domain := .running } := by simp [State.finishStart, State.endCalendar]
  have htariff : s.finishStart.tariff = s.tariff := congrArg (·.tariff.active) s.finishStart_keeps.1
  generalize he : ((s.onBackup fun b => { b with domain := .running }).onLink fun l => { l with receiver := .waitHigh }).endCalendar = e
  have heback : e.backup = { s.backup with domain := .running } := by rw [← he]; simp [State.endCalendar]
  have hsens : e.sw.sensing = s.sw.sensing := by
    rw [← he]
    exact State.creditTest_sensing _ _
  have hrecv : e.link.receiver = .waitHigh := by
    rw [← he, State.endCalendar, (State.creditTest_onward (.refl _) true).link]
    rfl
  have hcal : e.cal.friendly = (s.clockValid && s.tariff.friendlyAt s.clock) := by
    rw [← he]
    simp [State.endCalendar, State.clockValid, State.tariff, State.clock]
  have hsup : e.sup = s.sup := by rw [← he]; simp [State.endCalendar]
  have hlife : e.life = s.life := by rw [← he]; simp [State.endCalendar]
  have hf : s.finishStart = ((((((e.clockTests).handHold .load e.clockTests.sup.supply.backoff.isSome).judgeTamper).pend .life).pend
      .power).pend .switch).restartSilence := by rw [← he]; rfl
  have ha : e.alive = true := by simp [State.alive, heback]
  have hme : e.mains = true := by simpa [State.mains, heback] using hm
  obtain ⟨-, hoff, -⟩ := e.clockTests_ends ha hme
  have hon : e.Onward (((e.clockTests).handHold .load e.clockTests.sup.supply.backoff.isSome).judgeTamper) :=
    State.judgeTamper_onward (State.handHold_onward (State.clockTests_onward (.refl e)) _ _)
  refine ⟨hback, ?_, ?_, ?_, ?_, ?_, ?_, fun hc => ?_, fun u period hb hr => ?_⟩
  · rw [hf]
    have h1 := (e.clockTests.handHold_switch .load e.clockTests.sup.supply.backoff.isSome).2.2.1
    have h2 := (e.compareDay.activate.lockoutReached).backoffReached_sensing
    have h3 := ((e.clockTests).handHold .load e.clockTests.sup.supply.backoff.isSome).judgeTamper_load.2
    calc _ = ((e.clockTests).handHold .load e.clockTests.sup.supply.backoff.isSome).judgeTamper.sw.sensing := by simp [State.restartSilence]
      _ = e.clockTests.sw.sensing := h3.trans h1
      _ = e.sw.sensing := by rw [State.clockTests, h2]; simp
      _ = _ := hsens
  · rw [hf]
    change (((e.clockTests).handHold .load e.clockTests.sup.supply.backoff.isSome).judgeTamper.pend .life |>.pend .power |>.pend
      .switch).link.receiver = _
    rw [(State.pend_onward (State.pend_onward (State.pend_onward hon .life) .power) .switch).link]
    exact hrecv
  · rw [hf]
    exact State.pend_keeps_mem _ _ _ (State.pend_keeps_mem _ _ _ (State.pend_mem _ _))
  · rw [hf]
    exact State.pend_keeps_mem _ _ _ (State.pend_mem _ _)
  · rw [hf]
    exact State.pend_mem _ _
  · rw [htariff, State.clock, State.clockValid, hback]
    refine Eq.trans ?_ hcal
    have h1 : s.finishStart.cal = e.clockTests.cal := by rw [hf]; simp [State.restartSilence]
    rw [h1, e.clockTests_cal.1, e.compareDay_keeps'.2]
  · rw [hf]
    have h1 := ((e.clockTests).handHold .load e.clockTests.sup.supply.backoff.isSome).judgeTamper_load.1
    have h2 := e.clockTests.handHold_has .load e.clockTests.sup.supply.backoff.isSome (by simp [hlife, hc])
    have h3 : (((((((e.clockTests).handHold .load e.clockTests.sup.supply.backoff.isSome).judgeTamper).pend .life).pend
      .power).pend .switch).restartSilence).sup = e.clockTests.sup := by simp [State.restartSilence]
    rw [h3]
    refine Eq.trans ?_ (h1.trans h2)
    simp [State.restartSilence]
  · rw [hf]
    have h := (hoff u period (by rw [hsup]; exact hb) (by simpa [State.clock, heback] using hr)).1
    simpa [State.restartSilence] using h

/-! ### RELAY-RETRY (R117) -/

/-- An operation or a rest state entered as the state leaves JAMMED, and the reply. -/
theorem State.leaves_jammed (s : State) (f : State → State)
    (hf : State.agreeBut [.sw, .tam, .link] s.leaveJammed (f s.leaveJammed)) (ho : s.leaveJammed.onlySuspends (f s.leaveJammed))
    (hl : s.leaveJammed.Onward (f s.leaveJammed)) (hh : (f s.leaveJammed).sw.record = s.sw.record) :
    let t := (f s.leaveJammed).answer .ok (f s.leaveJammed).switchBody
    State.agreeBut [.store, .sw, .tam, .life, .link, .fresh] s t ∧ s.sameRecords t ∧ .relayJammed ∉ t.life.faults ∧
      t.tam.relayFault = false ∧ s.inHandReplied t .ok [t.sw.state.byte, s.sw.record.holds.byte] := by
  obtain ⟨h1, h2⟩ := s.leaveJammed_spec
  have hj : State.agreeBut [.store, .tam, .life, .link] s s.leaveJammed := by simp [State.agreeBut_iff]
  have ha : State.agreeBut [.link, .fresh] (f s.leaveJammed) ((f s.leaveJammed).answer .ok (f s.leaveJammed).switchBody) :=
    ((f s.leaveJammed).answer_onlyReplied _ _).2
  have hlife : (f s.leaveJammed).life = s.leaveJammed.life := hf .life (by decide)
  refine ⟨(hj.trans (hf.trans ha)).mono (by decide), ?_, ?_, ?_, ?_⟩
  · have hstore : (f s.leaveJammed).store = s.leaveJammed.store := hf .store (by decide)
    obtain ⟨-, -, h3, h4, h5⟩ := s.leaveJammed_keeps
    simp only [State.sameRecords, State.answer_frame, hstore]
    exact ⟨h3, h4, h5⟩
  · simpa [hlife] using h1
  · have h := (congrArg Tamper.relayFault ho :)
    simpa [h2] using h
  · have hin : (f s.leaveJammed).link.inHand = s.link.inHand := hl.inHand.trans (State.leaveJammed_onward (.refl s)).inHand
    have h := congrArg Link.inHand ((f s.leaveJammed).answer_replied .ok (f s.leaveJammed).switchBody :)
    refine h.trans ?_
    simp only [Link.atStage, hin, State.switchBody, hh]
    rfl

end Sys2Proof.Machine
end

section
open Sys2Proof Sys2Proof.Machine

/-- Settles O55: RELAY-RETRY by its cases, sensing by the rule that called for it, the end of a suspension by its test. -/
theorem relayRetryAndSensing : Obligations.RelayRetryAndSensing := by
  intro s
  refine ⟨fun hx => ?_, fun ha hm => ?_, fun hs hp => ?_, fun hs h1 h2 => ?_⟩
  · refine ⟨s.examineRetry, congrArg Host.Outcome.next (State.onRequest_examines s _ hx), fun h => ?_, fun h hh => ?_, fun h hh => ?_⟩
    · rw [State.examineRetry, if_pos h]
      exact s.answer_onlyReplied _ _
    · rw [State.examineRetry, if_neg (not_not.2 h), if_pos hh]
      exact s.answer_onlyReplied _ _
    · have he : s.examineRetry = if (!s.sw.record.holds.isEmpty) = true then s.retryInto .opening
          else if (!s.ackRequired) = true then s.retryInto .closing
          else (s.onSw fun w => { w with sensing := some .forRetry }).await := by
        rw [State.examineRetry, if_neg (not_not.2 h), if_neg (by simp [hh])]
      rw [he]
      have into : ∀ w, operatingState w → State.agreeBut [.store, .sw, .tam, .life, .link, .fresh] s (s.retryInto w) ∧
          s.sameRecords (s.retryInto w) ∧ (s.retryInto w).sw = s.sw.enters w ∧ .relayJammed ∉ (s.retryInto w).life.faults ∧
          (s.retryInto w).tam.relayFault = false ∧
          s.inHandReplied (s.retryInto w) .ok [(s.retryInto w).sw.state.byte, s.sw.record.holds.byte] := fun w hw => by
        obtain ⟨h1, h2, h3, h4, h5⟩ := s.leaves_jammed (State.beginOperation w) (by simp [State.agreeBut_iff]) rfl
          (State.beginOperation_onward (.refl _) w) (by simp)
        have hsw := s.leaveJammed.beginOperation_sw w hw
        exact ⟨h1, h2, by simpa [State.retryInto] using hsw, h3, h4, h5⟩
      refine ⟨fun he ha => ?_, fun hn => ?_⟩
      · rw [if_neg (by simp [he]), if_neg (by simp [State.ackRequired, ha])]
        rfl
      · cases he : s.sw.record.holds.isEmpty with
        | false =>
          rw [if_pos (by simp), if_neg (by simp)]
          exact into .opening (.inl rfl)
        | true =>
          have hack : s.ackRequired = false := hn.resolve_left (by simp [he])
          rw [if_neg (by simp), if_pos (by simp [hack]), if_pos rfl]
          exact into .closing (.inr rfl)
  · obtain ⟨h1, h2, h3, h4⟩ := s.setSensed_spec
    have hsens : s.setSensed.sw.sensing = none := by
      rw [h1]
      unfold Switch.enters
      split <;> rfl
    have hexec : exec .positionSensingEnd s = .next s.sensed := rfl
    cases hs : s.sw.sensing with
    | none =>
      have he : s.sensed = s := by simp [State.sensed, ha, hm, hs]
      exact ⟨_, hexec, by simp, by simp, by simp, by simp, by simp⟩
    | some w =>
      cases w with
      | atDip =>
        have he : s.sensed = s.setSensed := by simp [State.sensed, ha, hm, hs]
        rw [he] at hexec
        exact ⟨_, hexec, fun _ => ⟨h4, h3⟩, by simp, by simp, fun _ _ => ⟨h1, h2⟩, by simp⟩
      | forRetry =>
        have he : s.sensed = s.leaveJammed.setSensed.answer .ok s.leaveJammed.setSensed.switchBody := by
          simp [State.sensed, ha, hm, hs]
        rw [he] at hexec
        obtain ⟨j1, j2, j3, j4⟩ := s.leaveJammed.setSensed_spec
        have hrec : s.leaveJammed.setSensed.sw.record = s.sw.record := by
          rw [j1]
          unfold Switch.enters
          split <;> simp
        obtain ⟨l1, l2, l3, l4, l5⟩ := s.leaves_jammed State.setSensed j4 j3 (State.setSensed_onward (.refl _)) hrec
        refine ⟨_, hexec, by simp, fun _ => ⟨l1, l2, l3, l4, l5⟩, by simp, fun _ _ => ⟨?_, ?_⟩, by simp⟩
        · have hst : s.leaveJammed.sensedState = s.sensedState := by
            have hc : s.leaveJammed.config = s.config := State.config_congr (by simp) (by simp)
            unfold State.sensedState
            rw [hc]
            simp
          rw [hst] at j1
          simpa using j1
        · exact j2
      | atStart =>
        have he : s.sensed = s.setSensed.tryEndStart := by simp [State.sensed, ha, hm, hs]
        rw [he] at hexec
        have hback : s.setSensed.backup = s.backup := by simp
        refine ⟨_, hexec, by simp, by simp, fun _ cause hd => ?_, fun _ hd => ?_, fun _ cause hd => ?_⟩
        · have ht : s.setSensed.tryEndStart = s.setSensed := by simp [State.tryEndStart, hd]
          rw [ht]
          exact ⟨h4, h3⟩
        · have ht : s.setSensed.tryEndStart = s.setSensed := by
            unfold State.tryEndStart
            split
            · next c h => exact absurd (hback ▸ h) (hd c)
            · rfl
          rw [ht]
          exact ⟨h1, h2⟩
        · have ht : s.setSensed.tryEndStart = s.setSensed.finishStart := by simp [State.tryEndStart, hd, hsens]
          rw [ht]
          obtain ⟨f1, f2, f3, f4, f5, f6, f7, f8, f9⟩ := s.setSensed.finishStart_spec (by simpa [State.mains] using hm)
          refine ⟨by simp [State.running, f1], f2.trans hsens, f3, f4, f5, f6, f7, by simpa using f8, ?_⟩
          simpa [State.clock] using f9
  · exact congrArg Host.Outcome.next (if_pos (by rcases hp with hp | hp <;> simp [hs, hp]))
  · exact congrArg Host.Outcome.next (if_neg (by simp [h1, h2]))

end

section
/-! The slow scan: its averages and judgements (O56). -/

namespace Sys2Proof.Machine

variable {s t x y : State}

/-! ### Scan values and levels (R130 to R135) -/

theorem badCode_iff (x : Nat) : badCode x = true ↔ x ≤ 3 ∨ 1020 ≤ x := by simp [badCode]

theorem Sensor.scan_spec (table : List (Nat × Int)) (x : Nat) (y : Sensor) :
    (x ≤ 3 ∨ 1020 ≤ x → y.scan table x = { y with faulty := true }) ∧
      (3 < x → x < 1020 → y.faulty = true → y.scan table x = y) ∧
      (3 < x → x < 1020 → y.faulty = false → y.scan table x = { y with temperature := some (temperatureOf table x) }) := by
  have good : 3 < x → x < 1020 → badCode x = false := fun h1 h2 => Bool.eq_false_iff.2 fun h => by
    have := (badCode_iff x).1 h
    omega
  refine ⟨fun h => if_pos ((badCode_iff x).2 h), fun h1 h2 h3 => ?_, fun h1 h2 h3 => ?_⟩
  · simp [Sensor.scan, good h1 h2, h3]
  · simp [Sensor.scan, good h1 h2, h3]

theorem heatJudged_iff (temps : List Int) (level : Int) (hysteresis : Nat) :
    (heatJudged false temps level hysteresis = true ↔ ∃ x ∈ temps, level ≤ x) ∧
      (heatJudged true temps level hysteresis = false ↔ ∀ x ∈ temps, x < level - hysteresis) := by
  simp [heatJudged]

theorem cellJudged_iff (mv threshold : Nat) :
    (cellJudged false mv threshold = true ↔ mv < threshold) ∧ (cellJudged true mv threshold = false ↔ threshold + 100 ≤ mv) := by
  simp [cellJudged]

theorem foldl_max_spec (rest : List Int) : ∀ a, rest.foldl max a ∈ a :: rest ∧ ∀ y ∈ a :: rest, y ≤ rest.foldl max a := by
  induction rest with
  | nil => simp
  | cons b rest ih =>
    intro a
    obtain ⟨hmem, hle⟩ := ih (max a b)
    have htop : max a b ≤ rest.foldl max (max a b) := hle _ (by simp)
    refine ⟨?_, ?_⟩
    · rw [List.foldl_cons]
      rcases List.mem_cons.1 hmem with h | h
      · rw [h]
        rcases max_choice a b with h' | h' <;> simp [h']
      · simp [h]
    · intro y hy
      rw [List.foldl_cons]
      rcases List.mem_cons.1 hy with rfl | hy
      · exact (le_max_left _ _).trans htop
      · rcases List.mem_cons.1 hy with rfl | hy
        · exact (le_max_right _ _).trans htop
        · exact hle y (List.mem_cons_of_mem _ hy)

theorem hottest_spec {temps : List Int} (h : temps ≠ []) : hottest temps ∈ temps ∧ ∀ y ∈ temps, y ≤ hottest temps := by
  cases temps with
  | nil => exact absurd rfl h
  | cons a rest => exact foldl_max_spec rest a

/-! ### The judgements of a scan, one by one -/

theorem State.raiseFault_keeps_mem (s : State) (f : FaultKind) {g : FaultKind} (h : g ∈ s.life.faults) : g ∈ (s.raiseFault f).life.faults := by
  rw [State.raiseFault_life]
  split
  · exact h
  · simp [h]

theorem State.endFault_keeps_mem (s : State) (f : FaultKind) {g : FaultKind} (hg : g ≠ f) (h : g ∈ s.life.faults) :
    g ∈ (s.endFault f).life.faults := by
  rw [State.endFault_life]
  split
  · simp [h, hg]
  · exact h

theorem State.scanSensors_spec (s : State) (x1 x2 vbk : Nat) :
    (s.scanSensors x1 x2 vbk).sup = { s.sup with
        sensor1 := s.sup.sensor1.scan s.config.thermal.table x1, sensor2 := s.sup.sensor2.scan s.config.thermal.table x2
        cell := some (cellVoltage vbk) } ∧
      State.agreeBut [.sup, .life, .link] s (s.scanSensors x1 x2 vbk) ∧
      (s.sup.anyFaulty = false → (s.scanSensors x1 x2 vbk).sup.anyFaulty = true →
        .sensorFault ∈ (s.scanSensors x1 x2 vbk).life.faults) := by
  unfold State.scanSensors
  dsimp only
  split
  · exact ⟨by simp, by simp [State.agreeBut_iff], fun _ _ => State.raiseFault_mem _ _⟩
  · next h =>
    refine ⟨rfl, by simp [State.agreeBut_iff], fun h1 h2 => absurd ?_ h⟩
    simp only [h1]
    exact h2

/-- What OVERHEAT is judged to be. -/
def State.overheatNow (s : State) : Bool :=
  heatJudged s.sup.overheat s.sup.goodTemps s.config.thermal.alarm s.config.thermal.hysteresis

theorem State.judgeOverheat_spec (s : State) : s.judgeOverheat.sup = { s.sup with overheat := s.overheatNow } ∧
    State.agreeBut [.store, .sup, .tam, .link] s s.judgeOverheat ∧ s.sameRecords s.judgeOverheat ∧
    (s.sup.overheat = false → s.overheatNow = true → (s.policy .overheat).detect = true →
      ∃ slot, s.judgeOverheat.tam.evidence.log.getLast? = some { blankRecord .overheat .active s.time with
        number := s.tam.evidence.next, slot := slot, value := some (hottest s.sup.goodTemps) }) := by
  refine ⟨?_, ?_, ?_, fun ho hn hd => ?_⟩
  · unfold State.judgeOverheat
    dsimp only
    (repeat' split) <;> simp [State.overheatNow]
  · unfold State.judgeOverheat
    dsimp only
    (repeat' split) <;> simp [State.agreeBut_iff]
  · unfold State.judgeOverheat
    dsimp only
    (repeat' split) <;> simp [State.sameRecords]
  · have he : s.judgeOverheat = (s.onSup fun u => { u with overheat := s.overheatNow }).followOnset .overheat
        (some (hottest s.sup.goodTemps)) := if_pos (Bool.and_eq_true_iff.2 ⟨by simp [ho], hn⟩)
    rw [he]
    exact (s.onSup fun u => { u with overheat := s.overheatNow }).followOnset_last .overheat _ hd

/-- What THERMAL is judged to be. -/
def State.thermalNow (s : State) : Bool :=
  heatJudged s.sup.thermal s.sup.goodTemps s.config.thermal.trip s.config.thermal.hysteresis

theorem State.judgeThermal_spec (s : State) : s.judgeThermal.sup = { s.sup with thermal := s.thermalNow, scanned := true } ∧
    State.agreeBut [.store, .sw, .sup, .tam, .link] s s.judgeThermal ∧ s.sameRecords s.judgeThermal ∧
    s.onlySuspends s.judgeThermal ∧
    (s.thermalNow ≠ s.sup.thermal ∨ s.sup.scanned = false → s.judgeThermal.sw.record.holds.thermal = s.thermalNow) ∧
    (s.thermalNow = s.sup.thermal → s.sup.scanned = true → s.judgeThermal.sw = s.sw) := by
  have he : s.judgeThermal = if (s.thermalNow != s.sup.thermal || !s.sup.scanned) = true then
      (s.onSup fun u => { u with thermal := s.thermalNow, scanned := true }).handHold .thermal s.thermalNow
      else s.onSup fun u => { u with thermal := s.thermalNow, scanned := true } := rfl
  rw [he]
  split
  · next h =>
    refine ⟨by simp, by simp [State.agreeBut_iff], by simp [State.sameRecords], ?_, fun _ => ?_, fun h1 h2 => ?_⟩
    · exact (s.onSup fun u => { u with thermal := s.thermalNow, scanned := true }).handHold_onlySuspends .thermal _
    · exact State.handHold_has (s := s.onSup fun u => { u with thermal := s.thermalNow, scanned := true }) .thermal _
        (by simp [Hold.notInCommissioning])
    · simp [h1, h2] at h
  · next h =>
    refine ⟨rfl, by simp [State.agreeBut_iff], ⟨rfl, rfl, rfl⟩, rfl, fun h1 => absurd ?_ h, fun _ _ => rfl⟩
    rcases h1 with h1 | h1 <;> simp [h1]

/-- What BACKUP-LOW is judged to be. -/
def State.cellNow (s : State) : Bool := cellJudged s.sup.backupLow (s.sup.cell.getD 0) s.config.thermal.backup

theorem State.judgeCell_spec (s : State) : s.judgeCell.sup = { s.sup with backupLow := s.cellNow } ∧
    State.agreeBut [.sup, .life, .link] s s.judgeCell ∧
    (.sensorFault ∈ s.life.faults → .sensorFault ∈ s.judgeCell.life.faults) ∧
    (s.sup.backupLow = false → s.cellNow = true → .backupLow ∈ s.judgeCell.life.faults) ∧
    (s.sup.backupLow = true → s.cellNow = false → .backupLow ∉ s.judgeCell.life.faults) := by
  have he : s.judgeCell = if (s.cellNow && !s.sup.backupLow) = true then
      (s.onSup fun u => { u with backupLow := s.cellNow }).raiseFault .backupLow
      else if (s.sup.backupLow && !s.cellNow) = true then (s.onSup fun u => { u with backupLow := s.cellNow }).endFault .backupLow
      else s.onSup fun u => { u with backupLow := s.cellNow } := rfl
  rw [he]
  split
  · next h =>
    rw [Bool.and_eq_true, Bool.not_eq_true'] at h
    refine ⟨by simp, by simp [State.agreeBut_iff], fun hm => State.raiseFault_keeps_mem _ _ hm, fun _ _ => State.raiseFault_mem _ _,
      fun h1 => ?_⟩
    simp [h1] at h
  · next h =>
    split
    · next h' =>
      refine ⟨by simp, by simp [State.agreeBut_iff], fun hm => State.endFault_keeps_mem _ _ (by decide) hm, fun h1 h2 => ?_,
        fun _ _ => State.endFault_not_mem _ _⟩
      simp [h1, h2] at h
    · next h' =>
      refine ⟨rfl, by simp [State.agreeBut_iff], id, fun h1 h2 => ?_, fun h1 h2 => ?_⟩
      · simp [h1, h2] at h
      · simp [h1, h2] at h'

end Sys2Proof.Machine
end

section
open Sys2Proof Sys2Proof.Machine

/-- Settles O56: each judgement of the scan keeps what the ones before it have left. -/
theorem slowScanJudges : Obligations.SlowScanJudges := by
  intro ts1 ts2 vbk s hr hm n h1 h2 h3
  have hexec : exec (.slowScan ts1 ts2 vbk) s = .next
      (((s.scanSensors (scanValue n ts1) (scanValue n ts2) (scanValue n vbk)).judgeOverheat).judgeThermal).judgeCell := by
    refine congrArg Host.Outcome.next (if_pos ?_)
    have e1 : decide (2 ^ n ≤ ts1.length) = true := decide_eq_true h1
    have e2 : decide (2 ^ n ≤ ts2.length) = true := decide_eq_true h2
    have e3 : decide (2 ^ n ≤ vbk.length) = true := decide_eq_true h3
    rw [hr, hm]
    exact Bool.and_eq_true_iff.2 ⟨Bool.and_eq_true_iff.2 ⟨e1, e2⟩, e3⟩
  obtain ⟨a1, a2, a3⟩ := s.scanSensors_spec (scanValue n ts1) (scanValue n ts2) (scanValue n vbk)
  generalize s.scanSensors (scanValue n ts1) (scanValue n ts2) (scanValue n vbk) = a at *
  obtain ⟨b1, b2, b3, b4⟩ := a.judgeOverheat_spec
  have hastore : a.store = s.store := a2 .store (by decide)
  have hconf : a.config = s.config := State.config_congr (congrArg Store.recs hastore) (congrArg Store.unsound hastore)
  have hover : a.overheatNow = heatJudged s.sup.overheat a.judgeOverheat.sup.goodTemps s.config.thermal.alarm s.config.thermal.hysteresis := by
    rw [State.overheatNow, b1, a1, hconf]
    rfl
  have htemps : a.judgeOverheat.sup.goodTemps = a.sup.goodTemps := by rw [b1]; rfl
  generalize a.judgeOverheat = b at *
  obtain ⟨c1, c2, c3, c4, c5, c6⟩ := b.judgeThermal_spec
  have hab : State.sameRecords s b := by
    simpa [State.sameRecords, hastore] using b3
  have hthermal : b.thermalNow = heatJudged s.sup.thermal b.sup.goodTemps s.config.thermal.trip s.config.thermal.hysteresis := by
    rw [State.thermalNow, State.config_congr hab.1 hab.2.2, b1, a1]
  generalize b.judgeThermal = c at *
  obtain ⟨d1, d2, d3, d4, d5⟩ := c.judgeCell_spec
  have hac : State.sameRecords s c := ⟨c3.1.trans hab.1, c3.2.1.trans hab.2.1, c3.2.2.trans hab.2.2⟩
  have hcell : c.cellNow = cellJudged s.sup.backupLow (scanValue n vbk * 3300 / 1023) s.config.thermal.backup := by
    rw [State.cellNow, State.config_congr hac.1 hac.2.2, c1, b1, a1]
    rfl
  have hlow : c.sup.backupLow = s.sup.backupLow := by rw [c1, b1, a1]
  generalize c.judgeCell = t at *
  have hstore : t.store = c.store := d2 .store (by decide)
  have hsw : t.sw = c.sw := d2 .sw (by decide)
  have htam : t.tam = { b.tam with suspended := c.tam.suspended } := (d2 .tam (by decide)).trans c4
  have hbsw : b.sw = s.sw := (b2 .sw (by decide)).trans (a2 .sw (by decide))
  have hblife : c.life = a.life := (c2 .life (by decide)).trans (b2 .life (by decide))
  have htgood : t.sup.goodTemps = b.sup.goodTemps := by rw [d1, c1]; rfl
  refine ⟨t, hexec, ((a2.trans b2).trans (c2.trans d2)).mono (by decide), by rw [State.sameRecords, hstore]; exact hac, ?_⟩
  intro mean judged temps mv thermal
  have htemps' : temps = b.sup.goodTemps := htgood
  have e1 : t.sup.sensor1 = s.sup.sensor1.scan s.config.thermal.table (mean ts1) := by rw [d1, c1, b1, a1]; rfl
  have e2 : t.sup.sensor2 = s.sup.sensor2.scan s.config.thermal.table (mean ts2) := by rw [d1, c1, b1, a1]; rfl
  have eo : t.sup.overheat = heatJudged s.sup.overheat temps s.config.thermal.alarm s.config.thermal.hysteresis := by
    rw [htemps', ← hover, d1, c1, b1]
  have et : t.sup.thermal = heatJudged s.sup.thermal temps s.config.thermal.trip s.config.thermal.hysteresis := by
    rw [htemps', ← hthermal, d1, c1]
  have ec : t.sup.backupLow = cellJudged s.sup.backupLow mv s.config.thermal.backup := by
    rw [d1]
    exact hcell
  have hnow : b.thermalNow = t.sup.thermal := by rw [d1, c1]
  have hbt : b.sup.thermal = s.sup.thermal ∧ b.sup.scanned = s.sup.scanned := by rw [b1, a1]; exact ⟨rfl, rfl⟩
  obtain ⟨hbt1, hbt2⟩ := hbt
  obtain ⟨o1, o2⟩ := heatJudged_iff temps s.config.thermal.alarm s.config.thermal.hysteresis
  obtain ⟨t1, t2⟩ := heatJudged_iff temps s.config.thermal.trip s.config.thermal.hysteresis
  obtain ⟨l1, l2⟩ := cellJudged_iff mv s.config.thermal.backup
  refine ⟨e1 ▸ Sensor.scan_spec _ _ _, e2 ▸ Sensor.scan_spec _ _ _, fun h1 h2 => ?_, ?_, ?_, ?_, ?_, fun h => ?_, fun h => ?_,
    fun h1 h2 h3 => ?_, fun h => ?_, fun h => ?_, fun h => ?_, fun h1 h2 => ?_, fun h => ⟨?_, fun h' => ?_⟩, fun h => ⟨?_, fun h' => ?_⟩⟩
  · refine d3 (hblife ▸ a3 h1 ?_)
    have he : t.sup.anyFaulty = a.sup.anyFaulty := by rw [d1, c1, b1]; rfl
    exact he ▸ h2
  · rw [d1, c1, b1, a1]; rfl
  · rw [d1, c1]
  · rw [d1, c1, b1, a1]
  · rw [d1, c1, b1, a1]
  · rw [eo, h]
    exact o1
  · rw [eo, h]
    exact o2
  · have hao : a.sup.overheat = false := by rw [a1]; exact h1
    have hne : temps ≠ [] := fun h => by
      rw [eo, h1, h] at h2
      exact absurd h2 (by simp [heatJudged])
    obtain ⟨m1, m2⟩ := hottest_spec hne
    obtain ⟨slot, hlast⟩ := b4 hao (by rw [hover, ← htemps', ← eo]; exact h2)
      (by rw [State.policy_congr (congrArg Store.recs hastore) (congrArg Store.unsound hastore)]; exact h3)
    refine ⟨slot, hottest temps, m1, m2, ?_⟩
    have hatam : a.tam = s.tam := a2 .tam (by decide)
    rw [htam, htemps', htemps]
    rw [hatam, State.time_congr (a2 .backup (by decide))] at hlast
    exact hlast
  · rw [et, h]
    exact t1
  · rw [et, h]
    exact t2
  · rw [hsw, ← hnow]
    exact c5 (by rw [hnow, hbt1, hbt2]; exact h)
  · rw [hsw, ← hbsw]
    exact c6 (by rw [hnow, hbt1]; exact h1) (hbt2.trans h2)
  · rw [ec, h]
    exact l1
  · exact d4 (hlow.trans h) (by rw [d1] at h'; exact h')
  · rw [ec, h]
    exact l2
  · exact d5 (hlow.trans h) (by rw [d1] at h'; exact h')

end

section
/-! What completed code writes bring about (O50), refuted. -/

namespace Sys2Proof.Machine

/-- The write of an accepted CLEAR-TAMPER code that carries a configuration record with no policy at all, which no write of that
purpose the durable store starts does. -/
def clearingWithConfig : Write :=
  ⟨.clearTamper [.magnet] 9 none .absent, [.config { ConfigRec.shipped with tamper := [] }]⟩

/-- A part in service with that write in flight and no notice pending. -/
def clearingInFlight : State :=
  { State.reset with
    backup := { State.reset.backup with power := .mains, limitExpired := false, domain := .running }
    store := { State.reset.store with flight := [clearingWithConfig] }
    life := { State.reset.life with state := .inService } }

end Sys2Proof.Machine
end

section
open Sys2Proof Sys2Proof.Machine

/-- Refutes O50: it asks for the EVIDENCE notices of the policy in force before the completion, but of any state, and a write in
flight may carry a configuration record, whose policy is the one in force when the notices are made. -/
theorem not_codeWritesTakeEffect : ¬ Obligations.CodeWritesTakeEffect := by
  intro h
  obtain ⟨t, hexec, -, -, -, -, -, hclear⟩ := h.1 clearingInFlight clearingWithConfig [] rfl rfl
  obtain ⟨-, -, -, -, -, hnotify, -⟩ := hclear [.magnet] 9 none .absent rfl
  have hpending : Notice.evidence ∈ t.link.notices := hnotify .magnet (by decide) (by decide +kernel)
  have hquiet : ∀ u, exec .codeAcceptWriteComplete clearingInFlight = .next u → Notice.evidence ∉ u.link.notices := by
    have he : exec .codeAcceptWriteComplete clearingInFlight =
        .next (clearingInFlight.complete Purpose.isAcceptance acceptWritten) := rfl
    rw [he]
    rintro u ⟨⟩
    decide +kernel
  exact hquiet t hexec hpending

end

section
/-! Entry into service (O44). -/

namespace Sys2Proof.Machine

variable {s t x y : State}

/-! ### The examination (R180) -/

theorem Tamper.latchingCondition_iff (t : Tamper) : t.latchingCondition = true ↔ allClasses.any t.condition = true := by
  simp [Tamper.latchingCondition, allClasses, Tamper.condition, or_assoc]

theorem State.takeCommission_spec (s : State) :
    State.agreeBut [.reg, .sup, .code, .acct, .tam, .link] s s.takeCommission ∧ s.takeCommission.reg = { s.reg with acc := .zero } ∧
      s.takeCommission.sup = { s.sup with overCount := 0 } ∧
      s.takeCommission.code = { s.code with digits := [], pauseRunning := false } ∧
      s.takeCommission.acct = { s.acct with queue := s.acct.queue ++ [.entry] } ∧
      s.takeCommission.tam = { s.tam with entryHold := true } ∧ s.takeCommission.link = s.link.atStage .waiting := by
  refine ⟨?_, rfl, rfl, rfl, rfl, rfl, rfl⟩
  rw [State.agreeBut_iff]
  exact ⟨fun _ => rfl, fun _ => rfl, fun _ => rfl, by simp, fun _ => rfl, by simp, by simp, fun _ => rfl, by simp, by simp,
    fun _ => rfl, by simp, fun _ => rfl⟩

/-! ### What an entry write carries and stores (R72, R165) -/

/-- With nothing under way the entry write starts as it is asked for. -/
theorem State.takeInto_entry_starts (h : s.mayTake = true) (rest : List Entry) (hf : s.store.flight = []) (hw : s.store.waiting = []) :
    ∃ v, (s.takeInto rest .entry).store.flight = [⟨.entry, v⟩] ∧ Purpose.carries s v .entry := by
  have hm := State.mains_of_mayTake h
  have hh := s.mains_not_holdup hm
  let y := s.onAcct fun a => { a.clearPending with queue := rest }
  have hreq : s.takeInto rest .entry = (y.onStore fun st => { st with waiting := [.entry] }).pump := by
    unfold State.takeInto State.request
    rw [if_neg (by simpa [State.holdup] using fun h' => absurd h' (by simpa [State.holdup] using hh))]
    simp only [State.onStore, State.onAcct, hw, y]
    rfl
  rw [hreq, State.pump_starts (y.onStore fun st => { st with waiting := [.entry] }) .entry [] hm hf rfl]
  refine ⟨_, rfl, ?_⟩
  have hp : Purpose.puts (y.onStore fun st => { st with waiting := [.entry] }) .entry = Purpose.puts s .entry := rfl
  rw [hp]
  exact Purpose.carries_puts s .entry

/-- What has been stored once an entry write completes. -/
theorem State.entryStores_stored (s u : State) (w : Write) (rest : List Write) (h : Purpose.carries u w.puts .entry) :
    u.entryStores (s.stored w rest).store.recs ∧ (s.stored w rest).store.recs = { (s.stored w rest).store.recs with
      config := s.store.recs.config, identity := s.store.recs.identity, tariff := s.store.recs.tariff
      switch := s.store.recs.switch, residue := s.store.recs.residue } := by
  obtain ⟨r, hputs, hr⟩ := h
  have hrecs : (s.stored w rest).store.recs = w.puts.foldl Records.put s.store.recs := rfl
  rw [hrecs, hputs]
  exact ⟨hr, rfl⟩

/-! ### The arrivals held back (R156, R181) -/

theorem State.takeArrival_holds (s : State) (a : Arrival) {k : Hold} (hk : k ≠ .tamper) :
    (s.takeArrival a).sw.record.holds.has k = s.sw.record.holds.has k := by
  have judged : ∀ x : State, x.judgeTamper.sw.record.holds.has k = x.sw.record.holds.has k := fun x => by
    unfold State.judgeTamper
    split
    · exact (x.handHold_switch .tamper x.tamperDue).2.2.2.2 k hk
    · rfl
  unfold State.takeArrival State.recordOnset State.recordEnd State.recordExcused
  (repeat' split) <;> simp [judged]

theorem State.takeArrival_tam (s : State) (a : Arrival) : (s.takeArrival a).tam.clearing = s.tam.clearing ∧
    (s.takeArrival a).tam.entryHold = s.tam.entryHold ∧ (s.takeArrival a).tam.heldBack = s.tam.heldBack := by
  unfold State.takeArrival State.recordOnset State.recordEnd State.recordExcused
  (repeat' split) <;> simp [State.editLog, State.appendRecord]

theorem State.countTaken_sw (s : State) (a : Arrival) : (s.countTaken a).sw = s.sw := by
  unfold State.countTaken
  split <;> rfl

/-- What is taken one arrival after another and each arrival keeps is kept. -/
theorem foldl_taken {P : State → Prop} (hP : ∀ x a, P x → P ((x.countTaken a).takeArrival a)) (l : List Arrival) (x : State) (h : P x) :
    P (l.foldl (fun x a => (x.countTaken a).takeArrival a) x) := by
  induction l generalizing x with
  | nil => exact h
  | cons a l ih => exact ih _ (hP x a h)

theorem State.releaseHeld_spec (s : State) : s.releaseHeld.tam.clearing = [] ∧ s.releaseHeld.tam.entryHold = false ∧
    s.releaseHeld.tam.heldBack = [] ∧ ∀ k, k ≠ .tamper → s.releaseHeld.sw.record.holds.has k = s.sw.record.holds.has k := by
  refine foldl_taken (P := fun x => x.tam.clearing = [] ∧ x.tam.entryHold = false ∧ x.tam.heldBack = [] ∧
    ∀ k, k ≠ .tamper → x.sw.record.holds.has k = s.sw.record.holds.has k) (fun x a h => ?_) s.tam.heldBack
    (s.onTam fun t => { t with clearing := [], entryHold := false, heldBack := [] }) ⟨rfl, rfl, rfl, fun _ _ => rfl⟩
  obtain ⟨h1, h2, h3, h4⟩ := h
  obtain ⟨t1, t2, t3⟩ := (x.countTaken a).takeArrival_tam a
  rw [State.countTaken_tam] at t1 t2 t3
  refine ⟨t1.trans h1, t2.trans h2, t3.trans h3, fun k hk => ?_⟩
  rw [State.takeArrival_holds _ a hk, State.countTaken_sw]
  exact h4 k hk

theorem State.releaseHeld_none (h : s.tam.heldBack = []) :
    s.releaseHeld = s.onTam fun t => { t with clearing := [], entryHold := false, heldBack := [] } := by
  rw [State.releaseHeld, h, List.foldl_nil]

/-! ### Its completion (R181) -/

theorem State.notifyAll_tam (l : List EvRecord) (x : State) : (l.foldl (fun x r => x.notifyEvidence r.cls) x).tam = x.tam := by
  induction l generalizing x with
  | nil => rfl
  | cons r l ih => exact (ih _).trans (by simp)

theorem State.tamperEntry_tam (s : State) : s.tamperEntry.tam = { s.tam with evidence := s.entryEvidence, slots := s.entrySlots } := by
  refine (State.notifyAll_tam _ _).trans ?_
  let z := s.onTam fun t => { t with evidence := s.entryEvidence, slots := s.entrySlots }
  change (if (s.entryEvidence != s.store.recs.evidence || s.entrySlots != s.store.recs.snapshot) = true then
    z.request (.evidenceLog (s.entryEvidence != s.store.recs.evidence) (s.entrySlots != s.store.recs.snapshot)) else z).tam = z.tam
  split
  · simp
  · rfl

/-- The log that entry into service leaves holds ACTIVE records alone. -/
theorem State.entryEvidence_active (s : State) : ∀ r ∈ s.entryEvidence.log, r.state = .active := by
  have hnow : ∀ r ∈ s.entryLog.1.log, r.state = .active := by
    obtain ⟨-, h2, -⟩ := appendAgain_spec s.time (fun c => (s.policy c).snapshot && c.snapshotable) s.reg.trace 1 0
      (s.tam.evidence.log.filter fun x => x.state = .active)
    intro r hr
    have hmem : r.state ∈ (s.tam.evidence.log.filter fun x => x.state = .active).map EvRecord.state :=
      h2 ▸ List.mem_map_of_mem hr
    obtain ⟨y, hy, hyr⟩ := List.mem_map.1 hmem
    rw [← hyr]
    simpa using (List.mem_filter.1 hy).2
  unfold State.entryEvidence
  split
  · next h =>
    simp only [Bool.and_eq_true, decide_eq_true_eq] at h
    intro r hr
    have hmem : r.untimed ∈ s.entryLog.1.log.map EvRecord.untimed := h.1 ▸ List.mem_map_of_mem hr
    obtain ⟨y, hy, hyr⟩ := List.mem_map.1 hmem
    exact (congrArg EvRecord.state hyr).symm.trans (hnow y hy)
  · exact hnow

/-- The tamper unit's part of the entry, and the life state with its notice. -/
def State.entersService (s : State) : State :=
  (((s.onSup fun u => { u with supply := { u.supply with trips := [], backoff := none } }).tamperEntry).onLife
    fun v => { v with state := .inService, window := none }).pend .life

/-- The holds handed over at entry, and the arrivals that were held back. -/
def State.entryHandsOver (s : State) : State := (((s.creditTest true).handHold .load false).judgeTamper).releaseHeld

theorem entryWritten_eq (w : Write) (s : State) : entryWritten w s =
    if s.entersService.entryHandsOver.awaits 0x29 then
      s.entersService.entryHandsOver.answer .ok s.entersService.entryHandsOver.commissionBody
    else s.entersService.entryHandsOver := rfl

theorem State.entersService_spec (s : State) : State.agreeBut [.store, .sup, .tam, .life, .link] s s.entersService ∧
    s.sameRecords s.entersService ∧ s.entersService.life = { s.life with state := .inService, window := none } ∧
    s.entersService.sup = { s.sup with supply := { s.sup.supply with trips := [], backoff := none } } ∧
    (∀ r ∈ s.entersService.tam.evidence.log, r.state = .active) ∧ s.entersService.tam.heldBack = s.tam.heldBack ∧
    .life ∈ s.entersService.link.notices := by
  let z := s.onSup fun u => { u with supply := { u.supply with trips := [], backoff := none } }
  have ht : s.entersService.tam = { z.tam with evidence := z.entryEvidence, slots := z.entrySlots } := z.tamperEntry_tam
  refine ⟨by simp [State.agreeBut_iff, State.entersService], by simp [State.sameRecords, State.entersService],
    by simp [State.entersService], by simp [State.entersService], ?_, ?_, State.pend_mem _ _⟩
  · rw [ht]
    exact z.entryEvidence_active
  · rw [ht]
    rfl

theorem State.entryHandsOver_spec (s : State) (hi : s.life.state = .inService) :
    State.agreeBut [.backup, .store, .acct, .sw, .tam, .link] s s.entryHandsOver ∧ s.sameRecords s.entryHandsOver ∧
      (s.holdup = false → s.entryHandsOver.backup = s.backup) ∧
      (s.tam.heldBack = [] → s.entryHandsOver.tam.evidence = s.tam.evidence) ∧
      s.entryHandsOver.sw.record.holds.load = false ∧ s.entryHandsOver.sw.record.holds.remote = s.sw.record.holds.remote ∧
      s.entryHandsOver.sw.record.holds.thermal = s.sw.record.holds.thermal ∧ s.entryHandsOver.tam.entryHold = false ∧
      s.entryHandsOver.tam.heldBack = [] ∧
      (s.sound .account = true → .credit ∈ s.entryHandsOver.link.notices ∧
        s.entryHandsOver.sw.record.holds.credit = s.creditDue) := by
  generalize hc : s.creditTest true = c
  generalize hd : (c.handHold .load false).judgeTamper = d
  have hs : s.entryHandsOver = d.releaseHeld := by rw [← hd, ← hc]; rfl
  have hlife : c.life = s.life := by rw [← hc]; simp
  have htam : s.onlySuspends d := by
    rw [← hd, ← hc]
    refine (s.creditTest_onlySuspends true).trans ((State.handHold_onlySuspends _ .load false).trans
      (State.onlySuspends_of (by simp)))
  have hdc : ∀ k, k ≠ .load → k ≠ .tamper → d.sw.record.holds.has k = c.sw.record.holds.has k := fun k hl ht => by
    rw [← hd]
    have h1 := (c.handHold_switch .load false).2.2.2.2 k hl
    have h2 : (c.handHold .load false).judgeTamper.sw.record.holds.has k = (c.handHold .load false).sw.record.holds.has k := by
      unfold State.judgeTamper
      split
      · exact (State.handHold_switch _ _ _).2.2.2.2 k ht
      · rfl
    exact h2.trans h1
  have hcs : ∀ k, k ≠ .credit → c.sw.record.holds.has k = s.sw.record.holds.has k := fun k hk => by
    rw [← hc]
    unfold State.creditTest
    split
    · rfl
    · rw [(State.judgeCondition_frame _ _).2.2.2.2.2.2.1]
      split
      · exact (State.handHold_switch _ _ _).2.2.2.2 k hk
      · rfl
  obtain ⟨r1, r2, r3, r4⟩ := d.releaseHeld_spec
  rw [hs]
  refine ⟨?_, ?_, fun hh => ?_, fun hb => ?_, ?_, ?_, ?_, r2, r3, fun hsound => ?_⟩
  · rw [← hd, ← hc]
    simp [State.agreeBut_iff]
  · rw [← hd, ← hc]
    simp [State.sameRecords]
  · have hback : d.backup = s.backup := by rw [← hd, ← hc]; simp
    rw [d.releaseHeld_mains (by simpa [State.holdup, hback] using hh), hback]
  · have hheld : d.tam.heldBack = s.tam.heldBack := (congrArg Tamper.heldBack htam :)
    rw [State.releaseHeld_none (hheld.trans hb)]
    exact (congrArg Tamper.evidence htam :)
  · refine (r4 .load (by decide)).trans ?_
    rw [← hd]
    exact State.judgeTamper_load _ |>.1.trans (State.handHold_has _ .load false (by simp))
  · exact (r4 .remote (by decide)).trans ((hdc .remote (by decide) (by decide)).trans (hcs .remote (by decide)))
  · exact (r4 .thermal (by decide)).trans ((hdc .thermal (by decide) (by decide)).trans (hcs .thermal (by decide)))
  · obtain ⟨c1, -, -, -, c5⟩ := s.creditTest_spec true hsound (.inr rfl)
    refine ⟨?_, ?_⟩
    · have hon : c.Onward d.releaseHeld := by
        rw [← hd]
        exact State.releaseHeld_onward (State.judgeTamper_onward (State.handHold_onward (.refl c) _ _))
      exact hon.notices _ (hc ▸ c5 (.inr rfl))
    · refine (r4 .credit (by decide)).trans ((hdc .credit (by decide) (by decide)).trans ?_)
      rw [← hc]
      exact c1 (by simp [State.inService, hi])

end Sys2Proof.Machine
end

section
open Sys2Proof Sys2Proof.Machine

/-- Settles O44: the examination by its steps, the write as it starts, and its completion. -/
theorem entryIntoService : Obligations.EntryIntoService := by
  refine ⟨fun s hx => ?_, fun s rest h hq hf hw => ?_, fun s w rest hc hl => ?_⟩
  · refine ⟨s.examineCommission, congrArg Host.Outcome.next (State.onRequest_examines s _ hx), ?_⟩
    unfold State.examineCommission
    by_cases h1 : s.life.state ≠ .commissioning
    · rw [if_pos h1, if_pos h1]
      exact s.answer_onlyReplied _ _
    rw [if_neg h1, if_neg h1]
    by_cases h2 : s.holdup = true
    · rw [if_pos h2, if_pos h2]
      exact s.answer_onlyReplied _ _
    rw [if_neg h2, if_neg h2]
    have hcomplete := s.store.recs.config.complete_iff
    by_cases h3 : s.store.recs.identity.installed = false
    · rw [if_pos (.inl h3), if_pos (show (!s.store.recs.identity.installed) = true by simpa using h3)]
      exact s.answer_onlyReplied _ _
    by_cases h4 : s.clockValid = false
    · rw [if_pos (.inr (.inl h4)), if_neg (show ¬ (!s.store.recs.identity.installed) = true by simpa using h3),
        if_pos (show (!s.clockValid) = true by simpa using h4)]
      exact s.answer_onlyReplied _ _
    by_cases h5 : s.store.recs.config.complete = true
    · have hpass : ¬ (s.store.recs.identity.installed = false ∨ s.clockValid = false ∨
          ¬ (∀ sec ∈ [ConfigSection.cal, .measure, .account, .switch, .thermal, .tamper], sec ∈ s.store.recs.config.written)) := by
        rintro (h | h | h)
        exacts [h3 h, h4 h, h (hcomplete.1 h5)]
      have e3 : ¬ (!s.store.recs.identity.installed) = true := by simpa using h3
      have e4 : ¬ (!s.clockValid) = true := by simpa using h4
      have e5 : ¬ (!s.store.recs.config.complete) = true := by simpa using h5
      rw [if_neg hpass, if_neg e3, if_neg e4, if_neg e5]
      by_cases h6 : s.tam.latchingCondition = true
      · rw [if_pos h6, if_pos (s.tam.latchingCondition_iff.1 h6)]
        exact s.answer_onlyReplied _ _
      · rw [if_neg h6, if_neg (mt s.tam.latchingCondition_iff.2 h6)]
        exact s.takeCommission_spec
    · rw [if_pos (.inr (.inr (mt hcomplete.2 h5))), if_neg (show ¬ (!s.store.recs.identity.installed) = true by simpa using h3),
        if_neg (show ¬ (!s.clockValid) = true by simpa using h4), if_pos (show (!s.store.recs.config.complete) = true by simpa using h5)]
      exact s.answer_onlyReplied _ _
  · obtain ⟨v, h1, h2⟩ := State.takeInto_entry_starts h rest hf hw
    exact ⟨_, v, congrArg Host.Outcome.next (State.takeEntry_head h hq), h1, h2⟩
  · have hexec : exec .entryWriteComplete s = .next (entryWritten w (s.stored w rest)).pump :=
      congrArg Host.Outcome.next (State.complete_unexpired entryWritten hc hl (by rw [entryWritten_limitExpired]; simp))
    have hx : State.agreeBut [.store] s (s.stored w rest) := by simp [State.agreeBut_iff]
    have hstored := fun u => s.entryStores_stored u w rest
    have hun : (s.stored w rest).store.unsound = s.store.unsound := by simp
    generalize s.stored w rest = x at *
    obtain ⟨e1, e2, e3, e4, e5, e6, e7⟩ := x.entersService_spec
    obtain ⟨o1, o2, o3, o4, o5, o6, o7, o8, o9, o10⟩ := x.entersService.entryHandsOver_spec (by rw [e3])
    have hf := x.entersService.entryHandsOver.concludes_answer_pump (x.entersService.entryHandsOver.awaits 0x29) .ok
      x.entersService.entryHandsOver.commissionBody
    rw [← entryWritten_eq w x] at hf
    obtain ⟨ha, hrecs, hunf, hnotices, -⟩ := hf
    have hxy : State.agreeBut [.backup, .store, .acct, .sw, .sup, .tam, .life, .link, .fresh] s (entryWritten w x).pump :=
      (hx.trans (e1.trans (o1.trans ha))).mono (by decide)
    have hsw := ha .sw (by decide)
    have htam := ha .tam (by decide)
    have hback : x.entersService.backup = s.backup := (e1 .backup (by decide)).trans (hx .backup (by decide))
    have hxsw : x.entersService.sw = s.sw := (e1 .sw (by decide)).trans (hx .sw (by decide))
    have hxrecs : (entryWritten w x).pump.store.recs = x.store.recs := hrecs.trans (o2.1.trans e2.1)
    have hxun : (entryWritten w x).pump.store.unsound = x.store.unsound := hunf.trans (o2.2.2.trans e2.2.2)
    refine ⟨_, hexec, fun u hu => ?_, hxy, fun hh => ?_, fun hb r hr => ?_, ?_, ?_, ?_, ?_, ?_, ?_, ?_, ?_, fun hsound => ?_⟩
    · rw [hxrecs]
      exact hstored u hu
    · exact (ha .backup (by decide)).trans ((o3 (by simpa [State.holdup, hback] using hh)).trans hback)
    · have hheld : x.entersService.tam.heldBack = [] := e6.trans ((congrArg Tamper.heldBack (hx .tam (by decide))).trans hb)
      refine e5 r ?_
      rw [← o4 hheld]
      exact (congrArg Tamper.evidence htam) ▸ hr
    · exact (ha .life (by decide)).trans ((o1 .life (by decide)).trans (e3.trans (by rw [hx .life (by decide)])))
    · exact (ha .sup (by decide)).trans ((o1 .sup (by decide)).trans (e4.trans (by rw [hx .sup (by decide)])))
    · rw [hsw]
      exact o5
    · rw [hsw, o6, hxsw]
    · rw [hsw, o7, hxsw]
    · rw [htam]
      exact o8
    · rw [htam]
      exact o9
    · rw [hnotices]
      exact (State.releaseHeld_onward (State.judgeTamper_onward (State.handHold_onward (State.creditTest_onward (.refl _) true)
        .load false))).notices _ e7
    · have hcred := hunf.trans (o2.2.2.trans rfl)
      obtain ⟨c1, c2⟩ := o10 (by
        have h1 : x.entersService.store.unsound = s.store.unsound := e2.2.2.trans hun
        simpa only [State.sound, h1] using hsound)
      refine ⟨hnotices ▸ c1, ?_⟩
      rw [hsw, c2]
      exact (State.creditDue_congr (hrecs.trans o2.1) hcred
        (congrArg Calendar.friendly ((ha .cal (by decide)).trans (o1 .cal (by decide))))).symm

end

section
/-! The backup domain's events (O58). -/

namespace Sys2Proof.Machine

variable {s t x y : State}

/-- Only a write of one record, cut, leaves its record failing (R168). -/
theorem mem_cutWrites (r : Record) (ws : List Write) : ∀ bad, r ∈ cutWrites bad ws ↔ r ∈ bad ∨ ∃ w ∈ ws, w.purpose.covers = [r] := by
  induction ws with
  | nil => simp [cutWrites]
  | cons w ws ih =>
    intro bad
    unfold cutWrites
    split
    · next k hk =>
      rw [ih]
      have hb : r ∈ (if bad.contains k then bad else bad ++ [k]) ↔ r ∈ bad ∨ k = r := by
        split
        · next h => exact ⟨.inl, fun h' => h'.elim id fun e => e ▸ by simpa using h⟩
        · simp [eq_comm]
      rw [hb]
      simp [hk, or_assoc]
    · next hk =>
      rw [ih]
      have hn : w.purpose.covers ≠ [r] := hk r
      simp [hn]

theorem State.toBattery_spec (s : State) : s.toBattery.backup.power = .battery ∧
    s.toBattery.backup.domain = (if s.backup.domain = .held then .held else .off) ∧ s.toBattery.backup.retained.offMark = true ∧
    s.toBattery.store.flight = [] ∧ s.toBattery.store.waiting = [] ∧ s.toBattery.acct = .begin ∧ s.toBattery.code = .begin ∧
    s.toBattery.link = .begin ∧ s.toBattery.sw.drive = .none := ⟨rfl, rfl, rfl, rfl, rfl, rfl, rfl, rfl, rfl⟩

theorem State.toBattery_covers (h : s.running = true) :
    s.toBattery.backup.retained.cover = { s.backup.retained.cover with isOpen := s.tam.coverOpen } ∧
      s.toBattery.backup.retained.term = { s.backup.retained.term with isOpen := s.tam.termOpen } := by
  have hd : s.backup.domain = .running := by
    unfold State.running at h
    simpa using h
  have hlv : s.coverLevels = (s.tam.coverOpen, s.tam.termOpen) := by
    unfold State.coverLevels
    rw [hd]
  have h1 : s.toBattery.backup.retained.cover = { s.backup.retained.cover with isOpen := s.coverLevels.1 } := rfl
  have h2 : s.toBattery.backup.retained.term = { s.backup.retained.term with isOpen := s.coverLevels.2 } := rfl
  rw [h1, h2, hlv]
  exact ⟨rfl, rfl⟩

/-- The part held by the reset line, before a switch-off that waited for the writes (R176). -/
def State.heldStill (s : State) : State := (s.absorb.loseWorking).onBackup fun b => { b with domain := .held }

theorem State.absorb_backup (s : State) : s.absorb.backup.power = s.backup.power ∧ s.absorb.clock = s.clock := by
  unfold State.absorb
  split <;> exact ⟨rfl, rfl⟩

theorem State.heldStill_spec (s : State) : s.heldStill.backup.domain = .held ∧ s.heldStill.store.recs = s.recordsAbsorbed ∧
    s.heldStill.store.flight = [] ∧ s.heldStill.store.waiting = [] ∧
    (∀ r, r ∈ s.heldStill.store.bad ↔ r ∈ s.store.bad ∧ ∀ w ∈ s.store.flight, r ∉ w.purpose.covers) ∧
    s.heldStill.acct = .begin ∧ s.heldStill.code = .begin ∧ s.heldStill.link = .begin ∧ s.heldStill.sw.drive = .none ∧
    s.heldStill.clock = s.clock ∧ s.heldStill.backup.power = s.backup.power := by
  obtain ⟨h1, h2⟩ := s.absorb_backup
  refine ⟨rfl, ?_, rfl, rfl, fun r => ?_, rfl, rfl, rfl, rfl, h2, h1⟩
  · change s.absorb.store.recs = _
    rw [State.absorb_store]
    exact Store.commit_recs_foldl s.store.flight s.store
  · change r ∈ s.absorb.store.bad ↔ _
    rw [State.absorb_store]
    exact Store.mem_commit_bad_foldl s.store.flight s.store r

theorem State.heldStill_settle (s : State) : s.heldStill.settle.backup.domain = .held ∧
    s.heldStill.settle.store.recs = s.recordsAbsorbed ∧ s.heldStill.settle.store.flight = [] ∧ s.heldStill.settle.store.waiting = [] ∧
    (∀ r, r ∈ s.heldStill.settle.store.bad ↔ r ∈ s.store.bad ∧ ∀ w ∈ s.store.flight, r ∉ w.purpose.covers) ∧
    s.heldStill.settle.acct = .begin ∧ s.heldStill.settle.code = .begin ∧ s.heldStill.settle.link = .begin ∧
    s.heldStill.settle.sw.drive = .none ∧ s.heldStill.settle.clock = s.clock ∧
    (s.backup.power = .mains → s.heldStill.settle.mains = true) := by
  obtain ⟨h1, h2, h3, h4, h5, h6, h7, h8, h9, h10, h11⟩ := s.heldStill_spec
  rcases s.heldStill.settle_cases with he | ⟨hh, he⟩
  · rw [he]
    exact ⟨h1, h2, h3, h4, h5, h6, h7, h8, h9, h10, fun hp => by simp [State.mains, h11, hp]⟩
  · obtain ⟨-, b2, b3, b4, -⟩ := s.heldStill.toBattery_keeps
    obtain ⟨-, c2, -, c4, c5, c6, c7, c8, c9⟩ := s.heldStill.toBattery_spec
    rw [he]
    refine ⟨c2.trans (if_pos h1), b2.trans h2, c4, c5, fun r => by rw [b3]; exact h5 r, c6, c7, c8, c9, b4.trans h10, fun hp => ?_⟩
    have hhold : s.heldStill.holdup = false := State.mains_not_holdup (s := s.heldStill) (by simp [State.mains, h11, hp])
    rw [hhold] at hh
    cases hh

/-- A cover slot as an edge of its input is counted on battery (R171). -/
theorem CoverSlot.seen_eq (c : CoverSlot) (isOpen : Bool) (time : Option Nat) : c.seen isOpen time =
    if isOpen = true ∧ c.isOpen = false then (⟨min 255 (c.count + 1), if c.count = 0 then time else c.first, true⟩ : CoverSlot)
    else { c with isOpen := isOpen } := by
  unfold CoverSlot.seen
  by_cases h : isOpen = true ∧ c.isOpen = false
  · rw [if_pos h, if_pos (by simp [h])]
    rfl
  · rw [if_neg h, if_neg (by simpa using h)]

end Sys2Proof.Machine
end

section
open Sys2Proof Sys2Proof.Machine

/-- Settles O58: each event by the case its power state and its domain give. -/
theorem backupDomainEvents : Obligations.BackupDomainEvents := by
  intro s
  refine ⟨fun hh hw => ?_, fun hh hf hw => ?_, fun hh => ?_, fun hb => ?_, fun hb hi isOpen => ?_, fun hd => ?_, fun hd => ?_,
    fun hm ha => ?_, fun hm => ?_, fun hl => ?_, fun hl hd => ?_⟩
  · have hnot : ¬ (s.onBackup fun b => { b with limitExpired := true }).drained = true := by
      rw [State.drained_iff]
      rintro ⟨h1, h2⟩
      rcases hw with hw | ⟨p, hp, hpp⟩
      · exact hw h1
      · exact Bool.false_ne_true ((h2 p hp).symm.trans hpp)
    refine congrArg Host.Outcome.next ?_
    rw [State.limitReached, if_pos hh, State.settle, if_neg (by simp [hnot])]
    rfl
  · have hdr : (s.onBackup fun b => { b with limitExpired := true }).drained = true := (State.drained_iff _).2 ⟨hf, hw⟩
    have hhold : (s.onBackup fun b => { b with limitExpired := true }).holdup = true := hh
    have he : exec .holdupLimitExpiry s = .next (s.onBackup fun b => { b with limitExpired := true }).toBattery := by
      refine congrArg Host.Outcome.next ?_
      rw [State.limitReached, if_pos hh, State.settle, if_pos (by simp [hdr, hhold])]
    exact ⟨_, he, rfl, rfl, rfl, rfl⟩
  · have he : exec .mainDomainLoss s = .next (s.onStore fun st => { st with bad := cutWrites st.bad st.flight }).toBattery :=
      congrArg Host.Outcome.next (if_pos hh)
    obtain ⟨c1, c2, c3, c4, c5, c6, c7, c8, -⟩ := (s.onStore fun st => { st with bad := cutWrites st.bad st.flight }).toBattery_spec
    refine ⟨_, he, c1, c2, c3, rfl, rfl, rfl, c4, c5, fun r => mem_cutWrites r s.store.flight s.store.bad, c6, c7, c8, fun hr => ?_⟩
    exact State.toBattery_covers (s := s.onStore fun st => { st with bad := cutWrites st.bad st.flight }) hr
  · exact congrArg Host.Outcome.next (if_pos hb)
  · intro counted r
    have hon : (s.backup.power = .battery && s.backup.retained.intact) = true := by simp [hb, hi]
    have hcount : ∀ c : CoverSlot, counted c = c.seen isOpen s.time := fun c => (c.seen_eq isOpen s.time).symm
    rw [hcount, hcount]
    exact ⟨congrArg Host.Outcome.next (if_pos hon), congrArg Host.Outcome.next (if_pos hon)⟩
  · have he : exec .resetAssert s = .next s.heldStill.settle := congrArg Host.Outcome.next (if_neg hd)
    exact ⟨_, he, s.heldStill_settle⟩
  · exact congrArg Host.Outcome.next (if_pos hd)
  · refine ⟨if s.backup.retained.offMark then s.backup.retained.outageStart else s.time, congrArg Host.Outcome.next ?_, rfl⟩
    rw [State.failing, if_pos hm, if_neg (by simp [ha])]
    have hret : (if s.backup.retained.offMark then s.backup.retained else { s.backup.retained with
        outageStart := if s.backup.retained.valid then some s.backup.retained.clock else none }) = { s.backup.retained with
        outageStart := if s.backup.retained.offMark then s.backup.retained.outageStart else s.time } := by
      split <;> rfl
    simp only [State.enterHoldup, State.onBackup, State.onStore, Store.dropWaiting, hret]
  · exact congrArg Host.Outcome.next (if_neg (by simp [hm]))
  · exact congrArg Host.Outcome.next (if_pos hl)
  · refine congrArg Host.Outcome.next ?_
    rw [State.supplyGood, if_neg (by simp [hl])]
    rcases hd with ⟨hd, hp⟩ | ⟨⟨cause, hd⟩, hh⟩
    · by_cases hh : s.holdup = true
      · rw [if_pos hh, hd]
        rfl
      · have hb : s.backup.power = .battery := by
          unfold State.holdup at hh
          cases hpw : s.backup.power <;> simp_all
        rw [if_neg hh, if_pos ⟨hb, hd⟩]
        rfl
    · rw [if_pos hh, hd]
      rfl

end

section
/-! The change to HOLDUP of a working part (the first half of O57). -/

namespace Sys2Proof.Machine

variable {s t x y : State}

/-! ### What the cover counts change (R171) -/

/-- Of the backup domain only the cover slots may have changed. -/
def State.onlyCounts (s t : State) : Prop :=
  t.backup = { s.backup with retained := { s.backup.retained with cover := t.backup.retained.cover, term := t.backup.retained.term } }

theorem State.onlyCounts_of (h : t.backup = s.backup) : s.onlyCounts t := by
  rw [State.onlyCounts, h]

theorem State.onlyCounts.trans (h : s.onlyCounts x) (h' : x.onlyCounts t) : s.onlyCounts t := by
  unfold State.onlyCounts at *
  rw [h', h]

theorem State.countTaken_onlyCounts (s : State) (a : Arrival) : s.onlyCounts (s.countTaken a) := by
  unfold State.countTaken
  split
  · unfold State.onlyCounts State.onBackup
    cases a.cls <;> rfl
  · rfl

theorem State.takeArrival_onlyCounts (s : State) (a : Arrival) : s.onlyCounts ((s.countTaken a).takeArrival a) :=
  (s.countTaken_onlyCounts a).trans (State.onlyCounts_of (by simp))

theorem State.releaseHeld_onlyCounts (s : State) : s.onlyCounts s.releaseHeld :=
  foldl_taken (P := s.onlyCounts) (fun x a h => h.trans (x.takeArrival_onlyCounts a)) s.tam.heldBack
    (s.onTam fun t => { t with clearing := [], entryHold := false, heldBack := [] }) rfl

theorem State.coverOnset_onlyCounts (s : State) (w : Cover) : s.onlyCounts (s.coverOnset w) := by
  unfold State.coverOnset
  dsimp only
  split
  · exact State.onlyCounts_of (by simp)
  · exact (s.countTaken_onlyCounts ⟨w.cls, true, s.time, none, none⟩).trans (State.onlyCounts_of (by simp))

theorem State.endWindow_onlyCounts (s : State) : s.onlyCounts s.endWindow := by
  have h : s.onlyCounts s.windowClosed := State.onlyCounts_of (by simp [State.windowClosed])
  rw [State.endWindow_eq]
  dsimp only
  split <;> split
  · exact h.trans ((State.coverOnset_onlyCounts _ _).trans (State.coverOnset_onlyCounts _ _))
  · exact h.trans (State.coverOnset_onlyCounts _ _)
  · exact h.trans (State.coverOnset_onlyCounts _ _)
  · exact h

/-! ### What is kept in HOLDUP -/

/-- In HOLDUP: only writes named and permitted ones are under way, an operation stands as it stood, and, once the collection has
ended, no slot collects. -/
structure State.HeldUp (named : List Purpose) (w : Switch) (ended : Prop) (x : State) : Prop where
  holdup : x.holdup = true
  flight : ∀ a ∈ x.store.flight, a.purpose ∈ named ∨ a.purpose.permittedInHoldup = true
  waiting : ∀ p ∈ x.store.waiting, p.permittedInHoldup = true
  switch : operatingState w.state → x.sw = { w with record := x.sw.record }
  slots : ended → ∀ sl, some sl ∈ x.tam.slots → sl.collecting = false

variable {named : List Purpose} {w : Switch} {ended : Prop}

theorem State.HeldUp.of_eq (h : x.HeldUp named w ended) (hp : t.backup.power = x.backup.power) (hs : t.store = x.store)
    (hsw : t.sw = x.sw) (ht : t.tam.slots = x.tam.slots) : t.HeldUp named w ended := by
  obtain ⟨h1, h2, h3, h4, h5⟩ := h
  refine ⟨by simpa [State.holdup, hp] using h1, hs ▸ h2, hs ▸ h3, fun ho => hsw ▸ h4 ho, fun he => ht ▸ h5 he⟩

/-- Permitted requests that are merged stay permitted (R168). -/
theorem addRequest_permitted {p : Purpose} (hp : p.permittedInHoldup = true) (l : List Purpose)
    (hl : ∀ q ∈ l, q.permittedInHoldup = true) : ∀ q ∈ addRequest p l, q.permittedInHoldup = true := by
  induction l with
  | nil => simpa [addRequest] using hp
  | cons q l ih =>
    rw [List.forall_mem_cons] at hl
    obtain ⟨hq, hl⟩ := hl
    unfold addRequest
    split
    · exact List.forall_mem_cons.2 ⟨hq, hl⟩
    · exact List.forall_mem_cons.2 ⟨hq, hl⟩
    · next a b c d =>
      refine List.forall_mem_cons.2 ⟨?_, hl⟩
      cases a <;> cases b <;> simp [Purpose.permittedInHoldup] at hp
      cases c <;> cases d <;> simp [Purpose.permittedInHoldup] at hq
      rfl
    · exact List.forall_mem_cons.2 ⟨hq, ih hl⟩

theorem State.HeldUp.pump (h : x.HeldUp named w ended) : x.pump.HeldUp named w ended := by
  obtain ⟨h1, h2, h3, h4, h5⟩ := h
  rcases x.pump_spec with k | ⟨p, hf, hw, -, k⟩
  · rw [k]
    exact ⟨h1, h2, h3, h4, h5⟩
  · rw [k]
    refine ⟨h1, fun a ha => ?_, fun q hq => h3 q (List.mem_of_mem_eraseP hq), h4, h5⟩
    simp only [State.onStore, List.mem_singleton] at ha
    subst ha
    exact .inr (h3 p (List.mem_of_find?_eq_some hw))

theorem State.HeldUp.request (h : x.HeldUp named w ended) (p : Purpose) : (x.request p).HeldUp named w ended := by
  unfold State.request
  split
  · exact h
  · next hp =>
    have hperm : p.permittedInHoldup = true := by simpa [h.holdup] using hp
    refine State.HeldUp.pump ?_
    exact ⟨h.holdup, h.flight, addRequest_permitted hperm _ h.waiting, h.switch, h.slots⟩

theorem State.judgeRest_of_operating (h : operatingState s.sw.state) : s.judgeRest = s := by
  unfold State.judgeRest
  split
  · rfl
  · rcases h with h | h <;> rw [h]

theorem State.HeldUp.handHold (h : x.HeldUp named w ended) (r : Hold) (b : Bool) : (x.handHold r b).HeldUp named w ended := by
  unfold State.handHold
  split
  · exact h
  · split
    · exact h
    · refine State.HeldUp.of_eq (x := ((x.onSw fun u => { u with record := { u.record with holds := u.record.holds.put r b } }).judgeRest).request
        .switchRecord) (State.HeldUp.request ?_ _) rfl rfl rfl rfl
      refine ⟨?_, by simpa using h.flight, by simpa using h.waiting, fun ho => ?_, by simpa using h.slots⟩
      · simpa [State.holdup] using h.holdup
      · have hsw := h.switch ho
        rw [State.judgeRest_of_operating]
        · simp only [State.onSw]
          rw [hsw]
        · simp only [State.onSw]
          rw [hsw]
          exact ho

theorem State.HeldUp.judgeTamper (h : x.HeldUp named w ended) : x.judgeTamper.HeldUp named w ended := by
  unfold State.judgeTamper
  split
  · exact h.handHold _ _
  · exact h

theorem State.HeldUp.notifyEvidence (h : x.HeldUp named w ended) (c : EvClass) : (x.notifyEvidence c).HeldUp named w ended :=
  h.of_eq (by simp) (by simp) (by simp) (by simp)

/-- With no slot sought no slot begins to collect (R159, R162). -/
theorem logAppend_slots_of_not_seek {r : EvRecord} {trace : List Summary} {ev : EvidenceRec} {slots : List (Option Slot)} {sl : Slot}
    (h : some sl ∈ (logAppend r false trace ev slots).2.1) : some sl ∈ slots := by
  have he : (logAppend r false trace ev slots).2.1 = (makeRoom ev.log slots).2 := by simp [logAppend]
  rw [he] at h
  unfold makeRoom at h
  split at h
  · exact h
  · split at h
    · exact h
    · dsimp only at h
      split at h
      · rcases List.mem_or_eq_of_mem_set h with h | h
        · exact h
        · cases h
      · exact h

theorem State.HeldUp.appendRecord (h : x.HeldUp named w ended) (r : EvRecord) : (x.appendRecord r).HeldUp named w ended := by
  have hm : x.mains = false := by
    have := h.holdup
    simp only [State.mains, State.holdup, beq_iff_eq] at *
    simp [this]
  refine State.HeldUp.notifyEvidence (State.HeldUp.request ?_ _) _
  refine ⟨h.holdup, h.flight, h.waiting, h.switch, fun he sl hsl => h.slots he sl ?_⟩
  have hseek : ((x.policy r.cls).snapshot && r.cls.snapshotable && x.mains && !r.onBattery) = false := by simp [hm]
  simp only [State.onTam, hseek] at hsl
  exact logAppend_slots_of_not_seek hsl

theorem State.HeldUp.editLog (h : x.HeldUp named w ended) (f : EvRecord → EvRecord) : (x.editLog f).HeldUp named w ended :=
  State.HeldUp.request (x := x.onTam fun t => { t with evidence := { t.evidence with log := t.evidence.log.map f } })
    (h.of_eq rfl rfl rfl rfl) _

theorem State.HeldUp.takeArrival (h : x.HeldUp named w ended) (a : Arrival) : (x.takeArrival a).HeldUp named w ended := by
  unfold State.takeArrival State.recordOnset State.recordEnd State.recordExcused
  with_reducible repeat' first
    | exact h | apply State.HeldUp.judgeTamper | apply State.HeldUp.appendRecord | apply State.HeldUp.notifyEvidence
    | apply State.HeldUp.editLog | split

theorem State.HeldUp.countTaken (h : x.HeldUp named w ended) (a : Arrival) : (x.countTaken a).HeldUp named w ended := by
  obtain ⟨hp, -⟩ := x.countTaken_keeps a
  exact h.of_eq hp (by simp) (State.countTaken_sw _ _) (by rw [State.countTaken_tam])

theorem State.HeldUp.releaseHeld (h : x.HeldUp named w ended) : x.releaseHeld.HeldUp named w ended :=
  foldl_taken (fun _ a hy => (hy.countTaken a).takeArrival a) x.tam.heldBack
    (x.onTam fun t => { t with clearing := [], entryHold := false, heldBack := [] }) (h.of_eq rfl rfl rfl rfl)

theorem State.HeldUp.coverOnset (h : x.HeldUp named w ended) (c : Cover) : (x.coverOnset c).HeldUp named w ended := by
  have arrive : ∀ {y : State} (_ : y.HeldUp named w ended) (a : Arrival), (y.arrive a).HeldUp named w ended := fun {y} hy a => by
    unfold State.arrive
    split
    · exact hy.of_eq rfl rfl rfl rfl
    · exact hy.takeArrival a
  unfold State.coverOnset
  dsimp only
  split
  · exact arrive h _
  · exact arrive (h.countTaken _) _

theorem State.HeldUp.endWindow (h : x.HeldUp named w ended) : x.endWindow.HeldUp named w ended := by
  have hc : x.windowClosed.HeldUp named w ended := State.HeldUp.request
    (x := (x.onLife fun v => { v with state := .inService, window := none, timer := none }).pend .life) (h.of_eq rfl rfl rfl rfl) _
  rw [State.endWindow_eq]
  dsimp only
  split <;> split
  · exact (hc.coverOnset _).coverOnset _
  · exact hc.coverOnset _
  · exact hc.coverOnset _
  · exact hc

/-- The collection of every slot ends (R163). -/
theorem State.HeldUp.completeSlots (h : x.HeldUp named w ended) : x.completeSlots.HeldUp named w True := by
  unfold State.completeSlots
  split
  · refine State.HeldUp.request (x := x.onTam fun t => { t with slots := t.slots.map (Option.map Slot.completed) })
      ⟨h.holdup, h.flight, h.waiting, h.switch, fun _ sl hsl => ?_⟩ _
    obtain ⟨o, -, ho⟩ := List.mem_map.1 hsl
    cases o with
    | none => cases ho
    | some sl' =>
      cases ho
      rfl
  · next hn =>
    refine ⟨h.holdup, h.flight, h.waiting, h.switch, fun _ sl hsl => ?_⟩
    refine Bool.eq_false_iff.2 fun hc => hn (List.any_eq_true.2 ⟨some sl, hsl, hc⟩)

end Sys2Proof.Machine
end

section
/-! The work a request loses at the change to HOLDUP, and what the blocks respond (O57). -/

namespace Sys2Proof.Machine

variable {s t x y : State}

/-! ### The request that loses its work (R32, R55, R89, R97, R187) -/

theorem answers_pair {l : List (Byte × Status)} {k a b : Byte} {st u v : Status} (hl : l = [(a, u), (b, v)]) (h : (k, st) ∈ l) :
    k = a ∨ k = b := by
  rw [hl, List.mem_pair] at h
  exact h.imp (congrArg Prod.fst) (congrArg Prod.fst)

/-- A write that answers a request of the kind is dropped for it, but for the two the kind of R103 and R183 waits for. -/
theorem Purpose.droppedFor_of_answers {k : Byte} {st : Status} {p : Purpose} (h : (k, st) ∈ answersOf p) (hs : p ≠ .switchRecord)
    (hl : p ≠ .lifeRecord) (ht : ∀ n sel pending st, p = .tariffRequest n sel pending st → 0x23 ≤ n ∧ n ≤ 0x26) :
    (p.droppedFor k.toNat).isSome = true := by
  have two : ∀ {a b : Status}, answersOf p = [(0x10, a), (0x11, b)] → k.toNat = 0x10 ∨ k.toNat = 0x11 := fun hp => by
    rcases answers_pair hp h with e | e
    · exact .inl (by rw [e]; rfl)
    · exact .inr (by rw [e]; rfl)
  have one : ∀ {b : Byte} {a : Status}, answersOf p = [(b, a)] → k.toNat = b.toNat := fun hp => by
    rw [(answers_single hp h).1]
  cases p with
  | counted | codeEffect | clearTamper | setLimit | openService => exact congrArg Option.isSome (if_pos (two rfl))
  | emergencyTaken | setTime | config | identity | entry => exact congrArg Option.isSome (if_pos (one rfl))
  | tariffRequest n sel pending st' =>
    obtain ⟨h1, h2⟩ := ht n sel pending st' rfl
    have hk : k.toNat = n := by
      rw [one rfl, BitVec.toNat_ofNat]
      omega
    exact congrArg Option.isSome (if_pos ⟨hk ▸ h1, hk ▸ h2⟩)
  | switchRecord => exact absurd rfl hs
  | lifeRecord => exact absurd rfl hl
  | residue v r =>
    cases v <;> cases r
    case true.true => exact congrArg Option.isSome (if_pos (one rfl))
    all_goals cases h
  | _ => cases h

theorem Purpose.droppedFor_code {k : Nat} (hk : k = 0x10 ∨ k = 0x11) {p : Purpose} {d : Dropped} (h : p.droppedFor k = some d) :
    ∃ kind sequence, d = .code kind sequence := by
  have code : ∀ {P : Prop} [Decidable P] {kind sequence}, (if P then some (Dropped.code kind sequence) else none) = some d →
      ∃ kind sequence, d = .code kind sequence := fun {P} _ {kind sequence} h' => by
    split at h'
    · exact ⟨kind, sequence, (Option.some.inj h').symm⟩
    · cases h'
  have other : ∀ {P : Prop} [Decidable P], ¬ P → (if P then some Dropped.other else none) = some d → ∃ kind sequence, d = .code kind sequence :=
    fun hP h' => by
      rw [if_neg hP] at h'
      cases h'
  cases p with
  | counted | codeEffect | clearTamper | setLimit | openService => exact code h
  | emergencyTaken | setTime | tariffRequest | config | identity | entry => exact other (by omega) h
  | residue v r =>
    cases r
    · cases h
    · exact other (by omega) h
  | _ => cases h

theorem Entry.droppedFor_code {k : Nat} (hk : k = 0x10 ∨ k = 0x11) {e : Entry} {d : Dropped} (h : e.droppedFor k = some d) :
    ∃ kind sequence, d = .code kind sequence := by
  cases e with
  | code kind amount sequence =>
    have h' : (if k = 0x10 ∨ k = 0x11 then some (Dropped.code (some kind) (some sequence)) else none) = some d := h
    rw [if_pos hk] at h'
    exact ⟨_, _, (Option.some.inj h').symm⟩
  | emergency =>
    have h' : (if k = 0x12 then some Dropped.other else none) = some d := h
    rw [if_neg (by omega)] at h'
    cases h'
  | entry =>
    have h' : (if k = 0x29 then some Dropped.other else none) = some d := h
    rw [if_neg (by omega)] at h'
    cases h'
  | _ => cases h

variable {r : InHand}

theorem State.droppedRequest_of_waiting (hi : s.link.inHand = some r) (hw : r.stage = .waiting) {p : Purpose} (hp : p ∈ s.store.waiting)
    (hd : (p.droppedFor r.kind.toNat).isSome = true) : ∃ d, s.droppedRequest = some (r, d) := by
  have hs : (s.store.waiting.findSome? (Purpose.droppedFor r.kind.toNat)).isSome = true :=
    List.findSome?_isSome_iff.2 ⟨p, hp, hd⟩
  obtain ⟨d, hd'⟩ := Option.isSome_iff_exists.1 hs
  exact ⟨d, by simp only [State.droppedRequest, hi, hw, if_true, hd']⟩

theorem State.droppedRequest_of_queue (hi : s.link.inHand = some r) (hw : r.stage = .waiting) {e : Entry} (he : e ∈ s.acct.queue)
    (hd : (e.droppedFor r.kind.toNat).isSome = true) : ∃ d, s.droppedRequest = some (r, d) := by
  cases hf : s.store.waiting.findSome? (Purpose.droppedFor r.kind.toNat) with
  | some d => exact ⟨d, by simp only [State.droppedRequest, hi, hw, if_true, hf]⟩
  | none =>
    have hs : (s.acct.queue.findSome? (Entry.droppedFor r.kind.toNat)).isSome = true := List.findSome?_isSome_iff.2 ⟨e, he, hd⟩
    obtain ⟨d, hd'⟩ := Option.isSome_iff_exists.1 hs
    exact ⟨d, by simp only [State.droppedRequest, hi, hw, if_true, hf, hd', Option.map_some]⟩

/-- For a code submission what is lost is a code. -/
theorem State.droppedRequest_code {d : Dropped} (h : s.droppedRequest = some (r, d)) (hk : r.kind = 0x10 ∨ r.kind = 0x11) :
    ∃ kind sequence, d = .code kind sequence := by
  have hk' : r.kind.toNat = 0x10 ∨ r.kind.toNat = 0x11 := hk.imp (fun e => by rw [e]; rfl) fun e => by rw [e]; rfl
  unfold State.droppedRequest at h
  split at h
  · next h0 hi =>
    split at h
    · split at h
      · next d' hf =>
        simp only [Option.some.injEq, Prod.mk.injEq] at h
        obtain ⟨rfl, rfl⟩ := h
        obtain ⟨p, -, hp⟩ := List.exists_of_findSome?_eq_some hf
        exact Purpose.droppedFor_code hk' hp
      · next hn =>
        obtain ⟨d', hf, hd'⟩ := Option.map_eq_some_iff.1 h
        simp only [Prod.mk.injEq] at hd'
        obtain ⟨rfl, rfl⟩ := hd'
        obtain ⟨e, -, he⟩ := List.exists_of_findSome?_eq_some hf
        exact Entry.droppedFor_code hk' he
    · cases h
  · cases h

theorem State.refuseDropped_spec (s : State) (d : Dropped) : (∃ body, s.inHandReplied (s.refuseDropped (some (r, d))) .power body) ∧
    ∀ kind sequence, d = .code kind sequence → (s.refuseDropped (some (r, d))).code.last.outcome = some .power := by
  cases d with
  | code kind sequence =>
    refine ⟨⟨((s.setResult (refusedResult .power kind sequence)).codeBody), ?_⟩, fun _ _ _ => by simp [State.refuseDropped, State.refuseCode,
      State.endCode, State.setResult, refusedResult]⟩
    simp [State.inHandReplied, State.refuseDropped, State.refuseCode, State.endCode, State.setResult, State.answer]
  | other =>
    refine ⟨⟨s.bodyFor r, ?_⟩, fun _ _ h => by cases h⟩
    simp [State.inHandReplied, State.refuseDropped, State.answer]

/-! ### The switch controller's response (R112, R117, R118) -/

theorem State.switchHoldup_replied {body : List Byte} (h : s.inHandReplied x .power body) : ∃ body, s.inHandReplied x.switchHoldup .power body := by
  have answered : ∀ y : State, y.link.inHand = x.link.inHand → ∃ body, s.inHandReplied (y.answer .power y.switchBody) .power body := fun y hy => by
    refine ⟨y.switchBody, ?_⟩
    have e := congrArg Link.inHand (y.answer_replied .power y.switchBody :)
    have h' : x.link.inHand = s.link.inHand.map fun r => { r with stage := .replied (Status.power.byte :: body) } := h
    refine e.trans ?_
    simp only [Link.atStage, hy, h', Option.map_map]
    rfl
  unfold State.switchHoldup
  dsimp only
  split
  · split <;> exact answered (State.onSw _ _) rfl
  · split <;> exact ⟨body, h⟩
  · split <;> exact ⟨body, h⟩

end Sys2Proof.Machine
end

section
/-! What SUPPLY_FAILING leaves of a working part (the first half of O57). -/

namespace Sys2Proof.Machine

variable {s t x y : State}

/-- The writes, the queue and the block dropped, and the request that loses its work refused. -/
def State.dropsWork (s : State) : State :=
  ((s.onStore Store.dropWaiting).dropQueue.onReg fun r => { r with blockOpen := false }).refuseDropped s.droppedRequest

/-- The residue record asked for and the switch controller's response. -/
def State.respondsFirst (s : State) : State := (s.dropsWork.requestResidue true false).switchHoldup

/-- The tamper unit's and life control's response. -/
def State.respondsNext (s : State) : State := s.releaseDropped.completeSlots.windowHoldup

theorem State.respondHoldup_eq (s : State) : s.respondHoldup =
    (s.respondsFirst.respondsNext.onLink fun l => { l with silenceRunning := false }).pend .power := rfl

theorem State.switchHoldup_sw (s : State) (hc : ∀ time, s.sw.progress ≠ .confirmed time) (hi : s.sw.progress ≠ .idle) :
    s.switchHoldup.sw.progress = .abandoned ∧ s.switchHoldup.sw.state = s.sw.state ∧ s.switchHoldup.sw.attempt = s.sw.attempt ∧
      s.switchHoldup.sw.drive = s.sw.drive := by
  generalize hy : (match s.sw.progress with
    | .waiting | .blanking _ | .watching _ _ _ => s.onSw fun w => { w with progress := .abandoned }
    | _ => s : State) = y
  have hsw : y.sw.progress = .abandoned ∧ y.sw.state = s.sw.state ∧ y.sw.attempt = s.sw.attempt ∧ y.sw.drive = s.sw.drive := by
    rw [← hy]
    cases hp : s.sw.progress with
    | waiting | blanking | watching => exact ⟨rfl, rfl, rfl, rfl⟩
    | abandoned => exact ⟨hp, rfl, rfl, rfl⟩
    | idle => exact absurd hp hi
    | confirmed time => exact absurd hp (hc time)
  obtain ⟨h1, h2, h3, h4⟩ := hsw
  have he : s.switchHoldup = match s.sw.sensing with
    | some .forRetry => (y.onSw fun w => { w with sensing := none }).answer .power y.switchBody
    | some .atDip => y.onSw fun w => { w with sensing := none, progress := .abandoned }
    | _ => y := by
    rw [← hy]
    rfl
  rw [he]
  split
  · simp [h1, h2, h3, h4]
  · exact ⟨rfl, h2, h3, h4⟩
  · exact ⟨h1, h2, h3, h4⟩

theorem State.dropsWork_spec (s : State) : s.dropsWork.backup = s.backup ∧ s.dropsWork.store = { s.store with
      waiting := s.store.waiting.filter Purpose.permittedInHoldup } ∧ s.dropsWork.reg = { s.reg with blockOpen := false } ∧
    s.dropsWork.acct = { s.acct with queue := [], pendingReverse := .all3 0, pendingSubstituted := 0 } ∧ s.dropsWork.sw = s.sw ∧
    s.dropsWork.life = s.life := by
  refine ⟨?_, ?_, ?_, ?_, ?_, ?_⟩ <;> simp [State.dropsWork, Store.dropWaiting, State.dropQueue, Account.clearPending]

theorem State.respondsFirst_heldUp (s : State) (hh : s.holdup = true) :
    s.respondsFirst.HeldUp (s.store.flight.map Write.purpose) s.respondsFirst.sw False := by
  obtain ⟨h1, h2, -, -, -, -⟩ := s.dropsWork_spec
  have h0 : s.dropsWork.HeldUp (s.store.flight.map Write.purpose) s.dropsWork.sw False := by
    refine ⟨by simpa [State.holdup, h1] using hh, fun a ha => .inl ?_, fun p hp => ?_, fun _ => rfl, False.elim⟩
    · rw [h2] at ha
      exact List.mem_map_of_mem ha
    · rw [h2] at hp
      exact (List.mem_filter.1 hp).2
  have hr : (s.dropsWork.requestResidue true false).HeldUp (s.store.flight.map Write.purpose) s.dropsWork.sw False := by
    refine State.HeldUp.request (x := s.dropsWork.onStore fun st => { st with waiting := st.waiting.filter fun p => !p.isResidue }) ?_ _
    exact ⟨h0.holdup, h0.flight, fun p hp => h0.waiting p (List.mem_of_mem_filter hp), h0.switch, h0.slots⟩
  obtain ⟨k1, k2, k3, -, -⟩ := hr
  exact ⟨by simpa [State.respondsFirst, State.holdup] using k1, by simpa [State.respondsFirst] using k2,
    by simpa [State.respondsFirst] using k3, fun _ => rfl, False.elim⟩

theorem State.releaseDropped_heldUp {named : List Purpose} {w : Switch} {ended : Prop} (h : x.HeldUp named w ended) :
    x.releaseDropped.HeldUp named w ended := by
  unfold State.releaseDropped
  dsimp only
  split
  · exact h.releaseHeld
  · exact h

theorem State.respondsNext_heldUp {named : List Purpose} {w : Switch} {ended : Prop} (h : x.HeldUp named w ended) :
    x.respondsNext.HeldUp named w True := by
  have h' := (State.releaseDropped_heldUp h).completeSlots
  unfold State.respondsNext State.windowHoldup
  split
  · exact h'.endWindow
  · exact h'

theorem State.respondsNext_onward (s : State) : s.Onward s.respondsNext := by
  have h1 : s.Onward s.releaseDropped := by
    unfold State.releaseDropped
    dsimp only
    split
    · exact State.releaseHeld_onward (.refl s)
    · exact .refl s
  have h2 : s.Onward s.releaseDropped.completeSlots := by
    unfold State.completeSlots
    split
    · exact State.request_onward (State.onTam_onward h1 _) _
    · exact h1
  unfold State.respondsNext State.windowHoldup
  split
  · exact State.endWindow_onward h2
  · exact h2

theorem State.respondsNext_onlyCounts (s : State) : s.onlyCounts s.respondsNext := by
  have h1 : s.onlyCounts s.releaseDropped := by
    unfold State.releaseDropped
    dsimp only
    split
    · exact s.releaseHeld_onlyCounts
    · exact State.onlyCounts_of rfl
  have h2 : s.onlyCounts s.releaseDropped.completeSlots := h1.trans (State.onlyCounts_of (by simp))
  unfold State.respondsNext State.windowHoldup
  split
  · exact h2.trans (State.endWindow_onlyCounts _)
  · exact h2

theorem State.respondsNext_life (s : State) : (s.life.state = .serviceWindow →
      s.respondsNext.life = { s.life with state := .inService, window := none, timer := none } ∧ .life ∈ s.respondsNext.link.notices) ∧
    (s.life.state ≠ .serviceWindow → s.respondsNext.life = s.life) := by
  have hl : s.releaseDropped.completeSlots.life = s.life := by simp
  unfold State.respondsNext State.windowHoldup
  rw [hl]
  refine ⟨fun h => ?_, fun h => ?_⟩
  · rw [if_pos h]
    obtain ⟨h1, h2, -⟩ := s.releaseDropped.completeSlots.endWindow_spec
    exact ⟨h1.trans (by rw [hl]), h2⟩
  · rw [if_neg h]
    exact hl

/-- The switch once the tamper unit and life control have responded: an abandoned operation stands as it was. -/
theorem State.respondsNext_frame (s : State) : s.respondsNext.reg = s.reg ∧ s.respondsNext.acct = s.acct ∧
    s.respondsNext.code = s.code ∧ s.sameRecords s.respondsNext := by
  simp [State.respondsNext, State.sameRecords]

theorem State.respondsFirst_spec (s : State) : s.respondsFirst.backup = s.backup ∧ s.respondsFirst.reg = { s.reg with blockOpen := false } ∧
    s.respondsFirst.acct = { s.acct with queue := [], pendingReverse := .all3 0, pendingSubstituted := 0 } ∧
    s.respondsFirst.life = s.life ∧ s.sameRecords s.respondsFirst ∧ s.store.flight <+: s.respondsFirst.store.flight ∧
    Purpose.residue true false ∈ s.respondsFirst.underWay ∧
    ((∀ time, s.sw.progress ≠ .confirmed time) → s.sw.progress ≠ .idle → s.respondsFirst.sw.progress = .abandoned ∧
      s.respondsFirst.sw.state = s.sw.state ∧ s.respondsFirst.sw.attempt = s.sw.attempt ∧ s.respondsFirst.sw.drive = s.sw.drive) := by
  obtain ⟨h1, h2, h3, h4, h5, h6⟩ := s.dropsWork_spec
  obtain ⟨hf, hu⟩ := s.dropsWork.requestResidue_asked true false
  refine ⟨by simp [State.respondsFirst, h1], by simp [State.respondsFirst, h3], by simp [State.respondsFirst, h4],
    by simp [State.respondsFirst, h6], by simp [State.respondsFirst, State.sameRecords, h2], ?_, ?_, fun hc hi => ?_⟩
  · have hst : s.respondsFirst.store = (s.dropsWork.requestResidue true false).store := by simp [State.respondsFirst]
    rw [h2] at hf
    rw [hst]
    exact hf
  · simpa [State.underWay, State.respondsFirst] using hu
  · have hsw : (s.dropsWork.requestResidue true false).sw = s.sw := by simp [h5]
    have h := (s.dropsWork.requestResidue true false).switchHoldup_sw (by rw [hsw]; exact hc) (by rw [hsw]; exact hi)
    rw [hsw] at h
    exact h

/-- The request in hand that loses the work it waits for is refused POWER. -/
theorem State.respondsFirst_replied {r : InHand} {d : Dropped} (h : s.droppedRequest = some (r, d)) :
    (∃ body, s.inHandReplied s.respondsFirst .power body) ∧
      (r.kind = 0x10 ∨ r.kind = 0x11 → s.respondsFirst.code.last.outcome = some .power) := by
  let z := (s.onStore Store.dropWaiting).dropQueue.onReg fun r => { r with blockOpen := false }
  have hz : z.link = s.link := by simp [z]
  obtain ⟨⟨body, hb⟩, hcode⟩ := z.refuseDropped_spec (r := r) d
  have hd : s.dropsWork = z.refuseDropped (some (r, d)) := by rw [State.dropsWork, h]
  refine ⟨?_, fun hk => ?_⟩
  · refine State.switchHoldup_replied (body := body) ?_
    have hl : (s.dropsWork.requestResidue true false).link = s.dropsWork.link := by simp
    rw [State.inHandReplied, hz] at hb
    rw [State.inHandReplied, hl, hd]
    exact hb
  · obtain ⟨kind, sequence, hdc⟩ := State.droppedRequest_code h hk
    have hc : s.respondsFirst.code = s.dropsWork.code := by simp [State.respondsFirst]
    rw [hc, hd]
    exact hcode kind sequence hdc

/-- The change to HOLDUP of a working part, before an abandoned start is noted. -/
theorem State.abandonStart_spec (s : State) : s.abandonStart.backup.power = s.backup.power ∧
    s.abandonStart.backup.limitExpired = s.backup.limitExpired ∧ s.abandonStart.backup.retained = s.backup.retained ∧
    (s.backup.domain = .running → s.abandonStart.backup.domain = .running) ∧
    (∀ cause b, s.backup.domain = .starting cause b → s.abandonStart.backup.domain = .abandoned cause) := by
  refine ⟨rfl, rfl, rfl, fun h => ?_, fun cause b h => ?_⟩ <;> simp [State.abandonStart, State.onBackup, h]

end Sys2Proof.Machine
end

section
/-! What a return to MAINS leaves of a working part (the second half of O57). -/

namespace Sys2Proof.Machine

variable {s t x y : State}

/-- Each of several requests in MAINS is under way, or one that serves it. -/
theorem State.requestAll_served (l : List Purpose) : ∀ {x : State}, x.holdup = false → ∀ p ∈ l,
    ∃ q ∈ (l.foldl (fun x p => x.request p) x).underWay, p.servedBy q := by
  induction l with
  | nil => exact fun _ p hp => absurd hp List.not_mem_nil
  | cons a l ih =>
    intro x hx p hp
    rcases List.mem_cons.1 hp with rfl | hp
    · obtain ⟨q, hq, hs⟩ := x.request_served p (.inl hx)
      exact (foldl_onward (fun y c => State.request_onward (.refl y) c) l (.refl (x.request p))).served hq hs
    · exact ih (x := x.request a) (by simpa [State.holdup] using hx) p hp

/-! ### The switch at a dip (R120) -/

theorem State.handHold_timesDue (s : State) (r : Hold) (b : Bool) : (s.handHold r b).sw.timesDue = s.sw.timesDue := by
  have rest : ∀ x : State, x.judgeRest.sw.timesDue = x.sw.timesDue := fun x => by
    unfold State.judgeRest
    (repeat' split) <;> simp
  unfold State.handHold
  split
  · rfl
  · split
    · rfl
    · simp only [State.pend_frame, State.request_frame, rest]
      rfl

theorem State.switchDip_spec (s : State) (hm : s.mains = true) : s.switchDip.sw.timesDue = s.sw.timesDue ∧
    (s.sw.progress = .abandoned → s.switchDip.sw = { s.sw with sensing := some .atDip }) ∧
    (s.sw.progress ≠ .abandoned → s.sw.state = .closed → s.sw.sensing = none →
      s.switchDip.sw = if s.sw.record.holds.isEmpty then s.sw else s.sw.enters .opening) := by
  unfold State.switchDip
  refine ⟨?_, fun h => ?_, fun h hc hs => ?_⟩
  · split
    · rfl
    · unfold State.judgeRest
      (repeat' split) <;> simp
  · rw [if_pos h]
    rfl
  · rw [if_neg h]
    unfold State.judgeRest
    rw [if_neg (by simp [hs]), hc]
    dsimp only
    cases he : s.sw.record.holds.isEmpty with
    | true => simp
    | false =>
      rw [if_pos (by simp [hm]), if_neg (by simp)]
      exact s.beginOperation_sw _ (.inl rfl)

theorem State.deferredSwitch_spec (s : State) (hh : s.holdup = false) : s.deferredSwitch.sw = { s.sw with timesDue := false } ∧
    (s.sw.timesDue = true → .switchRecord ∈ s.deferredSwitch.underWay) ∧
    (∀ p ∈ s.underWay, ∃ q ∈ s.deferredSwitch.underWay, p.servedBy q) ∧
    State.agreeBut [.store, .sw, .link, .fresh] s s.deferredSwitch ∧ s.sameRecords s.deferredSwitch := by
  unfold State.deferredSwitch
  split
  · refine ⟨by simp, fun _ => ?_, ?_, by simp [State.agreeBut_iff], by simp [State.sameRecords]⟩
    · obtain ⟨q, hq, hs⟩ := (s.onSw fun w => { w with timesDue := false }).request_served .switchRecord (.inl hh)
      cases hs
      exact hq
    · exact (State.request_onward (State.onSw_onward (.refl s) _) .switchRecord).writes
  · next h =>
    have ht : s.sw.timesDue = false := by
      simp only [Bool.or_eq_true, not_or, Bool.not_eq_true] at h
      exact h.1.1
    have hsw : s.sw = { s.sw with timesDue := false } := by rw [← ht]
    split
    · exact ⟨by simpa using hsw, by simp [ht], fun p hp => ⟨p, by simpa [State.underWay] using hp, p.servedBy_refl⟩,
        by simp [State.agreeBut_iff], by simp [State.sameRecords]⟩
    · exact ⟨hsw, by simp [ht], fun p hp => ⟨p, hp, p.servedBy_refl⟩, by simp [State.agreeBut_iff], ⟨rfl, rfl, rfl⟩⟩

/-! ### The tests on the clock -/

theorem State.clockTests_supply (s : State) : s.clockTests.sup.supply.dips = s.sup.supply.dips ∧
    s.clockTests.sup.supply.outages = s.sup.supply.outages ∧ s.clockTests.sw.timesDue = s.sw.timesDue ∧
    (s.sup.supply.backoff = none → s.clockTests.sup = s.sup ∧ s.clockTests.sw = s.sw) := by
  have reached : ∀ x : State, x.backoffReached.sup.supply.dips = x.sup.supply.dips ∧
      x.backoffReached.sup.supply.outages = x.sup.supply.outages ∧ x.backoffReached.sw.timesDue = x.sw.timesDue ∧
      (x.sup.supply.backoff = none → x.backoffReached.sup = x.sup ∧ x.backoffReached.sw = x.sw) := fun x => by
    have hb : x.bringInBackoff.sup.supply.dips = x.sup.supply.dips ∧ x.bringInBackoff.sup.supply.outages = x.sup.supply.outages := by
      unfold State.bringInBackoff
      split
      · split <;> simp [State.onSup]
      · exact ⟨rfl, rfl⟩
    unfold State.backoffReached State.backoffTest
    split
    · refine ⟨?_, ?_, ?_, fun hn => ?_⟩
      · rw [← hb.1]
        (repeat' split) <;> simp [State.onSup]
      · rw [← hb.2]
        (repeat' split) <;> simp [State.onSup]
      · (repeat' split) <;> simp [State.handHold_timesDue]
      · have he : x.bringInBackoff = x := by simp [State.bringInBackoff, hn]
        rw [he, hn]
        exact ⟨rfl, rfl⟩
    · exact ⟨rfl, rfl, rfl, fun _ => ⟨rfl, rfl⟩⟩
  simpa [State.clockTests] using reached s.compareDay.activate.lockoutReached

/-! ### The return itself (R169) -/

/-- The retained memory, the block engine and the dip count at a return, with the residue record asked for. -/
def State.returns (s : State) : State :=
  (((s.onBackup fun b => { b with power := .mains, limitExpired := false, retained := b.retained.atDip }).onReg
    fun r => { r with blockOpen := true }).requestResidue false false).onSup
    fun u => { u with supply := { u.supply with dips := saturate 65535 (u.supply.dips + 1) } }

/-- The writes that were deferred, asked for. -/
def State.asksDeferred (s : State) : State := (s.deferredRequests.foldl (fun x p => x.request p) s).request .supplyRecord

theorem State.dip_eq (s : State) :
    s.dip = ((s.returns.asksDeferred.switchDip.deferredSwitch).clockTests.restartSilence).pend .power := rfl

theorem State.returns_spec (s : State) : State.agreeBut [.backup, .store, .reg, .sup] s s.returns ∧ s.sameRecords s.returns ∧
    s.returns.backup = { s.backup with power := .mains, limitExpired := false, retained := s.backup.retained.atDip } ∧
    s.returns.reg = { s.reg with blockOpen := true } ∧
    s.returns.sup = { s.sup with supply := { s.sup.supply with dips := min 65535 (s.sup.supply.dips + 1) } } ∧
    .residue false false ∈ s.returns.underWay := by
  refine ⟨by simp [State.agreeBut_iff, State.returns], by simp [State.sameRecords, State.returns], by simp [State.returns],
    by simp [State.returns], by simp [State.returns, saturate], ?_⟩
  exact (State.requestResidue_asked ((s.onBackup fun b => { b with power := .mains, limitExpired := false, retained := b.retained.atDip }).onReg
    fun r => { r with blockOpen := true }) false false).2

theorem State.asksDeferred_onward (s : State) : s.Onward s.asksDeferred :=
  State.request_onward (foldl_onward (fun y c => State.request_onward (.refl y) c) _ (.refl s)) _

theorem State.asksDeferred_spec (s : State) (hh : s.holdup = false) : State.agreeBut [.store] s s.asksDeferred ∧
    .supplyRecord ∈ s.asksDeferred.underWay ∧
    ∀ r ∈ s.store.bad, (r = .days ∨ r = .tariff → .reinitialised r ∈ s.asksDeferred.underWay) ∧
      (r = .snapshot → ∃ ev, .evidenceLog ev true ∈ s.asksDeferred.underWay) := by
  have hall : ∀ p ∈ s.deferredRequests, ∃ q ∈ s.asksDeferred.underWay, p.servedBy q := fun p hp => by
    obtain ⟨q, hq, hs⟩ := State.requestAll_served s.deferredRequests hh p hp
    exact (State.request_onward (.refl _) .supplyRecord).served hq hs
  refine ⟨by simp [State.agreeBut_iff, State.asksDeferred], ?_, fun r hr => ⟨?_, ?_⟩⟩
  · obtain ⟨q, hq, hs⟩ := (s.deferredRequests.foldl (fun x p => x.request p) s).request_served .supplyRecord
      (.inl (by simpa [State.holdup] using hh))
    cases hs
    exact hq
  · rintro (rfl | rfl)
    · obtain ⟨q, hq, hs⟩ := hall (.reinitialised .days) (by simp [State.deferredRequests, whenDue, hr])
      cases hs
      exact hq
    · obtain ⟨q, hq, hs⟩ := hall (.reinitialised .tariff) (by simp [State.deferredRequests, whenDue, hr])
      cases hs
      exact hq
  · rintro rfl
    obtain ⟨q, hq, ev, snap, rfl, -, hsnap⟩ := hall (.evidenceLog true (s.tam.slots != s.store.recs.snapshot || s.store.bad.contains .snapshot))
      (by simp [State.deferredRequests])
    obtain rfl : snap = true := hsnap (by simp [hr])
    exact ⟨ev, hq⟩

/-- The switch once a return has judged it and its deferred write has been asked for. -/
def State.settledSwitch (s u : State) : Prop :=
  u.sw.timesDue = false ∧ (s.sw.progress = .abandoned → u.sw = { s.sw with timesDue := false, sensing := some .atDip }) ∧
    (s.sw.progress ≠ .abandoned → s.sw.state = .closed → s.sw.sensing = none →
      u.sw = if s.sw.record.holds.isEmpty then { s.sw with timesDue := false } else { s.sw with timesDue := false }.enters .opening)

/-- The writes under way at a return: those R169 asks for, and those that were deferred. -/
def State.returnAsks (s u : State) : Prop :=
  .supplyRecord ∈ u.underWay ∧ .residue false false ∈ u.underWay ∧
    (∀ r ∈ s.store.bad, (r = .days ∨ r = .tariff → .reinitialised r ∈ u.underWay) ∧
      (r = .snapshot → ∃ ev, .evidenceLog ev true ∈ u.underWay)) ∧
    (s.sw.timesDue = true → .switchRecord ∈ u.underWay)

/-- Nothing that a return asks for is lost in what serves it. -/
theorem State.returnAsks.served (h : s.returnAsks x) (hc : ∀ p ∈ x.underWay, ∃ q ∈ t.underWay, p.servedBy q) : s.returnAsks t := by
  obtain ⟨h1, h2, h3, h4⟩ := h
  have plain : ∀ {p : Purpose}, p ∈ x.underWay → (∀ q, p.servedBy q → q = p) → p ∈ t.underWay := fun hp he => by
    obtain ⟨q, hq, hs⟩ := hc _ hp
    exact he q hs ▸ hq
  refine ⟨plain h1 fun q hs => hs, plain h2 fun q hs => hs, fun r hr => ⟨fun hk => ?_, fun hk => ?_⟩, fun ht => plain (h4 ht) fun q hs => hs⟩
  · exact plain ((h3 r hr).1 hk) fun q hs => hs
  · obtain ⟨ev, hev⟩ := (h3 r hr).2 hk
    obtain ⟨q, hq, ev', snap, rfl, -, hsnap⟩ := hc _ hev
    obtain rfl : snap = true := hsnap rfl
    exact ⟨ev', hq⟩

/-- A return up to the tests on the clock. -/
theorem State.dip_chain (s : State) : ∃ u, s.dip = (u.clockTests.restartSilence).pend .power ∧
    u.backup = { s.backup with power := .mains, limitExpired := false, retained := s.backup.retained.atDip } ∧
    u.sup = { s.sup with supply := { s.sup.supply with dips := min 65535 (s.sup.supply.dips + 1) } } ∧
    u.reg = { s.reg with blockOpen := true } ∧ s.sameRecords u ∧ s.settledSwitch u ∧ s.returnAsks u := by
  obtain ⟨a1, a2, a3, a4, a5, a6⟩ := s.returns_spec
  have hm1 : s.returns.mains = true := by simp [State.mains, a3]
  have hb1 : s.returns.store.bad = s.store.bad := a2.2.1
  refine ⟨_, s.dip_eq, ?_⟩
  generalize s.returns = x at *
  obtain ⟨b1, b2, b3⟩ := x.asksDeferred_spec (x.mains_not_holdup hm1)
  have bon := x.asksDeferred_onward
  generalize x.asksDeferred = y at *
  have hyb : y.backup = x.backup := b1 .backup (by decide)
  have hm2 : y.mains = true := by rw [State.mains, hyb]; exact hm1
  obtain ⟨c1, c2, c3⟩ := y.switchDip_spec hm2
  have hds : y.switchDip.store = y.store ∧ y.switchDip.sup = y.sup ∧ y.switchDip.backup = y.backup ∧ y.switchDip.reg = y.reg := by simp
  generalize y.switchDip = z at *
  obtain ⟨hd1, hd2, hd3, hd4⟩ := hds
  have hm3 : z.mains = true := by rw [State.mains, hd3]; exact hm2
  obtain ⟨d1, d2, d3, d4, d5⟩ := z.deferredSwitch_spec (z.mains_not_holdup hm3)
  generalize z.deferredSwitch = u at *
  have hysw : y.sw = s.sw := (b1 .sw (by decide)).trans (a1 .sw (by decide))
  have carry : ∀ p ∈ y.underWay, ∃ q ∈ u.underWay, p.servedBy q := fun p hp => d3 p (by simpa [State.underWay, hd1] using hp)
  rw [hysw] at c1 c2 c3
  refine ⟨(d4 .backup (by decide)).trans (hd3.trans (hyb.trans a3)),
    (d4 .sup (by decide)).trans (hd2.trans ((b1 .sup (by decide)).trans a5)),
    (d4 .reg (by decide)).trans (hd4.trans ((b1 .reg (by decide)).trans a4)), ?_, ⟨?_, fun hp => ?_, fun hp hc hsens => ?_⟩, ?_⟩
  · obtain ⟨k1, k2, k3⟩ := a2
    obtain ⟨m1, m2, m3⟩ := bon.records
    obtain ⟨n1, n2, n3⟩ := d5
    rw [hd1] at n1 n2 n3
    exact ⟨n1.trans (m1.trans k1), n2.trans (m2.trans k2), n3.trans (m3.trans k3)⟩
  · rw [d1]
  · rw [d1, c2 hp]
  · rw [d1, c3 hp hc hsens]
    split
    · rfl
    · simp [Switch.enters]
  · have hy : State.returnAsks { s with sw := { s.sw with timesDue := false } } y := by
      refine ⟨b2, ?_, fun r hr => b3 r (hb1 ▸ hr), fun ht => by cases ht⟩
      obtain ⟨q, hq, hs⟩ := bon.writes _ a6
      cases hs
      exact hq
    obtain ⟨g1, g2, g3, -⟩ := hy.served carry
    exact ⟨g1, g2, g3, fun ht => d2 (c1.trans ht)⟩

end Sys2Proof.Machine
end

section
open Sys2Proof Sys2Proof.Machine

/-- Settles O57: the change by what is dropped and responded, the return by what is asked for and tested. -/
theorem supplyLossAndReturn : Obligations.SupplyLossAndReturn := by
  refine fun s => ⟨fun hm ha => ?_, fun hh hr hl => ?_⟩
  · have hexec : exec .supplyFailing s = .next s.enterHoldup.respondHoldup.abandonStart := by
      refine congrArg Host.Outcome.next ?_
      rw [State.failing, if_pos hm, if_pos ha]
    have hx : State.agreeBut [.backup] s s.enterHoldup := by simp [State.agreeBut_iff]
    have hxb : s.enterHoldup.holdup = true ∧ s.enterHoldup.backup.limitExpired = false ∧
        s.enterHoldup.backup.domain = s.backup.domain ∧ s.enterHoldup.clock = s.clock ∧ s.enterHoldup.clockValid = s.clockValid ∧
        (s.backup.retained.offMark = false → s.enterHoldup.backup.retained.outageStart = s.time) ∧
        (s.backup.retained.offMark = true → s.enterHoldup.backup.retained.outageStart = s.backup.retained.outageStart) := by
      refine ⟨rfl, rfl, rfl, ?_, ?_, fun ho => ?_, fun ho => ?_⟩
      · simp only [State.enterHoldup, State.onBackup, State.clock]
        split <;> rfl
      · simp only [State.enterHoldup, State.onBackup, State.clockValid]
        split <;> rfl
      · change (if s.backup.retained.offMark = true then s.backup.retained else { s.backup.retained with outageStart := s.time }).outageStart = _
        rw [ho]
        rfl
      · change (if s.backup.retained.offMark = true then s.backup.retained else { s.backup.retained with outageStart := s.time }).outageStart = _
        rw [ho]
        rfl
    have hdrop : s.enterHoldup.droppedRequest = s.droppedRequest := by simp [State.droppedRequest]
    generalize s.enterHoldup = x at *
    obtain ⟨b1, b2, b3, b4, b5, b6, b7⟩ := hxb
    have hst : x.store = s.store := hx .store (by decide)
    have hsw : x.sw = s.sw := hx .sw (by decide)
    have hli : x.life = s.life := hx .life (by decide)
    have hlk : x.link = s.link := hx .link (by decide)
    obtain ⟨f1, f2, f3, f4, f5, f6, f7, f8⟩ := x.respondsFirst_spec
    have hheld := State.respondsNext_heldUp (x.respondsFirst_heldUp b1)
    have hon := x.respondsFirst.respondsNext_onward
    have hcounts := x.respondsFirst.respondsNext_onlyCounts
    obtain ⟨l1, l2⟩ := x.respondsFirst.respondsNext_life
    obtain ⟨r1, r2, r3, r4⟩ := x.respondsFirst.respondsNext_frame
    have hrep := fun r d => @State.respondsFirst_replied x r d
    rw [x.respondHoldup_eq] at hexec
    generalize x.respondsFirst = y at *
    generalize y.respondsNext = z at *
    obtain ⟨a1, a2, a3, a4, a5⟩ := ((z.onLink fun l => { l with silenceRunning := false }).pend .power).abandonStart_spec
    have hback : z.backup = { x.backup with retained := { x.backup.retained with
        cover := z.backup.retained.cover, term := z.backup.retained.term } } := by
      rw [State.onlyCounts, f1] at hcounts
      exact hcounts
    have hpb : ((z.onLink fun l => { l with silenceRunning := false }).pend .power).backup = z.backup := rfl
    have hts : ((z.onLink fun l => { l with silenceRunning := false }).pend .power).abandonStart.store = z.store := rfl
    rw [hpb] at a1 a2 a3 a4 a5
    have hrefused : ∀ r d, s.droppedRequest = some (r, d) →
        (∃ body, s.inHandReplied ((z.onLink fun l => { l with silenceRunning := false }).pend .power).abandonStart .power body) ∧
          (r.kind = 0x10 ∨ r.kind = 0x11 →
            ((z.onLink fun l => { l with silenceRunning := false }).pend .power).abandonStart.code.last.outcome = some .power) :=
      fun r d hd => by
        obtain ⟨⟨body, hb⟩, hc⟩ := hrep r d (hdrop.trans hd)
        refine ⟨⟨body, ?_⟩, fun hk => ?_⟩
        · rw [State.inHandReplied, hlk] at hb
          exact hon.inHand.trans hb
        · exact (congrArg (fun c : CodeUnit => c.last.outcome) r3).trans (hc hk)
    refine ⟨_, hexec, ?_, ?_, ?_, ?_, ?_, ?_, ?_, ?_, hheld.slots trivial, rfl, State.pend_mem _ _, fun hrun => ?_, fun cause b hd => ?_,
      ?_, ?_, fun ho => ?_, fun ho => ?_, fun ho hc hi => ?_, fun hw => ?_, fun hw => ?_, fun r hi hw => ⟨fun p hp hk h1 h2 h3 => ?_,
      fun hk hq => ?_, fun hk hq => ?_, fun kind amount sequence hk hq => ?_⟩⟩
    · simpa [State.holdup, a1] using hheld.holdup
    · exact a2.trans ((congrArg Backup.limitExpired hback).trans b2)
    · have hxy : s.sameRecords y := by simpa [State.sameRecords, hst] using f5
      obtain ⟨k1, k2, k3⟩ := hxy
      obtain ⟨m1, m2, m3⟩ := r4
      exact ⟨m1.trans k1, m2.trans k2, m3.trans k3⟩
    · rw [hst] at f6
      exact f6.trans hon.flight
    · intro p hp
      rw [← hst]
      rcases List.mem_append.1 hp with hp | hp
      · obtain ⟨w, hw, rfl⟩ := List.mem_map.1 hp
        exact hheld.flight w hw
      · exact .inr (hheld.waiting p hp)
    · obtain ⟨q, hq, hs⟩ := hon.writes _ f7
      cases hs
      exact hq
    · exact r1.trans (f2.trans (by rw [hx .reg (by decide)]))
    · exact r2.trans (f3.trans (by rw [hx .acct (by decide)]))
    · refine a4 ((congrArg Backup.domain hback).trans (b3.trans ?_))
      simpa [State.running] using hrun
    · exact a5 cause b ((congrArg Backup.domain hback).trans (b3.trans hd))
    · refine (congrArg Retained.clock a3).trans ?_
      exact (congrArg (fun k : Backup => k.retained.clock) hback).trans b4
    · refine (congrArg Retained.valid a3).trans ?_
      exact (congrArg (fun k : Backup => k.retained.valid) hback).trans b5
    · refine (congrArg Retained.outageStart a3).trans ?_
      exact (congrArg (fun k : Backup => k.retained.outageStart) hback).trans (b6 ho)
    · refine (congrArg Retained.outageStart a3).trans ?_
      exact (congrArg (fun k : Backup => k.retained.outageStart) hback).trans (b7 ho)
    · rw [hsw] at f8
      obtain ⟨p1, p2, p3, p4⟩ := f8 hc hi
      have hz : z.sw = { y.sw with record := z.sw.record } := hheld.switch (p2 ▸ ho)
      refine ⟨?_, ?_, ?_, ?_⟩
      · exact (congrArg Switch.progress hz).trans p1
      · exact (congrArg Switch.state hz).trans p2
      · exact (congrArg Switch.attempt hz).trans p3
      · exact (congrArg Switch.drive hz).trans p4
    · obtain ⟨q1, q2⟩ := l1 (by rw [f4, hli]; exact hw)
      rw [f4, hli] at q1
      exact ⟨q1, State.pend_keeps_mem _ _ _ q2⟩
    · have q := l2 (by rw [f4, hli]; exact hw)
      rw [f4, hli] at q
      exact q
    · obtain ⟨st, hst'⟩ := hk
      obtain ⟨d, hd⟩ := State.droppedRequest_of_waiting hi hw hp (Purpose.droppedFor_of_answers hst' h1 h2 h3)
      exact (hrefused r d hd).1
    · obtain ⟨d, hd⟩ := State.droppedRequest_of_queue hi hw hq (congrArg Option.isSome (if_pos (by rw [hk]; rfl)))
      exact (hrefused r d hd).1
    · obtain ⟨d, hd⟩ := State.droppedRequest_of_queue hi hw hq (congrArg Option.isSome (if_pos (by rw [hk]; rfl)))
      exact (hrefused r d hd).1
    · obtain ⟨d, hd⟩ := State.droppedRequest_of_queue hi hw hq (congrArg Option.isSome (if_pos (by
        rcases hk with hk | hk
        · exact .inl (by rw [hk]; rfl)
        · exact .inr (by rw [hk]; rfl))))
      exact ⟨(hrefused r d hd).1, (hrefused r d hd).2 hk⟩
  · have hd : s.backup.domain = .running := by simpa [State.running] using hr
    have hexec : exec .supplyGoodDip s = .next s.dip := by
      refine congrArg Host.Outcome.next ?_
      rw [State.supplyGood, if_neg (by simp [hl]), if_pos hh, hd]
    obtain ⟨u, hdip, hub, esup, hreg, hrecs, ⟨s1, s2, s3⟩, hasks⟩ := s.dip_chain
    rw [hdip] at hexec
    have hua : u.alive = true := by simp [State.alive, hub, hd]
    have hum : u.mains = true := by simp [State.mains, hub]
    obtain ⟨-, e2, -⟩ := u.clockTests_ends hua hum
    obtain ⟨e4, e5, e6, e7⟩ := u.clockTests_supply
    have eon := State.clockTests_onward (.refl u)
    have hback : u.clockTests.backup = { s.backup with power := .mains, limitExpired := false, retained := s.backup.retained.atDip } := by
      rw [u.clockTests_frame.2.1]
      exact hub
    have hconf : u.clockTests.config = s.config := by
      rw [eon.config]
      exact State.config_congr hrecs.1 hrecs.2.2
    obtain ⟨w1, w2, w3, w4⟩ : s.returnAsks ((u.clockTests.restartSilence).pend .power) := hasks.served eon.writes
    refine ⟨_, hexec, ?_, ?_, ?_, ?_, ?_, ?_, ?_, ?_, ?_, ?_, ?_, ?_, w1, w2, w3, State.pend_mem _ _, ?_, ?_, w4,
      fun until_ period hb hu => ?_, fun hb => ?_⟩
    · exact beq_iff_eq.2 (congrArg Backup.power hback :)
    · simpa [State.running, State.restartSilence, hub] using hd
    · obtain ⟨k1, k2, k3⟩ := hrecs
      obtain ⟨m1, m2, m3⟩ := eon.records
      exact ⟨m1.trans k1, m2.trans k2, m3.trans k3⟩
    · exact u.clockTests_frame.2.2.1.trans hreg
    · exact (congrArg (fun k : Backup => k.retained.clock) hback :)
    · exact (congrArg (fun k : Backup => k.retained.valid) hback :)
    · exact (congrArg (fun k : Backup => k.retained.outageStart) hback :)
    · exact (congrArg (fun k : Backup => k.retained.cover.count) hback :)
    · exact (congrArg (fun k : Backup => k.retained.term.count) hback :)
    · exact (congrArg (fun k : Backup => k.retained.offMark) hback :)
    · exact e4.trans (by rw [esup])
    · exact e5.trans (by rw [esup])
    · have hmt : u.clockTests.mains = true := beq_iff_eq.2 (congrArg Backup.power hback :)
      change (u.clockTests.mains && u.clockTests.config.silence != 0) = _
      rw [hmt, hconf]
      rfl
    · exact e6.trans s1
    · refine e2 until_ period (by rw [esup]; exact hb) ?_
      rw [State.clock, hub]
      exact hu
    · have hub' : u.sup.supply.backoff = none := by rw [esup]; exact hb
      obtain ⟨e8, e9⟩ := e7 hub'
      exact ⟨(congrArg (fun k : Supervision => k.supply.backoff) e8).trans hub', fun hp => e9.trans (s2 hp),
        fun hp hc hsens => e9.trans (s3 hp hc hsens)⟩

end

section
/-! What the check of the records and the blocks' start work leave (R164, R172, R184). -/

namespace Sys2Proof.Machine

variable {s t x y : State}

/-! ### The tamper unit's start work and the rest of the state (R164) -/

/-- The tamper unit has worked before a start's end: nothing but the store's requests, its own state and the notices has changed. -/
structure State.tamperWork (s t : State) : Prop where
  agrees : State.agreeBut [.store, .tam, .link] s t
  onward : s.Onward t

theorem State.tamperWork.refl (s : State) : s.tamperWork s := ⟨fun p _ => by cases p <;> rfl, .refl s⟩

theorem State.tamperWork.trans (h : s.tamperWork x) (h' : x.tamperWork t) : s.tamperWork t :=
  ⟨(h.agrees.trans h'.agrees).mono (by decide), h.onward.trans h'.onward⟩

theorem State.tamperWork.running (h : s.tamperWork t) : t.running = s.running := by
  unfold State.running
  rw [h.agrees .backup (by decide)]

theorem State.notifyAll_tamperWork (l : List EvRecord) : ∀ x : State, x.tamperWork (l.foldl (fun x r => x.notifyEvidence r.cls) x) := by
  induction l with
  | nil => exact State.tamperWork.refl
  | cons r l ih =>
    exact fun x => State.tamperWork.trans ⟨by simp [State.agreeBut_iff], State.notifyEvidence_onward (.refl x) r.cls⟩ (ih _)

theorem State.repairLog_tamperWork (s : State) : s.tamperWork s.repairLog :=
  State.tamperWork.trans ⟨by simp [State.agreeBut_iff], State.onTam_onward (.refl s) _⟩ (State.notifyAll_tamperWork _ _)

theorem State.appendRecord_tamperWork (s : State) (r : EvRecord) : s.tamperWork (s.appendRecord r) :=
  ⟨by simp [State.agreeBut_iff], State.appendRecord_onward (.refl s) r⟩

theorem State.recordOutage_tamperWork (s : State) (kind : StartKind) : s.tamperWork (s.recordOutage kind) := by
  unfold State.recordOutage
  split
  · exact s.appendRecord_tamperWork _
  · exact .refl s

theorem State.convertSlot_tamperWork (s : State) (w : Cover) (slot : CoverSlot) : s.tamperWork (s.convertSlot w slot) := by
  unfold State.convertSlot
  dsimp only
  split
  · exact .refl s
  · split
    · exact ⟨by simp [State.agreeBut_iff], State.notifyEvidence_onward (State.editLog_onward (.refl s) _) _⟩
    · exact s.appendRecord_tamperWork _

theorem State.judgeTamper_of_not_running (h : s.running = false) : s.judgeTamper = s := by simp [State.judgeTamper, h]

/-- Before a start's end an onset is taken without a judgement of the TAMPER hold (R155). -/
theorem State.latchOnset_tamperWork (hr : s.running = false) (c : EvClass) (p : Option Nat) (v : Option Int) :
    s.tamperWork (s.latchOnset c p v) := by
  refine ⟨?_, State.latchOnset_onward (.refl s) c p v⟩
  unfold State.latchOnset State.arrive State.takeArrival State.recordOnset State.recordExcused
  have hj : ∀ r, (s.appendRecord r).judgeTamper = s.appendRecord r := fun r =>
    State.judgeTamper_of_not_running (by simpa [State.running] using hr)
  simp only [hj, if_true]
  (repeat' split) <;> simp [State.agreeBut_iff]

theorem State.firstReading_tamperWork (hr : s.running = false) (c : EvClass) (b : Bool) (v : Option Int) :
    s.tamperWork (s.firstReading c b v) := by
  unfold State.firstReading
  split
  · exact State.latchOnset_tamperWork hr c none v
  · exact .refl s

/-- The log and the cover slots as a start repairs and converts them, before the first readings. -/
def State.startLog (s : State) (kind : StartKind) : State :=
  ((s.repairLog.recordOutage kind).convertSlot .main s.backup.retained.cover).convertSlot .terminal s.backup.retained.term

/-- The conditions as the first readings find them. -/
def State.readsInputs (s x : State) (found : StartReadings) : State :=
  x.onTam fun t => { t with
    coverOpen := found.coverOpen, termOpen := found.termOpen, magnet := found.magAsserted, codeAttack := s.lockedOut }

theorem State.startTamper_eq (s : State) (kind : StartKind) (found : StartReadings) : s.startTamper kind found =
    ((((s.readsInputs (s.startLog kind) found).firstReading .coverOpen found.coverOpen none).firstReading .terminalOpen found.termOpen
      none).firstReading .magnet found.magAsserted none).firstReading .codeAttack s.lockedOut (some (s.store.recs.code.level : Int)) := rfl

theorem State.startLog_tamperWork (s : State) (kind : StartKind) : s.tamperWork (s.startLog kind) :=
  s.repairLog_tamperWork.trans ((State.recordOutage_tamperWork _ kind).trans
    ((State.convertSlot_tamperWork _ _ _).trans (State.convertSlot_tamperWork _ _ _)))

theorem State.startTamper_tamperWork (hr : s.running = false) (kind : StartKind) (found : StartReadings) :
    s.tamperWork (s.startTamper kind found) := by
  have h1 : s.tamperWork (s.readsInputs (s.startLog kind) found) :=
    (s.startLog_tamperWork kind).trans ⟨by simp [State.agreeBut_iff, State.readsInputs], State.onTam_onward (.refl _) _⟩
  have step : ∀ {y : State}, s.tamperWork y → ∀ c b v, s.tamperWork (y.firstReading c b v) := fun hy c b v =>
    hy.trans (State.firstReading_tamperWork (hy.running.trans hr) c b v)
  rw [State.startTamper_eq]
  exact step (step (step (step h1 _ _ _) _ _ _) _ _ _) _ _ _

/-- The conditions after the first readings: as read, whether or not an onset was taken. -/
theorem State.startTamper_conditions (s : State) (kind : StartKind) (found : StartReadings) :
    (s.startTamper kind found).tam.coverOpen = found.coverOpen ∧ (s.startTamper kind found).tam.termOpen = found.termOpen ∧
      (s.startTamper kind found).tam.magnet = found.magAsserted ∧ (s.startTamper kind found).tam.codeAttack = s.lockedOut := by
  have reading : ∀ (y : State) c b v, (y.firstReading c b v).tam.conditions = y.tam.conditions := fun y c b v => by
    unfold State.firstReading
    split
    · exact State.latchOnset_conditions _ _ _ _
    · rfl
  have h : (s.startTamper kind found).tam.conditions = (s.readsInputs (s.startLog kind) found).tam.conditions := by
    rw [State.startTamper_eq, reading, reading, reading, reading]
  exact ⟨(congrArg Tamper.coverOpen h :), (congrArg Tamper.termOpen h :), (congrArg Tamper.magnet h :), (congrArg Tamper.codeAttack h :)⟩

/-! ### The check of the records (R184) -/

/-- The state in which the records are checked: those found, and nothing in working state. -/
def State.startBase (s : State) (cause : StartCause) : State :=
  let s0 := s.absorbAtStart
  let kind := s0.backup.retained.kind cause (Config.free s.fresh)
  let ret := s0.backup.retained.atStart kind
  ((s0.onBackup fun _ =>
    { power := .mains, limitExpired := false, domain := .starting cause (ret.startWriteDue kind), lastStart := kind
      retained := ret }).useFree 1).loseWorking

theorem State.startBase_fails (s : State) (cause : StartCause) (found : StartReadings) (r : Record) :
    (s.startBase cause).fails found r = true ↔ s.recordFails found r := by
  obtain ⟨-, -, -, hbad⟩ := s.absorbAtStart_spec
  have hb : (s.startBase cause).store.bad = s.absorbAtStart.store.bad := rfl
  unfold State.fails State.recordFails
  rw [hb, Bool.or_eq_true, List.contains_iff_mem, List.contains_iff_mem, hbad]

/-- A field of one record after the failed ones have been reinitialised. -/
theorem reinitAll_field {α : Type} (f : Records → α) (k : Record) (v : α) (hk : ∀ r : Records, f (r.reinit k) = v)
    (ho : ∀ j, j ≠ k → ∀ r : Records, f (r.reinit j) = f r) (l : List Record) :
    ∀ r, f (l.foldl Records.reinit r) = if k ∈ l then v else f r := by
  induction l with
  | nil => simp
  | cons j l ih =>
    intro r
    rw [List.foldl_cons, ih]
    by_cases hl : k ∈ l
    · rw [if_pos hl, if_pos (List.mem_cons_of_mem _ hl)]
    · rw [if_neg hl]
      by_cases hj : j = k
      · subst hj
        rw [if_pos List.mem_cons_self, hk]
      · rw [if_neg (by simp [hl, Ne.symm hj]), ho j hj]

theorem reinitAll_keeps {α : Type} (f : Records → α) (h : ∀ j r, f (Records.reinit r j) = f r) (l : List Record) :
    ∀ r, f (l.foldl Records.reinit r) = f r := by
  induction l with
  | nil => exact fun _ => rfl
  | cons j l ih => exact fun r => (ih _).trans (h j r)

/-- The records after the check. -/
theorem Records.reinitAll_spec (l : List Record) (r : Records) :
    let t := l.foldl Records.reinit r
    (t.config = r.config ∧ t.identity = r.identity ∧ t.life = r.life ∧ t.account = r.account ∧ t.code = r.code ∧
      t.residue = r.residue) ∧
    t.days = (if Record.days ∈ l then .shipped else r.days) ∧ t.tariff = (if Record.tariff ∈ l then .shipped else r.tariff) ∧
    t.evidence = (if Record.evidence ∈ l then .shipped else r.evidence) ∧
    t.switch = (if Record.switch ∈ l then .shipped else r.switch) ∧
    t.supply = (if Record.supply ∈ l then .shipped else r.supply) := by
  refine ⟨⟨?_, ?_, ?_, ?_, ?_, ?_⟩, ?_, ?_, ?_, ?_, ?_⟩
  · exact reinitAll_keeps Records.config (fun j _ => by cases j <;> rfl) l r
  · exact reinitAll_keeps Records.identity (fun j _ => by cases j <;> rfl) l r
  · exact reinitAll_keeps Records.life (fun j _ => by cases j <;> rfl) l r
  · exact reinitAll_keeps Records.account (fun j _ => by cases j <;> rfl) l r
  · exact reinitAll_keeps Records.code (fun j _ => by cases j <;> rfl) l r
  · exact reinitAll_keeps Records.residue (fun j _ => by cases j <;> rfl) l r
  · exact reinitAll_field Records.days .days _ (fun _ => rfl) (fun j hj _ => by cases j <;> simp [Records.reinit] at hj ⊢) l r
  · exact reinitAll_field Records.tariff .tariff _ (fun _ => rfl) (fun j hj _ => by cases j <;> simp [Records.reinit] at hj ⊢) l r
  · exact reinitAll_field Records.evidence .evidence _ (fun _ => rfl) (fun j hj _ => by cases j <;> simp [Records.reinit] at hj ⊢) l r
  · exact reinitAll_field Records.switch .switch _ (fun _ => rfl) (fun j hj _ => by cases j <;> simp [Records.reinit] at hj ⊢) l r
  · exact reinitAll_field Records.supply .supply _ (fun _ => rfl) (fun j hj _ => by cases j <;> simp [Records.reinit] at hj ⊢) l r

theorem State.mem_raiseFault (s : State) (f g : FaultKind) : g ∈ (s.raiseFault f).life.faults ↔ g = f ∨ g ∈ s.life.faults := by
  rw [State.raiseFault_life]
  split
  · next h =>
    have hf : f ∈ s.life.faults := by simpa using h
    exact ⟨.inr, fun h' => h'.elim (fun e => e ▸ hf) id⟩
  · simp [or_comm]

theorem State.begun_eq (cause : StartCause) (found : StartReadings) (s : State) : s.begun cause found =
    ((s.startBase cause).onStore fun st => { st with
      recs := (reinitRecords.filter ((s.startBase cause).fails found)).foldl Records.reinit st.recs
      bad := st.bad ++ (reinitRecords ++ [Record.residue]).filter fun r => found.failed.contains r && !(s.startBase cause).store.bad.contains r
      unsound := haltingRecords.filter ((s.startBase cause).fails found) }).onLife fun v => { v with
      state := if !(haltingRecords.filter ((s.startBase cause).fails found)).isEmpty then .halted
        else if (s.startBase cause).store.recs.life.state = .serviceWindow then .inService else (s.startBase cause).store.recs.life.state
      window := none, repaired := reinitRecords.filter ((s.startBase cause).fails found) } := rfl

/-- After the check: the records, the life state and the faults it raises. -/
theorem State.checked_spec (s : State) (cause : StartCause) (found : StartReadings) :
    let c := s.checked cause found
    State.agreeBut [.life, .link] (s.begun cause found) c ∧ c.link.inHand = none ∧ c.life.state = (s.begun cause found).life.state ∧
      c.life.repaired = reinitRecords.filter ((s.startBase cause).fails found) ∧
      (.storeFault ∈ c.life.faults ↔ ∃ r ∈ haltingRecords, s.recordFails found r) ∧
      (.storeRepaired ∈ c.life.faults ↔ c.life.repaired ≠ []) ∧ .clockInvalid ∉ c.life.faults := by
  have hun : (s.begun cause found).store.unsound = haltingRecords.filter ((s.startBase cause).fails found) := rfl
  have hrep : (s.begun cause found).life.repaired = reinitRecords.filter ((s.startBase cause).fails found) := rfl
  have hnone : (s.begun cause found).life.faults = [] := rfl
  have hlink : (s.begun cause found).link.inHand = none := rfl
  have hhalt : (haltingRecords.filter ((s.startBase cause).fails found)).isEmpty = true ↔ ¬ ∃ r ∈ haltingRecords, s.recordFails found r := by
    rw [List.isEmpty_iff, List.filter_eq_nil_iff]
    simp only [s.startBase_fails cause found, not_exists, not_and]
  have hrepaired : ∀ (x : State), (x.raiseFault .storeRepaired).life.repaired = x.life.repaired := fun x => by
    rw [State.raiseFault_life]
    split <;> rfl
  have hrepaired' : ∀ (x : State), (x.raiseFault .storeFault).life.repaired = x.life.repaired := fun x => by
    rw [State.raiseFault_life]
    split <;> rfl
  have hin : ∀ (x : State) (f : FaultKind), (x.raiseFault f).link.inHand = x.link.inHand := fun x f =>
    (State.raiseFault_onward (.refl x) f).inHand
  unfold State.checked
  dsimp only
  rw [hun, hrep]
  generalize haltingRecords.filter ((s.startBase cause).fails found) = halting at *
  generalize reinitRecords.filter ((s.startBase cause).fails found) = repaired at *
  generalize s.begun cause found = b at *
  cases hr : repaired.isEmpty <;> cases hh : halting.isEmpty
  all_goals
    rw [hh] at hhalt
    simp only [Bool.false_eq_true, if_true, if_false, false_iff, true_iff, not_not] at hhalt ⊢
    refine ⟨by simp [State.agreeBut_iff], by simp [hin, hlink], by simp, by simp [hrepaired, hrepaired', hrep], ?_, ?_, ?_⟩
  all_goals simp [State.mem_raiseFault, hnone, hrep, hhalt, hrepaired, hrepaired', ← List.isEmpty_iff, hr]

end Sys2Proof.Machine
end

section
/-! A start: its classification, the check, and what its blocks begin with; the start write and the end (O59). -/

namespace Sys2Proof.Machine

variable {s t x y : State}

/-! ### The stages of a start -/

/-- The kind of the start that begins (R172). -/
def State.startKind (s : State) (cause : StartCause) : StartKind := (s.startBase cause).backup.lastStart

/-- Whether the start owes a start write (R174). -/
def State.startDue (s : State) (cause : StartCause) : Bool :=
  (s.startBase cause).backup.retained.startWriteDue (s.startKind cause)

/-- The state with metrology, supervision and the switch begun, before the tamper unit. -/
def State.startBlocks (s : State) (cause : StartCause) (found : StartReadings) : State :=
  (((s.checked cause found).startMetrology found).startSupervision (s.startKind cause)).startSwitch

/-- The state with all blocks begun, before their writes are asked for. -/
def State.startWork (s : State) (cause : StartCause) (found : StartReadings) : State :=
  ((s.startBlocks cause found).startTamper (s.startKind cause) found).startClock

theorem State.beginStart_eq (s : State) (cause : StartCause) (found : StartReadings) : s.beginStart cause found =
    ((s.startWork cause found).onStore fun st => { st with
      flight := [], waiting := (s.startWork cause found).startRequests (s.startKind cause) (s.startDue cause) }).pump := rfl

theorem exec_start (found : StartReadings) {cause : StartCause} (hc : s.backup.domain.cause = some cause)
    (hl : s.backup.limitExpired = false) : exec (.start found) s = .next (s.beginStart cause found) := by
  change execStart found s = _
  simp [execStart, State.startWith, hc, hl]

/-! ### The classification (R172, R173) -/

theorem State.startBase_backup (s : State) (cause : StartCause) : (s.startBase cause).backup =
    { power := .mains, limitExpired := false, domain := .starting cause (s.startDue cause), lastStart := s.startKind cause
      retained := s.absorb.backup.retained.atStart (s.startKind cause) } := rfl

theorem State.startKind_eq (s : State) (cause : StartCause) :
    s.startKind cause = s.absorb.backup.retained.kind cause (Config.free s.fresh) := rfl

theorem State.startKind_of_lost (h : s.backup.retained.intact = false) (cause : StartCause) : s.startKind cause = .cold := by
  rw [s.startKind_eq, Retained.kind, s.absorb_clock.2.2, h]
  rfl

/-- Without a start write in flight the retained memory is as it was. -/
theorem State.absorb_retained (h : ∀ w ∈ s.store.flight, w.purpose ≠ .startWrite) : s.absorb.backup.retained = s.backup.retained := by
  have hno : (s.store.flight.any fun w => w.purpose.isStartWrite) = false := by
    rw [List.any_eq_false]
    intro w hw
    have := h w hw
    cases hp : w.purpose <;> simp_all [Purpose.isStartWrite]
  unfold State.absorb
  rw [hno]
  rfl

theorem State.startKind_of_intact (h : s.backup.retained.intact = true) (hf : ∀ w ∈ s.store.flight, w.purpose ≠ .startWrite)
    (cause : StartCause) :
    (s.backup.retained.offMark = true → s.backup.retained.coldMark = true → s.startKind cause = .cold) ∧
    (s.backup.retained.offMark = true → s.backup.retained.coldMark = false → s.startKind cause = .warm) ∧
    (s.backup.retained.offMark = false → (cause = .resetLine → s.startKind cause = .resetLine) ∧
      (cause = .restart → s.startKind cause = .restart)) := by
  rw [s.startKind_eq, State.absorb_retained hf, Retained.kind]
  refine ⟨fun h1 h2 => ?_, fun h1 h2 => ?_, fun h1 => ⟨fun h2 => ?_, fun h2 => ?_⟩⟩
  · simp [h, h1, h2]
  · simp [h, h1, h2]
  · simp [h, h1, h2, StartCause.kind]
  · simp [h, h1, h2, StartCause.kind]

/-- The clock as the start finds it. -/
theorem State.startBase_clock (s : State) (cause : StartCause) :
    (s.backup.retained.intact = false → (s.startBase cause).clock = 0 ∧ (s.startBase cause).clockValid = false) ∧
    (s.backup.retained.intact = true → (s.startBase cause).clock = s.clock ∧ (s.startBase cause).clockValid = s.clockValid) := by
  obtain ⟨h1, h2, h3⟩ := s.absorb_clock
  simp only [State.clock, State.clockValid, s.startBase_backup] at h1 h2 ⊢
  rw [← h3, ← h1, ← h2]
  generalize s.absorb.backup.retained = r
  unfold Retained.atStart
  refine ⟨fun hi => ?_, fun hi => ?_⟩
  · simp only [hi, Bool.false_eq_true, if_false]
    split <;> exact ⟨rfl, rfl⟩
  · simp only [hi, if_true]
    split <;> exact ⟨rfl, rfl⟩

/-! ### The blocks begun -/

theorem State.begun_recs_eq (s : State) (cause : StartCause) (found : StartReadings) : (s.begun cause found).store.recs =
    (reinitRecords.filter ((s.startBase cause).fails found)).foldl Records.reinit s.recordsFound := by
  rw [← s.absorbAtStart_spec.1]
  rfl

/-- The life state after the check (R178, R184). -/
theorem State.begun_life (s : State) (cause : StartCause) (found : StartReadings) :
    ((∃ r ∈ haltingRecords, s.recordFails found r) → (s.begun cause found).life.state = .halted) ∧
    (¬ (∃ r ∈ haltingRecords, s.recordFails found r) → (s.begun cause found).life.state =
      if s.recordsFound.life.state = .serviceWindow then .inService else s.recordsFound.life.state) := by
  rw [← s.absorbAtStart_spec.1, s.begun_eq]
  have hhalt : (!(haltingRecords.filter ((s.startBase cause).fails found)).isEmpty) = true ↔ ∃ r ∈ haltingRecords, s.recordFails found r := by
    simp [State.startBase_fails]
  exact ⟨fun h => if_pos (hhalt.2 h), fun h => if_neg (mt hhalt.1 h)⟩

theorem State.begun_pending (s : State) (cause : StartCause) (found : StartReadings) : (s.begun cause found).pending = s.pending := by
  have h : s.absorb.pending = s.pending := by
    unfold State.absorb
    split <;> rfl
  exact h

/-- The check leaves which records fail as it was: it marks only records that have been found failing. -/
theorem State.checked_fails (s : State) (cause : StartCause) (found : StartReadings) (r : Record) :
    (s.checked cause found).fails found r = true ↔ s.recordFails found r := by
  have hstore : (s.checked cause found).store = (s.begun cause found).store := (s.checked_spec cause found).1 .store (by decide)
  rw [← s.startBase_fails cause found r]
  unfold State.fails
  rw [hstore, s.begun_eq]
  simp only [State.onStore, State.onLife, Bool.or_eq_true, List.contains_iff_mem, List.mem_append, List.mem_filter, Bool.and_eq_true]
  constructor
  · rintro ((h | ⟨-, h, -⟩) | h)
    exacts [.inl h, .inr h, .inr h]
  · exact fun h => h.imp .inl id

theorem State.startBlocks_spec (s : State) (cause : StartCause) (found : StartReadings) :
    let b := s.begun cause found
    let x := s.startBlocks cause found
    State.agreeBut [.reg, .sw, .sup, .life, .link] b x ∧ x.link = (s.checked cause found).link ∧
      x.life = (s.checked cause found).life ∧
      x.sup = .begin (b.store.recs.supply.atStart (s.startKind cause) b.clock) ∧
      x.sw = { b.sw with
        record := { b.store.recs.switch with holds := b.store.recs.switch.holds.put .fault (x.life.state == .halted) }
        sensing := some .atStart } ∧
      (s.recordFails found .residue ∨ b.store.recs.residue.valid = false →
        x.reg = { Registration.begin with established := true, blockOpen := true }) ∧
      (¬ s.recordFails found .residue → b.store.recs.residue.valid = true →
        x.reg = { Registration.begin with acc := b.store.recs.residue.acc, established := false, blockOpen := true }) := by
  obtain ⟨hagree, -⟩ := s.checked_spec cause found
  have hfails := s.checked_fails cause found .residue
  have hreg : (s.checked cause found).reg = .begin := hagree .reg (by decide)
  have hsw : (s.checked cause found).sw = (s.begun cause found).sw := hagree .sw (by decide)
  have hstore : (s.checked cause found).store = (s.begun cause found).store := hagree .store (by decide)
  have hback : (s.checked cause found).backup = (s.begun cause found).backup := hagree .backup (by decide)
  have hmet : State.agreeBut [.reg] (s.checked cause found) ((s.checked cause found).startMetrology found) := by
    unfold State.startMetrology
    split <;> simp [State.agreeBut_iff]
  have hregs : (s.startBlocks cause found).reg = ((s.checked cause found).startMetrology found).reg := rfl
  have hstore' : ((s.checked cause found).startMetrology found).store = (s.begun cause found).store := (hmet .store (by decide)).trans hstore
  have hback' : ((s.checked cause found).startMetrology found).backup = (s.begun cause found).backup := (hmet .backup (by decide)).trans hback
  have hsw' : ((s.checked cause found).startMetrology found).sw = (s.begun cause found).sw := (hmet .sw (by decide)).trans hsw
  have hlater : State.agreeBut [.sup, .sw] ((s.checked cause found).startMetrology found) (s.startBlocks cause found) := by
    simp [State.agreeBut_iff, State.startBlocks, State.startSupervision, State.startSwitch]
  refine ⟨((hagree.trans hmet).trans hlater).mono (by decide), hmet .link (by decide), hmet .life (by decide), ?_, ?_, fun h => ?_,
    fun h1 h2 => ?_⟩
  · simp [State.startBlocks, State.startSupervision, State.startSwitch, State.clock, hstore', hback']
  · simp [State.startBlocks, State.startSupervision, State.startSwitch, hstore', hsw']
  · rw [hregs, State.startMetrology, hstore, if_pos, State.reg_onReg, hreg]
    rw [Bool.or_eq_true, hfails]
    exact h.imp id fun h => by simp [h]
  · rw [hregs, State.startMetrology, hstore, if_neg, State.reg_onReg, hreg]
    rw [Bool.or_eq_true, hfails]
    simp [h1, h2]

/-- The start work is done: what the blocks hold, and what they ask to be written. -/
theorem State.startWork_spec (s : State) (cause : StartCause) (found : StartReadings) :
    let x := s.startBlocks cause found
    let w := s.startWork cause found
    State.agreeBut [.store, .tam, .life, .link] x w ∧ x.sameRecords w ∧ w.link.inHand = none ∧
      w.life.state = x.life.state ∧ w.life.repaired = x.life.repaired ∧
      (∀ f, f ∈ w.life.faults ↔ (f = .clockInvalid ∧ x.clockValid = false) ∨ f ∈ x.life.faults) ∧
      w.tam = (x.startTamper (s.startKind cause) found).tam := by
  obtain ⟨hx, hlink, -⟩ := s.startBlocks_spec cause found
  have hnone : (s.startBlocks cause found).link.inHand = none := by rw [hlink, (s.checked_spec cause found).2.1]
  have hr : (s.startBlocks cause found).running = false := by
    unfold State.running
    rw [hx .backup (by decide)]
    rfl
  have htamper := State.startTamper_tamperWork hr (s.startKind cause) found
  unfold State.startWork
  dsimp only
  generalize (s.startBlocks cause found).startTamper (s.startKind cause) found = y at *
  generalize s.startBlocks cause found = x at *
  have hlife : y.life = x.life := htamper.agrees .life (by decide)
  have hvalid : y.clockValid = x.clockValid := congrArg (fun b : Backup => b.retained.valid) (htamper.agrees .backup (by decide))
  unfold State.startClock
  rw [hvalid]
  cases hv : x.clockValid
  · rw [if_neg (by decide)]
    have hon := htamper.onward.trans (State.raiseFault_onward (.refl y) .clockInvalid)
    refine ⟨(htamper.agrees.trans (t := y.raiseFault .clockInvalid) (q := [.life, .link]) (by simp [State.agreeBut_iff])).mono (by decide),
      hon.records, hon.inHand.trans hnone, by simp [hlife], ?_, fun f => ?_, by simp⟩
    · rw [State.raiseFault_life, hlife]
      split <;> rfl
    · rw [State.mem_raiseFault, hlife, eq_self, and_true]
  · rw [if_pos rfl]
    exact ⟨htamper.agrees.mono (by decide), htamper.onward.records, htamper.onward.inHand.trans hnone, by rw [hlife], by rw [hlife],
      fun f => by simp [hlife], rfl⟩

/-- The state after a start has begun, in terms of its stages. -/
theorem State.beginStart_spec (s : State) (cause : StartCause) (found : StartReadings) :
    let b := s.begun cause found
    let x := s.startBlocks cause found
    let t := s.beginStart cause found
    State.agreeBut [.store, .reg, .sw, .sup, .tam, .life, .link] b t ∧ b.sameRecords t ∧ t.link.inHand = none ∧
      t.reg = x.reg ∧ t.sw = x.sw ∧ t.sup = x.sup ∧ t.life.state = x.life.state ∧ t.life.repaired = x.life.repaired ∧
      (∀ f, f ∈ t.life.faults ↔ (f = .clockInvalid ∧ b.clockValid = false) ∨ f ∈ x.life.faults) ∧
      t.tam = (x.startTamper (s.startKind cause) found).tam ∧
      ∀ p ∈ (s.startWork cause found).startRequests (s.startKind cause) (s.startDue cause), p ∈ t.underWay := by
  obtain ⟨hx, -⟩ := s.startBlocks_spec cause found
  obtain ⟨hw, hrecs, hnone, hstate, hrep, hfaults, htam⟩ := s.startWork_spec cause found
  have hvalid : (s.startBlocks cause found).clockValid = (s.begun cause found).clockValid :=
    congrArg (fun b : Backup => b.retained.valid) (hx .backup (by decide))
  have hxrecs : (s.begun cause found).sameRecords (s.startBlocks cause found) := by
    have h : (s.startBlocks cause found).store = (s.begun cause found).store := hx .store (by decide)
    simp [State.sameRecords, h]
  dsimp only
  rw [s.beginStart_eq, ← hvalid]
  generalize hreqs : (s.startWork cause found).startRequests (s.startKind cause) (s.startDue cause) = reqs
  have hlast : State.agreeBut [.store] (s.startWork cause found)
      ((s.startWork cause found).onStore fun st => { st with flight := [], waiting := reqs }).pump := by simp [State.agreeBut_iff]
  refine ⟨((hx.trans hw).trans hlast).mono (by decide), ?_, by simpa using hnone, ?_, ?_, ?_, by simpa using hstate, by simpa using hrep,
    by simpa using hfaults, by simpa using htam, fun p hp => ?_⟩
  · obtain ⟨h1, h2, h3⟩ := hrecs
    obtain ⟨k1, k2, k3⟩ := hxrecs
    exact ⟨by simp [h1, k1], by simp [h2, k2], by simp [h3, k3]⟩
  · exact (hlast .reg (by decide)).trans (hw .reg (by decide))
  · exact (hlast .sw (by decide)).trans (hw .sw (by decide))
  · exact (hlast .sup (by decide)).trans (hw .sup (by decide))
  · exact (State.pump_underWay _).mem_iff.2 (by simpa [State.underWay] using hp)

/-- What the start asks to be written includes the residue record, where it was restored (R26). -/
theorem State.startRequests_residue (h : s.reg.established = false) (kind : StartKind) (due : Bool) :
    .residue false false ∈ s.startRequests kind due := by
  simp [State.startRequests, whenDue, h]

/-! ### The start write and the end (R170, R174) -/

/-- The state at the end of the start write, before the start may end. -/
def State.startCleared (s : State) (w : Write) (rest : List Write) : State :=
  (s.stored w rest).onBackup fun b => { b with
    retained := b.retained.cleared b.lastStart
    domain := match b.domain with
      | .starting c _ => .starting c false
      | d => d }

theorem startWriteComplete_effect {cause : StartCause} {due : Bool} {w : Write} {rest : List Write} (hm : s.mains = true)
    (hd : s.backup.domain = .starting cause due) (h : s.completes Purpose.isStartWrite w rest) :
    exec .startWriteComplete s = .next (s.startCleared w rest).tryEndStart.pump ∧
      (s.sw.sensing = some .atStart → (s.startCleared w rest).tryEndStart = s.startCleared w rest) ∧
      (s.sw.sensing ≠ some .atStart → (s.startCleared w rest).tryEndStart = (s.startCleared w rest).finishStart) := by
  have hdom : (s.startCleared w rest).backup.domain = .starting cause false := by simp [State.startCleared, hd]
  have hmains : (s.startCleared w rest).mains = true := hm
  have htry : (s.startCleared w rest).tryEndStart =
      if s.sw.sensing = some .atStart then s.startCleared w rest else (s.startCleared w rest).finishStart := by
    unfold State.tryEndStart
    rw [hdom]
    rfl
  refine ⟨?_, fun hs => by rw [htry, if_pos hs], fun hs => by rw [htry, if_neg hs]⟩
  refine congrArg Host.Outcome.next (s.complete_mains startWritten h ?_)
  change (s.startCleared w rest).tryEndStart.mains = true
  rw [htry]
  split
  · exact hmains
  · rw [State.mains, ((s.startCleared w rest).finishStart_spec hmains).1]
    exact hmains

end Sys2Proof.Machine

open Sys2Proof Sys2Proof.Machine

/-- Settles O59: the check, the blocks' begin and the writes stage by stage; the end by State.finishStart_spec. -/
theorem startClassifiesAndJudges : Obligations.StartClassifiesAndJudges := by
  refine ⟨fun found s h => ?_, fun found cause s hc hl hlife => ?_, fun cause due s w rest hm hd hw => ?_⟩
  · refine congrArg Host.Outcome.next ?_
    unfold State.startWith
    split
    · next h1 h2 => simp [h1, h2] at h
    · rfl
  · obtain ⟨hagree, ⟨hrecs, -, hunsound⟩, hnone, hreg, hsw, hsup, hstate, hrep, hfaults, htam, hreqs⟩ := s.beginStart_spec cause found
    obtain ⟨-, -, hxlife, hxsup, hxsw, hxreg, hxreg'⟩ := s.startBlocks_spec cause found
    obtain ⟨-, -, hcstate, hcrep, hcstore, hcrepaired, hcclock⟩ := s.checked_spec cause found
    obtain ⟨⟨hconfig, hident, hlifeRec, hacct, hcode, hres⟩, hdays, htariff, hev, hswitch, hsupply⟩ :=
      Records.reinitAll_spec (reinitRecords.filter ((s.startBase cause).fails found)) s.recordsFound
    obtain ⟨hcover, hterm, hmag, -⟩ := (s.startBlocks cause found).startTamper_conditions (s.startKind cause) found
    obtain ⟨hlost, hintact⟩ := s.startBase_clock cause
    have hback : (s.beginStart cause found).backup = (s.startBase cause).backup := hagree .backup (by decide)
    have hclock : (s.beginStart cause found).clock = (s.startBase cause).clock := congrArg (fun b : Backup => b.retained.clock) hback
    have hvalid : (s.beginStart cause found).clockValid = (s.startBase cause).clockValid :=
      congrArg (fun b : Backup => b.retained.valid) hback
    have hrecs := hrecs.trans (s.begun_recs_eq cause found)
    rw [exec_start found hc hl]
    generalize hT : s.beginStart cause found = t at *
    refine ⟨t, rfl, by rw [State.mains, hback]; rfl, ⟨_, by rw [hback, s.startBase_backup]⟩, ?_, ?_⟩
    · intro p hp
      cases p
      case pending => exact (hagree .pending (by decide)).trans (s.begun_pending cause found)
      all_goals exact absurd (by decide) hp
    have hbres : (s.begun cause found).store.recs.residue = s.recordsFound.residue := by rw [s.begun_recs_eq, hres]
    have hstored : ∀ r, r ∈ reinitRecords.filter ((s.startBase cause).fails found) ↔ r ∈ reinitRecords ∧ s.recordFails found r :=
      fun r => by rw [List.mem_filter, s.startBase_fails cause found]
    have hlifeState : t.life.state = (s.begun cause found).life.state := by rw [hstate, hxlife, hcstate]
    obtain ⟨hhalted, hgoes⟩ := s.begun_life cause found
    have hxfaults : ∀ f, f ∈ t.life.faults ↔ (f = .clockInvalid ∧ (s.begun cause found).clockValid = false) ∨
        f ∈ (s.checked cause found).life.faults := by
      rw [← hxlife]
      exact hfaults
    refine ⟨fun hi => ?_, fun hi => ?_, fun hf => ?_, fun hf => ?_, ?_, fun r hr => ?_, by rw [hrecs, hconfig], by rw [hrecs, hident],
      by rw [hrecs, hlifeRec], by rw [hrecs, hacct], by rw [hrecs, hcode], fun hf => ?_, fun hf => ?_, fun hf => ?_, fun hf => ?_,
      fun hf => ?_, fun hf => ?_, fun r => ?_, ?_, ?_, fun hf => ?_, fun hf hv => ?_, ?_⟩
    · rw [hback, hclock, hvalid]
      exact ⟨State.startKind_of_lost hi cause, hlost hi⟩
    · rw [hback, hclock, hvalid]
      exact ⟨(hintact hi).1, (hintact hi).2, fun hfl => State.startKind_of_intact hi hfl cause⟩
    · refine ⟨?_, (hxfaults _).2 (.inr (hcstore.2 hf))⟩
      rw [hlifeState, hhalted hf]
    · refine ⟨fun h => ?_, ?_⟩
      · exact hf (hcstore.1 (((hxfaults _).1 h).resolve_left fun h => nomatch h.1))
      · rw [hlifeState, hgoes hf]
    · rw [hsw, hxsw, hstate]
      exact beq_iff_eq
    · rw [State.sound, hunsound, Bool.not_eq_false', List.contains_iff_mem]
      exact (List.mem_filter.trans (and_iff_right hr |>.trans (s.startBase_fails cause found r))).symm
    · rw [hrecs, hdays, if_pos ((hstored _).2 ⟨by decide, hf⟩)]
    · rw [hrecs, hdays, if_neg fun h => hf ((hstored _).1 h).2]
    · rw [hrecs, htariff, if_pos ((hstored _).2 ⟨by decide, hf⟩)]
    · rw [hrecs, htariff, if_neg fun h => hf ((hstored _).1 h).2]
    · rw [hrecs, hswitch, if_pos ((hstored _).2 ⟨by decide, hf⟩)]
    · rw [hrecs, hswitch, if_neg fun h => hf ((hstored _).1 h).2]
    · rw [hrep, hxlife, hcrep, hstored]
      rfl
    · rw [hxfaults, hrep, hxlife, ← hcrepaired]
      simp
    · rw [hxfaults, hvalid]
      exact ⟨fun h => (h.resolve_right hcclock).2, fun h => .inl ⟨rfl, h⟩⟩
    · rw [hreg, hxreg (hf.imp id fun h => by rw [hbres, h])]
      exact ⟨rfl, rfl⟩
    · have h := hxreg' hf (by rw [hbres, hv])
      refine ⟨by rw [hreg, h, hbres], by rw [hreg, h], hreqs _ (State.startRequests_residue ?_ _ _)⟩
      rw [(s.startWork_spec cause found).1 .reg (by decide), h]
    · have hblock : t.reg.blockOpen = true ∧ t.reg.trace = [] ∧ t.reg.last = none := by
        rw [hreg]
        by_cases hf : s.recordFails found .residue ∨ (s.begun cause found).store.recs.residue.valid = false
        · rw [hxreg hf]
          exact ⟨rfl, rfl, rfl⟩
        · rw [not_or, Bool.not_eq_false] at hf
          rw [hxreg' hf.1 hf.2]
          exact ⟨rfl, rfl, rfl⟩
      obtain ⟨hopen, htrace, hlast⟩ := hblock
      refine ⟨hopen, htrace, hlast, by rw [hsup, hxsup]; rfl, by rw [hsw, hxsw], by rw [hsw, hxsw]; rfl, hagree .acct (by decide),
        hagree .code (by decide), hnone, ?_⟩
      rw [htam]
      exact ⟨hcover, hterm, hmag⟩
  · obtain ⟨hexec, hwaits, hends⟩ := startWriteComplete_effect hm hd hw
    have hfm : (s.startCleared w rest).mains = true := hm
    have hback : ∃ d, (s.startCleared w rest).tryEndStart.pump.backup = { (s.startCleared w rest).backup with domain := d } := by
      by_cases hs : s.sw.sensing = some .atStart
      · exact ⟨(s.startCleared w rest).backup.domain, by rw [hwaits hs]; simp⟩
      · exact ⟨.running, by rw [hends hs, ← ((s.startCleared w rest).finishStart_spec hfm).1]; simp⟩
    obtain ⟨d, hback⟩ := hback
    refine ⟨_, hexec, by rw [hback]; rfl, by rw [hback]; rfl, fun hk => ?_, fun hk => ?_, by rw [hback]; rfl, by rw [hback]; rfl,
      fun hs => ?_, fun hs => ?_⟩
    · rw [hback]
      change (s.backup.retained.cleared s.backup.lastStart).outageStart = none
      rcases hk with hk | hk <;> rw [hk] <;> rfl
    · rw [hback]
      change (s.backup.retained.cleared s.backup.lastStart).outageStart = _
      rcases hk with hk | hk <;> rw [hk] <;> rfl
    · rw [hwaits hs]
      simp [State.startCleared, hd]
    · obtain ⟨hb, -, -, hlifeN, hpowerN, hswitchN, -, hload, hoff⟩ := (s.startCleared w rest).finishStart_spec hfm
      rw [hends hs]
      refine ⟨by simp [State.running, hb], by simpa using hpowerN, by simpa using hlifeN, by simpa using hswitchN, fun hc => ?_,
        fun u period hbo hr => ?_⟩
      · simpa using hload hc
      · simpa using hoff u period hbo hr
end

section
/-! What a start's appends and edits leave of the log: OPEN records, the record of the outage, and what new slots hold (R159, R162, R164). -/

namespace Sys2Proof.Machine

variable {s t x y : State}

/-! ### The log that is appended to -/

/-- b is a with its slot perhaps given up; an OPEN record keeps it. -/
def EvRecord.changesSlot (a b : EvRecord) : Prop := b = { a with slot := b.slot } ∧ (a.state = .opened → b = a)

theorem EvRecord.changesSlot_refl (a : EvRecord) : a.changesSlot a := ⟨rfl, fun _ => rfl⟩

theorem EvRecord.changesSlot.state {a b : EvRecord} (h : a.changesSlot b) : b.state = a.state := by rw [h.1]

theorem forall₂_split {α : Type} {R : α → α → Prop} {a : α} {newer : List α} : ∀ {older m : List α},
    List.Forall₂ R (older ++ a :: newer) m →
    ∃ older' b newer', m = older' ++ b :: newer' ∧ R a b ∧ List.Forall₂ R newer newer'
  | [], _, .cons hab h => ⟨[], _, _, rfl, hab, h⟩
  | _ :: _, _, .cons _ h => by
    obtain ⟨older', b, newer', rfl, hab, hn⟩ := forall₂_split h
    exact ⟨_ :: older', b, newer', rfl, hab, hn⟩

theorem forall₂_mem_right {α : Type} {R : α → α → Prop} {l m : List α} (h : List.Forall₂ R l m) : ∀ b ∈ m, ∃ a ∈ l, R a b := by
  induction h with
  | nil => simp
  | cons hab _ ih =>
    refine List.forall_mem_cons.2 ⟨⟨_, List.mem_cons_self, hab⟩, fun b hb => ?_⟩
    obtain ⟨a, ha, hr⟩ := ih b hb
    exact ⟨a, List.mem_cons_of_mem _ ha, hr⟩

theorem forall₂_mem_left {α : Type} {R : α → α → Prop} {l m : List α} (h : List.Forall₂ R l m) : ∀ a ∈ l, ∃ b ∈ m, R a b :=
  fun a ha => forall₂_mem_right (R := flip R) (List.Forall₂.flip h) a ha

theorem chooseSlot_changesSlot {log log' : List EvRecord} {slots : List (Option Slot)} {k : Nat}
    (h : chooseSlot log slots = some (k, log')) : List.Forall₂ EvRecord.changesSlot log log' := by
  unfold chooseSlot at h
  split at h
  · obtain ⟨-, rfl⟩ := Prod.mk.inj (Option.some.inj h)
    exact List.forall₂_same.2 fun a _ => a.changesSlot_refl
  · rcases takeFromFinal_spec log with ⟨h1, -⟩ | ⟨older, r, newer, j, h1, rfl, hf, -, -⟩
    · simp [h1] at h
    · obtain ⟨-, rfl⟩ := Prod.mk.inj (Option.some.inj (h1.symm.trans h))
      refine List.rel_append (List.forall₂_same.2 fun a _ => a.changesSlot_refl) (.cons ⟨rfl, fun ho => ?_⟩
        (List.forall₂_same.2 fun a _ => a.changesSlot_refl))
      simpa [ho] using hf.not_opened

theorem makeRoom_subset (log : List EvRecord) (slots : List (Option Slot)) : ∀ r ∈ (makeRoom log slots).1, r ∈ log := by
  unfold makeRoom
  split
  · exact fun _ => id
  · rcases removeOldestFinal_spec log with ⟨h, -⟩ | ⟨older, r, newer, h, rfl, -, -⟩
    · rw [h]
      exact fun _ => id
    · rw [h]
      intro x hx
      simp only [List.mem_append, List.mem_cons] at hx ⊢
      tauto

theorem makeRoom_opened (log : List EvRecord) (slots : List (Option Slot)) :
    ∀ r ∈ log, r.state = .opened → r ∈ (makeRoom log slots).1 := by
  unfold makeRoom
  split
  · exact fun _ hr _ => hr
  · rcases removeOldestFinal_spec log with ⟨h, -⟩ | ⟨older, r, newer, h, rfl, hf, -⟩
    · rw [h]
      exact fun _ hr _ => hr
    · rw [h]
      intro x hx ho
      have hne : x ≠ r := fun e => by simpa [← e, ho] using hf.not_opened
      simp only [List.mem_append, List.mem_cons] at hx ⊢
      tauto

/-- The log after a record has been appended, under the number that was next. -/
theorem logAppend_log (r : EvRecord) (seek : Bool) (trace : List Summary) (ev : EvidenceRec) (slots : List (Option Slot)) :
    ∃ log slot, (logAppend r seek trace ev slots).1.log = log ++ [{ r with number := ev.next, slot := slot }] ∧
      List.Forall₂ EvRecord.changesSlot (makeRoom ev.log slots).1 log ∧ (seek = false → slot = none) := by
  unfold logAppend
  dsimp only
  split
  · next k log h =>
    split at h
    · next hs => exact ⟨log, some k, rfl, chooseSlot_changesSlot h, by simp [hs]⟩
    · simp at h
  · exact ⟨_, none, rfl, List.forall₂_same.2 fun a _ => a.changesSlot_refl, fun _ => rfl⟩

/-- A slot after an append was there before, or has been taken for the record with the trace alone. -/
theorem logAppend_slots {r : EvRecord} {seek : Bool} {trace : List Summary} {ev : EvidenceRec} {slots : List (Option Slot)} {sl : Slot}
    (h : some sl ∈ (logAppend r seek trace ev slots).2.1) : some sl ∈ slots ∨ (sl.pre = trace ∧ sl.post = []) := by
  have hroom : some sl ∈ (makeRoom ev.log slots).2 → some sl ∈ slots := fun h =>
    logAppend_slots_of_not_seek (r := r) (trace := trace) (by simpa [logAppend] using h)
  unfold logAppend at h
  dsimp only at h
  split at h
  · rcases List.mem_or_eq_of_mem_set h with h | h
    · exact .inl (hroom h)
    · obtain rfl := Option.some.inj h
      exact .inr ⟨rfl, rfl⟩
  · exact .inl (hroom h)

/-! ### A record that stays (R159) -/

/-- The log holds the record o, its slot perhaps given up, and after it OPEN records alone. -/
def tells (o : EvRecord) (log : List EvRecord) : Prop :=
  ∃ older o' newer, log = older ++ o' :: newer ∧ o' = { o with slot := o'.slot } ∧ ∀ r ∈ newer, r.state = .opened

/-- An ordered log has at most as many OPEN records as there are classes. -/
theorem EvidenceRec.ordered.opened_le {e : EvidenceRec} (he : e.ordered) :
    (e.log.filter fun r => r.state = .opened).length ≤ allClasses.length := by
  obtain ⟨-, -, -, ho, -⟩ := he
  rw [← List.length_map (f := EvRecord.cls)]
  exact (List.subperm_of_subset ho fun k _ => by cases k <;> decide).length_le

/-- In a full log with no ACTIVE record, what comes before a record that is followed by OPEN ones alone holds a final one. -/
theorem EvidenceRec.ordered.older_final {e : EvidenceRec} (he : e.ordered) (ha : ∀ r ∈ e.log, r.state ≠ .active)
    (hl : 48 ≤ e.log.length) {older newer : List EvRecord} {o : EvRecord} (h : e.log = older ++ o :: newer)
    (hn : ∀ r ∈ newer, r.state = .opened) : ∃ r ∈ older, r.isFinal := by
  by_contra hno
  have hopen : ∀ r ∈ older, r.state = .opened := fun r hr => by
    have h1 := ha r (by simp [h, hr])
    have h2 : ¬ r.isFinal := fun hf => hno ⟨r, hr, hf⟩
    cases hs : r.state <;> simp_all [EvRecord.isFinal]
  have hle := he.opened_le
  rw [h, List.filter_append, List.filter_eq_self.2 fun r hr => by simp [hopen r hr]] at hle
  have h3 : newer.length ≤ ((o :: newer).filter fun r => r.state = .opened).length := by
    rw [List.filter_cons]
    have : newer.filter (fun r => r.state = .opened) = newer := List.filter_eq_self.2 fun r hr => by simp [hn r hr]
    split <;> simp [this]
  have h4 : allClasses.length ≤ 20 := by decide
  rw [h] at hl
  simp only [List.length_append, List.length_cons] at hl hle
  omega

theorem tells_makeRoom {o : EvRecord} {e : EvidenceRec} {slots : List (Option Slot)} (he : e.ordered)
    (ha : ∀ r ∈ e.log, r.state ≠ .active) (h : tells o e.log) : tells o (makeRoom e.log slots).1 := by
  obtain ⟨older, o', newer, hlog, ho, hn⟩ := h
  obtain ⟨hsame, hout⟩ := roomMade_makeRoom e.log slots
  by_cases hl : e.log.length < 48
  · rw [(hsame (.inl hl)).1]
    exact ⟨older, o', newer, hlog, ho, hn⟩
  · rcases removeOldestFinal_spec older with ⟨-, hno⟩ | ⟨first, r, rest, -, rfl, hf, hfirst⟩
    · obtain ⟨r, hr, hf⟩ := he.older_final ha (Nat.le_of_not_lt hl) hlog hn
      exact absurd hf (hno r hr)
    · rw [(hout first r (rest ++ o' :: newer) (Nat.le_of_not_lt hl) (by simp [hlog]) hf hfirst).1]
      exact ⟨first ++ rest, o', newer, by simp, ho, hn⟩

/-- An OPEN record appended leaves the record told of. -/
theorem tells_logAppend {o r : EvRecord} {seek : Bool} {trace : List Summary} {e : EvidenceRec} {slots : List (Option Slot)}
    (he : e.ordered) (ha : ∀ r ∈ e.log, r.state ≠ .active) (hr : r.state = .opened) (h : tells o e.log) :
    tells o (logAppend r seek trace e slots).1.log := by
  obtain ⟨log, slot, hlog, hf, -⟩ := logAppend_log r seek trace e slots
  obtain ⟨older, o', newer, hroom, ho, hn⟩ := tells_makeRoom (slots := slots) he ha h
  rw [hroom] at hf
  obtain ⟨older', b, newer', rfl, hb, hnew⟩ := forall₂_split hf
  refine ⟨older', b, newer' ++ [_], hlog.trans (List.append_assoc _ _ _), ?_, fun x hx => ?_⟩
  · rw [hb.1, ho]
  · rcases List.mem_append.1 hx with hx | hx
    · obtain ⟨a, ham, hab⟩ := forall₂_mem_right hnew x hx
      rw [hab.state, hn a ham]
    · rw [List.mem_singleton.1 hx]
      exact hr

/-- An edit of OPEN records leaves the record told of, which is none. -/
theorem tells_map {o : EvRecord} {log : List EvRecord} {f : EvRecord → EvRecord} (hs : ∀ r, (f r).state = r.state)
    (hf : ∀ r, r.state ≠ .opened → f r = r) (ho : o.state ≠ .opened) (h : tells o log) : tells o (log.map f) := by
  obtain ⟨older, o', newer, rfl, he, hn⟩ := h
  have ho' : f o' = o' := hf o' (by rw [he]; exact ho)
  refine ⟨older.map f, o', newer.map f, by simp [ho'], he, fun r hr => ?_⟩
  obtain ⟨a, ha, rfl⟩ := List.mem_map.1 hr
  rw [hs, hn a ha]

/-- The record appended last is told of. -/
theorem tells_last (log : List EvRecord) (o : EvRecord) (slot : Option Nat) : tells o (log ++ [{ o with slot := slot }]) :=
  ⟨log, _, [], rfl, rfl, by simp⟩

theorem tells.mem {o : EvRecord} {log : List EvRecord} (h : tells o log) : ∃ r ∈ log, r = { o with slot := r.slot } := by
  obtain ⟨older, o', newer, rfl, he, -⟩ := h
  exact ⟨o', by simp, he⟩

end Sys2Proof.Machine
end

section
/-! The stages of the tamper unit's start work (R140, R141, R146, R151, R164). -/

namespace Sys2Proof.Machine

variable {s t x y z : State} {found : StartReadings}

/-! ### One change of the log -/

theorem State.appendRecord_tam (s : State) (r : EvRecord) : ∃ seek, (r.onBattery = true → seek = false) ∧
    (s.appendRecord r).tam.evidence = (logAppend r seek s.reg.trace s.tam.evidence s.tam.slots).1 ∧
    (s.appendRecord r).tam.slots = (logAppend r seek s.reg.trace s.tam.evidence s.tam.slots).2.1 := by
  refine ⟨(s.policy r.cls).snapshot && r.cls.snapshotable && s.mains && !r.onBattery, fun h => by simp [h], ?_, ?_⟩ <;>
    simp [State.appendRecord]

theorem State.editLog_tam (s : State) (f : EvRecord → EvRecord) :
    (s.editLog f).tam.evidence.log = s.tam.evidence.log.map f ∧ (s.editLog f).tam.slots = s.tam.slots := by
  simp [State.editLog]

/-- The log of y has gone on to that of z: OPEN records stay but those of the classes e, latches stay, and so does a record that is not
OPEN with OPEN ones alone after it. -/
structure State.logGoesOn (e : EvClass → Prop) (y z : State) : Prop where
  opened : ∀ r ∈ y.tam.evidence.log, r.state = .opened → ¬ e r.cls → r ∈ z.tam.evidence.log
  told : ∀ o, o.state ≠ .opened → tells o y.tam.evidence.log → tells o z.tam.evidence.log
  keeps : y.KeepsLatches z

theorem State.logGoesOn.refl (e : EvClass → Prop) (y : State) : y.logGoesOn e y := ⟨fun _ hr _ _ => hr, fun _ _ => id, .refl y⟩

theorem State.logGoesOn.trans {e : EvClass → Prop} (h : x.logGoesOn e y) (h' : y.logGoesOn e z) : x.logGoesOn e z :=
  ⟨fun r hr ho he => h'.opened r (h.opened r hr ho he) ho he, fun o ho ht => h'.told o ho (h.told o ho ht), h.keeps.trans h'.keeps⟩

theorem State.logGoesOn.of_tam {e : EvClass → Prop} (h : x.logGoesOn e y) (hz : z.tam = y.tam) : x.logGoesOn e z := by
  obtain ⟨h1, h2, h3, h4, h5, h6⟩ := h
  exact ⟨hz ▸ h1, hz ▸ h2, ⟨hz ▸ h3, hz ▸ h4, hz ▸ h5, hz ▸ h6⟩⟩

theorem State.logGoesOn.weaken {e e' : EvClass → Prop} (h : x.logGoesOn e y) (he : ∀ c, e c → e' c) : x.logGoesOn e' y :=
  ⟨fun r hr ho hn => h.opened r hr ho (mt (he _) hn), h.told, h.keeps⟩

/-- OPEN records stay when a record is appended. -/
theorem State.appendRecord_opened (s : State) (r : EvRecord) : ∀ a ∈ s.tam.evidence.log, a.state = .opened →
    a ∈ (s.appendRecord r).tam.evidence.log := by
  intro a ha ho
  obtain ⟨seek, -, h, -⟩ := s.appendRecord_tam r
  obtain ⟨log, slot, hlog, hf, -⟩ := logAppend_log r seek s.reg.trace s.tam.evidence s.tam.slots
  obtain ⟨b, hb, hab⟩ := forall₂_mem_left hf a (makeRoom_opened _ _ a ha ho)
  rw [h, hlog, ← hab.2 ho]
  exact List.mem_append_left _ hb

theorem State.appendRecord_goesOn (s : State) {r : EvRecord} (he : s.tam.evidence.ordered)
    (ha : ∀ r ∈ s.tam.evidence.log, r.state ≠ .active) (hr : r.state = .opened) : s.logGoesOn (fun _ => False) (s.appendRecord r) := by
  obtain ⟨seek, -, h, -⟩ := s.appendRecord_tam r
  refine ⟨fun a ham ho _ => s.appendRecord_opened r a ham ho, fun o _ ht => ?_, s.appendRecord_keepsLatches r⟩
  rw [h]
  exact tells_logAppend he ha hr ht

/-- Repeats counted on the OPEN record of a class (R140). -/
def EvRecord.adds (c : EvClass) (n : Nat) (r : EvRecord) : EvRecord :=
  if r.cls = c ∧ r.state = .opened then { r with repeats := saturate 65535 (r.repeats + n) } else r

theorem EvRecord.adds_same (c : EvClass) (n : Nat) (r : EvRecord) : (r.adds c n).cls = r.cls ∧ (r.adds c n).state = r.state := by
  unfold EvRecord.adds
  split <;> exact ⟨rfl, rfl⟩

theorem State.editLog_goesOn (s : State) (c : EvClass) (n : Nat) : s.logGoesOn (· = c) (s.editLog (EvRecord.adds c n)) := by
  obtain ⟨h, -⟩ := s.editLog_tam (EvRecord.adds c n)
  refine ⟨fun r hr ho he => ?_, fun o ho ht => ?_, s.editLog_keepsLatches (EvRecord.adds_same c n)⟩
  · rw [h]
    exact List.mem_map.2 ⟨r, hr, if_neg fun hc => he hc.1⟩
  · rw [h]
    exact tells_map (fun r => (r.adds_same c n).2) (fun r hr => if_neg fun hc => hr hc.2) ho ht

/-- The record appended, with what it was appended with. -/
theorem State.appendRecord_mem (s : State) (r : EvRecord) : ∃ slot, (r.onBattery = true → slot = none) ∧
    { r with number := s.tam.evidence.next, slot := slot } ∈ (s.appendRecord r).tam.evidence.log ∧
    tells { r with number := s.tam.evidence.next } (s.appendRecord r).tam.evidence.log := by
  obtain ⟨seek, hseek, h, -⟩ := s.appendRecord_tam r
  obtain ⟨log, slot, hlog, -, hnone⟩ := logAppend_log r seek s.reg.trace s.tam.evidence s.tam.slots
  rw [h, hlog]
  exact ⟨slot, fun hb => hnone (hseek hb), by simp, tells_last log { r with number := s.tam.evidence.next } slot⟩

/-- No ACTIVE record has come in, and a slot taken holds what the trace held. -/
theorem State.appendRecord_settled (s : State) {r : EvRecord} (ha : ∀ r ∈ s.tam.evidence.log, r.state ≠ .active)
    (hr : r.state ≠ .active) : (∀ a ∈ (s.appendRecord r).tam.evidence.log, a.state ≠ .active) ∧
    ∀ sl, some sl ∈ (s.appendRecord r).tam.slots → some sl ∈ s.tam.slots ∨ (sl.pre = s.reg.trace ∧ sl.post = []) := by
  obtain ⟨seek, -, h, hsl⟩ := s.appendRecord_tam r
  obtain ⟨log, slot, hlog, hf, -⟩ := logAppend_log r seek s.reg.trace s.tam.evidence s.tam.slots
  refine ⟨fun b hb => ?_, fun sl hm => logAppend_slots (hsl ▸ hm)⟩
  rw [h, hlog] at hb
  rcases List.mem_append.1 hb with hb | hb
  · obtain ⟨a, ham, hab⟩ := forall₂_mem_right hf b hb
    rw [hab.state]
    exact ha a (makeRoom_subset _ _ a ham)
  · rw [List.mem_singleton.1 hb]
    exact hr

/-! ### The stages -/

/-- The tamper unit has worked from x to y in a start that began in s: nothing is held back, no record is ACTIVE, and a slot that
collects holds no block. -/
structure State.startStage (s : State) (found : StartReadings) (x y : State) : Prop where
  reaches : State.Reaches (.start found) s y
  work : x.tamperWork y
  clearing : y.tam.clearing = []
  entryHold : y.tam.entryHold = false
  settled : ∀ r ∈ y.tam.evidence.log, r.state ≠ .active
  slots : ∀ sl, some sl ∈ y.tam.slots → sl.collecting = true → sl.pre = [] ∧ sl.post = []

/-- What the start's stages are told of the state in which the tamper unit begins. -/
structure State.startReady (s : State) (found : StartReadings) (x : State) : Prop where
  reaches : State.Reaches (.start found) s x
  ordered : s.logOrdered
  running : x.running = false
  trace : x.reg.trace = []
  noWindow : x.life.state ≠ .serviceWindow

theorem State.startStage.ordered (h : s.startStage found x y) (hx : s.startReady found x) : y.tam.evidence.ordered :=
  ((State.logOrdered_iff y).1 (h.reaches.logOrdered hx.ordered)).2.evidence

theorem State.startStage.running (h : s.startStage found x y) (hx : s.startReady found x) : y.running = false :=
  h.work.running.trans hx.running

theorem State.startStage.trace (h : s.startStage found x y) (hx : s.startReady found x) : y.reg.trace = [] := by
  rw [h.work.agrees .reg (by decide)]
  exact hx.trace

/-- A stage that appends a record which is not ACTIVE. -/
theorem State.startStage.append (h : s.startStage found x y) (hx : s.startReady found x) {r : EvRecord} (hr : r.state ≠ .active)
    (hreach : State.Reaches (.start found) s (y.appendRecord r)) : s.startStage found x (y.appendRecord r) := by
  obtain ⟨h1, h2⟩ := y.appendRecord_settled h.settled hr
  have hk := y.appendRecord_keepsLatches r
  refine ⟨hreach, h.work.trans (y.appendRecord_tamperWork r), hk.clearing.trans h.clearing, hk.entryHold.trans h.entryHold, h1,
    fun sl hsl hc => ?_⟩
  rcases h2 sl hsl with hold | hnew
  · exact h.slots sl hold hc
  · rw [h.trace hx] at hnew
    exact hnew

/-! ### The outage (R151) -/

theorem State.startStage.recordOutage (h : s.startStage found x y) (hx : s.startReady found x) (kind : StartKind) :
    s.startStage found x (y.recordOutage kind) := by
  have hreach := State.recordOutage_reaches h.reaches kind
  unfold State.recordOutage at hreach ⊢
  split
  · next hk =>
    rw [if_pos hk] at hreach
    exact h.append hx (by simp [blankRecord]) hreach
  · exact h

theorem State.recordOutage_opened (y : State) (kind : StartKind) : ∀ a ∈ y.tam.evidence.log, a.state = .opened →
    a ∈ (y.recordOutage kind).tam.evidence.log := by
  unfold State.recordOutage
  split
  · exact y.appendRecord_opened _
  · exact fun _ ha _ => ha

theorem State.recordOutage_isLatched (y : State) (kind : StartKind) (c : EvClass) :
    isLatched (y.recordOutage kind).tam.evidence.log c = isLatched y.tam.evidence.log c := by
  unfold State.recordOutage
  split
  · simp [State.appendRecord_isLatched, blankRecord]
  · rfl

/-- The record of the outage a start of the kind records, under the number n, with the state's time. -/
def State.outageRecord (y : State) (kind : StartKind) (n : Nat) : EvRecord :=
  { blankRecord .outage .ended (if kind == .cold then none else y.backup.retained.outageStart) with
    number := n
    finish := if kind == .cold then none else y.time
    value := some (if kind == .cold then 1 else 0) }

theorem State.recordOutage_tells (y : State) {kind : StartKind} (hk : recordsOutage kind = true) :
    tells (y.outageRecord kind y.tam.evidence.next) (y.recordOutage kind).tam.evidence.log := by
  unfold State.recordOutage
  rw [if_pos hk]
  obtain ⟨-, -, -, h⟩ := y.appendRecord_mem { blankRecord .outage .ended (if kind == .cold then none else y.backup.retained.outageStart) with
    finish := if kind == .cold then none else y.time, value := some (if kind == .cold then 1 else 0) }
  exact h

/-! ### A cover slot is converted (R140) -/

theorem State.convertSlot_eq (y : State) (w : Cover) (slot : CoverSlot) : y.convertSlot w slot =
    if slot.count = 0 ∨ (y.policy w.cls).detect = false then y
    else if isLatched y.tam.evidence.log w.cls then (y.editLog (EvRecord.adds w.cls slot.count)).notifyEvidence w.cls
    else y.appendRecord { blankRecord w.cls .opened slot.first with repeats := slot.count - 1, onBattery := true } := by
  unfold State.convertSlot
  have h : (slot.count = 0 || !(y.policy w.cls).detect) = true ↔ slot.count = 0 ∨ (y.policy w.cls).detect = false := by simp
  simp only [h]
  rfl

theorem State.startStage.convertSlot (h : s.startStage found x y) (hx : s.startReady found x) (w : Cover) (slot : CoverSlot) :
    s.startStage found x (y.convertSlot w slot) ∧ y.logGoesOn (· = w.cls) (y.convertSlot w slot) := by
  have hreach := State.convertSlot_reaches h.reaches w slot
  rw [State.convertSlot_eq] at hreach ⊢
  split
  · exact ⟨h, .refl _ y⟩
  · next hu =>
    rw [if_neg hu] at hreach
    split
    · next hl =>
      rw [if_pos hl] at hreach
      obtain ⟨h1, h2⟩ := y.editLog_tam (EvRecord.adds w.cls slot.count)
      have hn : ((y.editLog (EvRecord.adds w.cls slot.count)).notifyEvidence w.cls).tam =
          (y.editLog (EvRecord.adds w.cls slot.count)).tam := by simp
      have hk := (y.editLog_goesOn w.cls slot.count).of_tam hn
      refine ⟨⟨hreach, h.work.trans ⟨by simp [State.agreeBut_iff],
        State.notifyEvidence_onward (State.editLog_onward (.refl y) _) _⟩, hk.keeps.clearing.trans h.clearing,
        hk.keeps.entryHold.trans h.entryHold, fun r hr => ?_, fun sl hsl hc => ?_⟩, hk⟩
      · rw [hn, h1] at hr
        obtain ⟨a, ha, rfl⟩ := List.mem_map.1 hr
        rw [(a.adds_same w.cls slot.count).2]
        exact h.settled a ha
      · rw [hn, h2] at hsl
        exact h.slots sl hsl hc
    · next hl =>
      rw [if_neg hl] at hreach
      exact ⟨h.append hx (by simp [blankRecord]) hreach,
        (y.appendRecord_goesOn (h.ordered hx) h.settled rfl).weaken fun _ => False.elim⟩

/-- A used slot of a cover with detection on adds to the OPEN records of its class, or gives one (R140). -/
theorem State.convertSlot_converts (y : State) (w : Cover) {slot : CoverSlot} (hn : slot.count ≠ 0)
    (hd : (y.policy w.cls).detect = true) :
    (∀ r ∈ y.tam.evidence.log, r.cls = w.cls → r.state = .opened →
      { r with repeats := saturate 65535 (r.repeats + slot.count) } ∈ (y.convertSlot w slot).tam.evidence.log) ∧
    (isLatched y.tam.evidence.log w.cls = false → ∃ r ∈ (y.convertSlot w slot).tam.evidence.log, r.cls = w.cls ∧ r.state = .opened ∧
      r.onset = slot.first ∧ r.repeats = slot.count - 1 ∧ r.onBattery = true ∧ r.slot = none) := by
  rw [State.convertSlot_eq, if_neg (by simp [hn, hd])]
  refine ⟨fun r hr hc ho => ?_, fun hl => ?_⟩
  · have hl : isLatched y.tam.evidence.log w.cls = true := by
      simp only [isLatched, List.any_eq_true]
      exact ⟨r, hr, by simp [hc, ho]⟩
    rw [if_pos hl]
    have hmem : r.adds w.cls slot.count ∈ (y.editLog (EvRecord.adds w.cls slot.count)).tam.evidence.log := by
      rw [(y.editLog_tam _).1]
      exact List.mem_map_of_mem hr
    rw [EvRecord.adds, if_pos ⟨hc, ho⟩] at hmem
    simpa using hmem
  · rw [hl, if_neg (by decide)]
    obtain ⟨o, ho, hmem, -⟩ := y.appendRecord_mem { blankRecord w.cls .opened slot.first with
      repeats := slot.count - 1, onBattery := true }
    exact ⟨_, hmem, rfl, rfl, rfl, rfl, rfl, ho rfl⟩

/-- The conversion of a slot latches no other class. -/
theorem State.convertSlot_isLatched (y : State) (w : Cover) (slot : CoverSlot) {c : EvClass} (hc : c ≠ w.cls) :
    isLatched (y.convertSlot w slot).tam.evidence.log c = isLatched y.tam.evidence.log c := by
  rw [State.convertSlot_eq]
  split
  · rfl
  · split
    · have h : isLatched ((y.tam.evidence.log).map (EvRecord.adds w.cls slot.count)) c = isLatched y.tam.evidence.log c := by
        simp [isLatched, List.any_map, Function.comp_def, EvRecord.adds_same]
      simpa [(y.editLog_tam _).1] using h
    · simp [State.appendRecord_isLatched, blankRecord, Ne.symm hc]

/-! ### The first readings (R140, R141, R146) -/

/-- A first reading leaves the state, or appends an OPEN record of its class. -/
theorem State.startStage.firstReading_cases (h : s.startStage found x y) (hx : s.startReady found x) (c : EvClass) (p : Bool)
    (v : Option Int) : y.firstReading c p v = y ∨ ∃ r, r.state = .opened ∧ r.cls = c ∧ y.firstReading c p v = y.appendRecord r := by
  have hlife : y.life.state ≠ .serviceWindow := by
    rw [h.work.agrees .life (by decide)]
    exact hx.noWindow
  have hrun := h.running hx
  unfold State.firstReading
  split
  · next hp =>
    simp only [Bool.and_eq_true, Bool.not_eq_true'] at hp
    have hfree : y.tam.holdsBack ⟨c, true, y.time, none, v⟩ = false := by
      simp [Tamper.holdsBack, h.clearing, h.entryHold]
    rw [State.latchOnset, State.arrive_taken hfree]
    unfold State.takeArrival State.recordOnset
    simp only [hp.2, hlife, if_true, Bool.false_eq_true, if_false, beq_iff_eq, Bool.and_eq_true, and_false]
    split
    · exact .inl rfl
    · refine .inr ⟨{ blankRecord c .opened y.time with phase := none, value := v }, rfl, rfl, ?_⟩
      exact State.judgeTamper_of_not_running (by simpa [State.running] using hrun)
  · exact .inl rfl

theorem State.startStage.firstReading (h : s.startStage found x y) (hx : s.startReady found x) {c : EvClass} (hc : c.latching = true)
    (p : Bool) (v : Option Int) :
    s.startStage found x (y.firstReading c p v) ∧ y.logGoesOn (fun _ => False) (y.firstReading c p v) := by
  have hreach := State.firstReading_reaches h.reaches hc p v
  rcases h.firstReading_cases hx c p v with e | ⟨r, hr, -, e⟩
  · rw [e]
    exact ⟨h, .refl _ y⟩
  · rw [e] at hreach ⊢
    exact ⟨h.append hx (by simp [hr]) hreach, y.appendRecord_goesOn (h.ordered hx) h.settled hr⟩

/-- A condition found present leaves its class latched where detection is on. -/
theorem State.startStage.firstReading_latches (h : s.startStage found x y) (hx : s.startReady found x) {c : EvClass}
    (hd : (y.policy c).detect = true) {p : Bool} (hp : p = true) (v : Option Int) :
    isLatched (y.firstReading c p v).tam.evidence.log c = true := by
  have hlife : y.life.state ≠ .serviceWindow := by
    rw [h.work.agrees .life (by decide)]
    exact hx.noWindow
  unfold State.firstReading
  cases hl : isLatched y.tam.evidence.log c
  · have hfree : y.tam.holdsBack ⟨c, true, y.time, none, v⟩ = false := by
      simp [Tamper.holdsBack, h.clearing, h.entryHold]
    rw [hp, if_pos (by rfl), State.latchOnset, State.arrive_taken hfree]
    exact y.recordOnset_latches (a := ⟨c, true, y.time, none, v⟩) hd fun h => hlife h.2
  · rw [if_neg (by simp)]
    exact hl

end Sys2Proof.Machine
end

section
/-! A start's log: the outage, the cover slots, the first readings (O60). -/

namespace Sys2Proof.Machine

variable {s t x y z : State} {found : StartReadings}

/-! ### The blocks are ready, and the log is repaired -/

theorem State.startBlocks_ready (hs : s.logOrdered) (cause : StartCause) (found : StartReadings) :
    s.startReady found (s.startBlocks cause found) := by
  obtain ⟨hx, hlink, hlife, hsup, hsw, hreg, hreg'⟩ := s.startBlocks_spec cause found
  obtain ⟨-, -, hstate, -⟩ := s.checked_spec cause found
  obtain ⟨hsup0, hsw0, hp0⟩ := s.checked_parts cause found
  obtain ⟨e1, e2⟩ := (s.checked cause found).startMetrology_others found
  refine ⟨?_, hs, ?_, ?_, ?_⟩
  · exact State.startSwitch_reaches (State.startSupervision_reaches (State.startMetrology_reaches (State.checked_reaches rfl) found)
      (by rw [e1]; exact hsup0) _) (by rw [← hsw0, ← e2]; rfl) (by rw [← hp0, ← e2]; rfl)
  · rw [State.running, hx .backup (by decide)]
    rfl
  · by_cases h : s.recordFails found .residue ∨ (s.begun cause found).store.recs.residue.valid = false
    · rw [hreg h]
      rfl
    · rw [not_or, Bool.not_eq_false] at h
      rw [hreg' h.1 h.2]
      rfl
  · obtain ⟨hh, hn⟩ := s.begun_life cause found
    rw [hlife, hstate]
    by_cases h : ∃ r ∈ haltingRecords, s.recordFails found r
    · rw [hh h]
      decide
    · rw [hn h]
      split
      · decide
      · assumption

theorem EvRecord.atStart_spec (slots : List (Option Slot)) (r : EvRecord) : (r.atStart slots).number = r.number ∧
    (r.atStart slots).cls = r.cls ∧ (r.atStart slots).repeats = r.repeats ∧ (r.atStart slots).state ≠ .active ∧
    ((r.atStart slots).state = .opened ↔ r.state = .opened) := by
  unfold EvRecord.atStart
  dsimp only
  split <;> split <;> simp_all

/-- The log and slots after the repair. -/
theorem State.repairLog_tam (x : State) : x.repairLog.tam = x.repairedTam := State.notifyAll_tam _ _

theorem State.repairLog_stage (hx : s.startReady found x) : s.startStage found x x.repairLog := by
  have htam := x.repairLog_tam
  refine ⟨State.repairLog_reaches hx.reaches ⟨found, rfl⟩, x.repairLog_tamperWork, by rw [htam]; rfl, by rw [htam]; rfl, fun r hr => ?_,
    fun sl hsl hc => ?_⟩
  · rw [htam] at hr
    obtain ⟨a, -, rfl⟩ := List.mem_map.1 hr
    exact (a.atStart_spec _).2.2.2.1
  · rw [htam] at hsl
    obtain ⟨o, -, ho⟩ := List.mem_map.1 hsl
    obtain ⟨sl', -, rfl⟩ := Option.map_eq_some_iff.1 ho
    simp [Slot.completed] at hc

theorem State.repairLog_isLatched (x : State) (c : EvClass) :
    isLatched x.repairLog.tam.evidence.log c = isLatched x.store.recs.evidence.log c := by
  rw [State.repairLog_tam]
  have h : ∀ slots r, ((EvRecord.atStart slots r).state == .opened) = (r.state == .opened) := fun slots r => by
    rw [Bool.eq_iff_iff, beq_iff_eq, beq_iff_eq]
    exact (r.atStart_spec slots).2.2.2.2
  simp [State.repairedTam, Tamper.begin, isLatched, List.any_map, Function.comp_def, EvRecord.atStart_spec, h]

/-- An OPEN record found is OPEN after the repair, with its number, its class and its repeats. -/
theorem State.repairLog_opened (x : State) {r0 : EvRecord} (hr : r0 ∈ x.store.recs.evidence.log) (ho : r0.state = .opened) :
    ∃ r ∈ x.repairLog.tam.evidence.log, r.number = r0.number ∧ r.cls = r0.cls ∧ r.state = .opened ∧ r.repeats = r0.repeats := by
  rw [State.repairLog_tam]
  obtain ⟨h1, h2, h3, -, h5⟩ := r0.atStart_spec (freeOrphans x.store.recs.evidence.log x.store.recs.snapshot)
  exact ⟨_, List.mem_map_of_mem hr, h1, h2, h5.2 ho, h3⟩

/-! ### The stages in their order -/

/-- The stages with what each leaves to the next: the outage recorded, each cover slot converted, the inputs read. -/
theorem State.startReady.stages (hx : s.startReady found x) (kind : StartKind) :
    let y1 := x.repairLog.recordOutage kind
    let y2 := y1.convertSlot .main x.backup.retained.cover
    let y3 := y2.convertSlot .terminal x.backup.retained.term
    s.startStage found x y1 ∧ s.startStage found x y2 ∧ y1.logGoesOn (· = .coverOpen) y2 ∧ s.startStage found x y3 ∧
      y2.logGoesOn (· = .terminalOpen) y3 ∧ s.startStage found x (x.readsInputs y3 found) ∧
      y3.logGoesOn (fun _ => False) (x.readsInputs y3 found) := by
  have h1 := (State.repairLog_stage hx).recordOutage hx kind
  obtain ⟨h2, g2⟩ := h1.convertSlot hx .main x.backup.retained.cover
  obtain ⟨h3, g3⟩ := h2.convertSlot hx .terminal x.backup.retained.term
  refine ⟨h1, h2, g2, h3, g3, ⟨?_, h3.work.trans ⟨?_, State.onTam_onward (.refl _) _⟩, h3.clearing, h3.entryHold, h3.settled, h3.slots⟩, ?_⟩
  · exact h3.reaches.onTam _ (.of_eq rfl rfl rfl rfl)
  · simp [State.agreeBut_iff, State.readsInputs]
  · exact ⟨fun _ hr _ _ => hr, fun _ _ => id, ⟨fun _ => id, rfl, rfl, id⟩⟩

/-- The first readings: the stage they end in, how the log has gone on, and the classes they leave latched. -/
theorem State.startStage.readings (h : s.startStage found x y) (hx : s.startReady found x) (a b c d : Bool) (v : Option Int) :
    let z := (((y.firstReading .coverOpen a none).firstReading .terminalOpen b none).firstReading .magnet c none).firstReading
      .codeAttack d v
    s.startStage found x z ∧ y.logGoesOn (fun _ => False) z ∧
      ∀ p ∈ [(EvClass.magnet, c), (.codeAttack, d), (.coverOpen, a), (.terminalOpen, b)], p.2 = true →
        (x.policy p.1).detect = true → isLatched z.tam.evidence.log p.1 = true := by
  obtain ⟨h1, g1⟩ := h.firstReading hx (c := .coverOpen) rfl a none
  obtain ⟨h2, g2⟩ := h1.firstReading hx (c := .terminalOpen) rfl b none
  obtain ⟨h3, g3⟩ := h2.firstReading hx (c := .magnet) rfl c none
  obtain ⟨h4, g4⟩ := h3.firstReading hx (c := .codeAttack) rfl d v
  have latches : ∀ {y : State}, s.startStage found x y → ∀ {k p v}, (x.policy k).detect = true → p = true →
      isLatched (y.firstReading k p v).tam.evidence.log k = true := fun {y} hy {k p v} hd hp =>
    hy.firstReading_latches hx (by rw [hy.work.onward.policy]; exact hd) hp v
  refine ⟨h4, g1.trans (g2.trans (g3.trans g4)), ?_⟩
  simp only [List.forall_mem_cons, List.not_mem_nil, false_implies, implies_true, and_true]
  exact ⟨fun hp hd => g4.keeps.latched _ (latches h2 hd hp), fun hp hd => latches h3 hd hp,
    fun hp hd => (g2.trans (g3.trans g4)).keeps.latched _ (latches h hd hp), fun hp hd => (g3.trans g4).keeps.latched _ (latches h1 hd hp)⟩

/-- What the conversion of a cover slot gives, where the log it finds stands for the log ev and its result is kept to the log m. -/
theorem State.convertSlot_found (y : State) (w : Cover) {slot : CoverSlot} {ev m : List EvRecord} (hn : slot.count ≠ 0)
    (hd : (y.policy w.cls).detect = true) (hl : isLatched y.tam.evidence.log w.cls = isLatched ev w.cls)
    (hold : ∀ r0 ∈ ev, r0.cls = w.cls → r0.state = .opened → ∃ r ∈ y.tam.evidence.log, r.number = r0.number ∧ r.cls = r0.cls ∧
      r.state = .opened ∧ r.repeats = r0.repeats)
    (hlater : ∀ r ∈ (y.convertSlot w slot).tam.evidence.log, r.cls = w.cls → r.state = .opened → r ∈ m) :
    (isLatched ev w.cls = false → ∃ r ∈ m, r.cls = w.cls ∧ r.state = .opened ∧ r.onset = slot.first ∧
      r.repeats = slot.count - 1 ∧ r.onBattery = true ∧ r.slot = none) ∧
    (∀ r0 ∈ ev, r0.cls = w.cls → r0.state = .opened → ∃ r ∈ m, r.number = r0.number ∧ r.cls = w.cls ∧
      r.state = .opened ∧ r.repeats = min 65535 (r0.repeats + slot.count)) := by
  obtain ⟨hadds, hnew⟩ := y.convertSlot_converts w hn hd
  refine ⟨fun h => ?_, fun r0 hr0 hc ho => ?_⟩
  · obtain ⟨r, hr, hrc, hro, hrest⟩ := hnew (hl.trans h)
    exact ⟨r, hlater r hr hrc hro, hrc, hro, hrest⟩
  · obtain ⟨r, hr, hnum, hrc, hro, hrep⟩ := hold r0 hr0 hc ho
    have hrc' := hrc.trans hc
    refine ⟨_, hlater _ (hadds r hr hrc' hro) hrc' hro, hnum, hrc', hro, ?_⟩
    simp only [hrep, saturate]

/-- The record of the outage is the same before and after the repair of the log. -/
theorem State.repairLog_outageRecord (x : State) (kind : StartKind) :
    x.repairLog.outageRecord kind x.repairLog.tam.evidence.next = x.outageRecord kind x.store.recs.evidence.next := by
  have hb : x.repairLog.backup = x.backup := x.repairLog_tamperWork.agrees .backup (by decide)
  have hn : x.repairLog.tam.evidence.next = x.store.recs.evidence.next := by rw [State.repairLog_tam]; rfl
  have ht : x.repairLog.time = x.time :=
    congrArg (fun b : Backup => if b.retained.valid then some b.retained.clock else none) hb
  unfold State.outageRecord
  rw [hb, hn, ht]

/-- The log a start leaves to the tamper unit. -/
theorem State.startReady.log (hx : s.startReady found x) (kind : StartKind) :
    let z := x.startTamper kind found
    let log := z.tam.evidence.log
    let ev := x.store.recs.evidence
    (∀ r ∈ log, r.state ≠ .active) ∧ (∀ sl, some sl ∈ z.tam.slots → sl.collecting = true → sl.pre = [] ∧ sl.post = []) ∧
    (recordsOutage kind = true → tells (x.outageRecord kind ev.next) log) ∧
    (∀ p ∈ [(EvClass.magnet, found.magAsserted), (.codeAttack, x.lockedOut), (.coverOpen, found.coverOpen),
      (.terminalOpen, found.termOpen)], p.2 = true → (x.policy p.1).detect = true → isLatched log p.1 = true) ∧
    ∀ (w : Cover) (slot : CoverSlot), (w = .main → slot = x.backup.retained.cover) → (w = .terminal → slot = x.backup.retained.term) →
      slot.count ≠ 0 → (x.policy w.cls).detect = true →
      (isLatched ev.log w.cls = false → ∃ r ∈ log, r.cls = w.cls ∧ r.state = .opened ∧ r.onset = slot.first ∧
        r.repeats = slot.count - 1 ∧ r.onBattery = true ∧ r.slot = none) ∧
      (∀ r0 ∈ ev.log, r0.cls = w.cls → r0.state = .opened → ∃ r ∈ log, r.number = r0.number ∧ r.cls = w.cls ∧
        r.state = .opened ∧ r.repeats = min 65535 (r0.repeats + slot.count)) := by
  obtain ⟨h1, h2, g2, h3, g3, h4, g4⟩ := hx.stages kind
  obtain ⟨hz, gz, hlatch⟩ := h4.readings hx found.coverOpen found.termOpen found.magAsserted x.lockedOut
    (some (x.store.recs.code.level : Int))
  have gend := g4.trans gz
  have hopened := State.recordOutage_opened x.repairLog kind
  have hold := State.recordOutage_isLatched x.repairLog kind
  simp only [State.repairLog_isLatched] at hold
  have htells := State.recordOutage_tells x.repairLog (kind := kind)
  rw [State.repairLog_outageRecord] at htells
  have hrepaired : ∀ r0 ∈ x.store.recs.evidence.log, r0.state = .opened → ∃ r ∈ (x.repairLog.recordOutage kind).tam.evidence.log,
      r.number = r0.number ∧ r.cls = r0.cls ∧ r.state = .opened ∧ r.repeats = r0.repeats := fun r0 hr0 ho => by
    obtain ⟨r, hr, hnum, hrc, hro, hrep⟩ := x.repairLog_opened hr0 ho
    exact ⟨r, hopened r hr hro, hnum, hrc, hro, hrep⟩
  dsimp only
  rw [State.startTamper_eq]
  unfold State.startLog
  generalize hy1 : x.repairLog.recordOutage kind = y1 at *
  generalize hy2 : y1.convertSlot .main x.backup.retained.cover = y2 at *
  generalize hy3 : y2.convertSlot .terminal x.backup.retained.term = y3 at *
  refine ⟨hz.settled, hz.slots, fun hk => ?_, hlatch, fun w slot hm ht hn hd => ?_⟩
  · have hne : (x.outageRecord kind x.store.recs.evidence.next).state ≠ .opened := by simp [State.outageRecord, blankRecord]
    exact gend.told _ hne (g3.told _ hne (g2.told _ hne (htells hk)))
  · cases w with
    | main =>
      obtain rfl := hm rfl
      refine y1.convertSlot_found .main hn (by rw [h1.work.onward.policy]; exact hd) (hold _) (fun r0 hr0 _ ho => hrepaired r0 hr0 ho)
        fun r hr hc ho => ?_
      rw [hy2] at hr
      exact gend.opened r (g3.opened r hr ho (by rw [hc]; decide)) ho not_false
    | terminal =>
      obtain rfl := ht rfl
      refine y2.convertSlot_found .terminal hn (by rw [h2.work.onward.policy]; exact hd) ?_ (fun r0 hr0 hc ho => ?_) fun r hr hc ho => ?_
      · rw [← hy2, State.convertSlot_isLatched _ _ _ (by decide)]
        exact hold _
      · obtain ⟨r, hr, hnum, hrc, hro, hrep⟩ := hrepaired r0 hr0 ho
        exact ⟨r, g2.opened r hr hro (by rw [hrc, hc]; decide), hnum, hrc, hro, hrep⟩
      · rw [hy3] at hr
        exact gend.opened r hr ho not_false

end Sys2Proof.Machine
end

section
/-! What a start does to the log, the supply record and the lockout (O60). -/

namespace Sys2Proof.Machine

variable {s t x : State} {found : StartReadings}

/-! ### The supply record and the kind of the start (R129, R174) -/

theorem recordsOutage_iff (kind : StartKind) : recordsOutage kind = true ↔ kind = .cold ∨ kind = .warm := by
  cases kind <;> decide

theorem SupplyRec.atStart_spec (r : SupplyRec) (kind : StartKind) (clock : Nat) :
    (r.atStart kind clock).dips = r.dips ∧
    (kind = .cold ∨ kind = .warm → (r.atStart kind clock).outages = min 65535 (r.outages + 1)) ∧
    (¬ (kind = .cold ∨ kind = .warm) → (r.atStart kind clock).outages = r.outages) ∧
    (kind = .cold → (r.atStart kind clock).trips = [] ∧
      (r.atStart kind clock).backoff = r.backoff.map fun b => ⟨clock + b.period, b.period⟩) ∧
    (kind ≠ .cold → (r.atStart kind clock).trips = r.trips ∧ (r.atStart kind clock).backoff = r.backoff) := by
  cases kind <;> simp [SupplyRec.atStart, recordsOutage, saturate]

theorem Retained.startWriteDue_iff (r : Retained) (kind : StartKind) : r.startWriteDue kind = true ↔
    (kind = .cold ∨ kind = .warm) ∨ r.cover.count ≠ 0 ∨ r.term.count ≠ 0 := by
  simp [Retained.startWriteDue, recordsOutage_iff, or_assoc]

theorem State.outageRecord_spec (y : State) (kind : StartKind) (n : Nat) :
    (y.outageRecord kind n).number = n ∧ (y.outageRecord kind n).cls = .outage ∧ (y.outageRecord kind n).state = .ended ∧
    (kind = .cold → (y.outageRecord kind n).onset = none ∧ (y.outageRecord kind n).finish = none ∧
      (y.outageRecord kind n).value = some 1) ∧
    (kind ≠ .cold → (y.outageRecord kind n).onset = y.backup.retained.outageStart ∧ (y.outageRecord kind n).finish = y.time ∧
      (y.outageRecord kind n).value = some 0) := by
  cases kind <;> exact ⟨rfl, rfl, rfl, by simp [State.outageRecord, blankRecord], by simp [State.outageRecord, blankRecord]⟩

/-! ### What the blocks ask for -/

theorem State.startRequests_startWrite (s : State) (kind : StartKind) : .startWrite ∈ s.startRequests kind true := by
  simp [State.startRequests]

theorem State.startRequests_rearm (h : s.lockedOut = true) (due : Bool) :
    .lockoutRearm (s.clock + lockoutPeriod s.store.recs.code.level) ∈ s.startRequests .cold due := by
  simp [State.startRequests, whenDue, h]

/-- The records a start's blocks work with, and the sound ones, are those of the state it leaves. -/
theorem State.startWork_same (s : State) (cause : StartCause) (found : StartReadings) :
    let w := s.startWork cause found
    let t := s.beginStart cause found
    (s.startBlocks cause found).sameRecords t ∧ w.sameRecords t ∧ w.clock = t.clock := by
  obtain ⟨hagree, ⟨t1, t2, t3⟩, -⟩ := s.beginStart_spec cause found
  obtain ⟨hw, ⟨w1, w2, w3⟩, -⟩ := s.startWork_spec cause found
  obtain ⟨hx, -⟩ := s.startBlocks_spec cause found
  have hxs : (s.startBlocks cause found).store = (s.begun cause found).store := hx .store (by decide)
  have hb : (s.beginStart cause found).backup = (s.startWork cause found).backup :=
    (hagree .backup (by decide)).trans (((hw .backup (by decide)).trans (hx .backup (by decide))).symm)
  refine ⟨⟨by rw [t1, hxs], by rw [t2, hxs], by rw [t3, hxs]⟩, ⟨by rw [t1, w1, hxs], by rw [t2, w2, hxs], by rw [t3, w3, hxs]⟩, ?_⟩
  exact (congrArg (fun b : Backup => b.retained.clock) hb).symm

theorem State.lockedOut_congr (h : s.sameRecords t) : t.lockedOut = s.lockedOut := by
  obtain ⟨h1, -, h3⟩ := h
  unfold State.lockedOut State.sound
  rw [h1, h3]

theorem State.lockedOut_iff (s : State) : s.lockedOut = true ↔ s.sound .code = true ∧ s.store.recs.code.lockEnd.isSome = true := by
  simp [State.lockedOut]

/-- A record is checked to the value it has, or to its reinitialised one (R184). -/
theorem eq_checked {α : Type} {P Q : Prop} [Decidable Q] (hPQ : Q ↔ P) {v shipped stored : α} (h1 : P → v = shipped) (h2 : ¬ P → v = stored) :
    v = if Q then shipped else stored := by
  split
  · next h => exact h1 (hPQ.1 h)
  · next h => exact h2 (mt hPQ.2 h)

end Sys2Proof.Machine

open Sys2Proof Sys2Proof.Machine

/-- Settles O60: stage by stage of the tamper unit's start work, of which State.startReady.log gives the log; the records are those checked. -/
theorem startsRepairTheLogAndRecordTheOutage : Obligations.StartsRepairTheLogAndRecordTheOutage := by
  intro found cause s hc hl hs
  refine ⟨_, exec_start found hc hl, fun ev supply hev hev' hsup hsup' => ?_⟩
  obtain ⟨hagree, hrecs, -, -, -, hsupT, -, -, -, htam, hreqs⟩ := s.beginStart_spec cause found
  obtain ⟨hx, -, -, hxsup, -⟩ := s.startBlocks_spec cause found
  obtain ⟨⟨-, -, -, -, hcode, -⟩, -, -, hevR, -, hsupR⟩ :=
    Records.reinitAll_spec (reinitRecords.filter ((s.startBase cause).fails found)) s.recordsFound
  have hmem : ∀ r ∈ reinitRecords, r ∈ reinitRecords.filter ((s.startBase cause).fails found) ↔ s.recordFails found r := fun r hr => by
    rw [List.mem_filter, s.startBase_fails cause found, and_iff_right hr]
  rw [← s.begun_recs_eq] at hcode hevR hsupR
  replace hev := (eq_checked (hmem .evidence (by decide)) hev hev').trans hevR.symm
  replace hsup := (eq_checked (hmem .supply (by decide)) hsup hsup').trans hsupR.symm
  obtain ⟨hxt, hwt, hwclock⟩ := s.startWork_same cause found
  have hxstore : (s.startBlocks cause found).store = (s.begun cause found).store := hx .store (by decide)
  have hxback : (s.startBlocks cause found).backup = (s.startBase cause).backup := hx .backup (by decide)
  have hback : (s.beginStart cause found).backup = (s.startBase cause).backup := hagree .backup (by decide)
  have hready := State.startBlocks_ready hs cause found
  obtain ⟨hactive, hslots, htold, hlatched, hconv⟩ := hready.log (s.startKind cause)
  obtain ⟨-, -, -, hattack⟩ := (s.startBlocks cause found).startTamper_conditions (s.startKind cause) found
  have hclock : (s.begun cause found).clock = (s.beginStart cause found).clock := (congrArg (fun b : Backup => b.retained.clock) hback).symm
  have hkind : (s.beginStart cause found).backup.lastStart = s.startKind cause := by rw [hback]; rfl
  have hpol := State.policy_congr hxt.1 hxt.2.2
  rw [← hxstore] at hev hsup hcode
  rw [hxsup, ← hxstore, ← hsup, hclock] at hsupT
  obtain ⟨hdips, hout, hout', hcold, hcold'⟩ := supply.atStart_spec (s.startKind cause) (s.beginStart cause found).clock
  have hcodeT : (s.beginStart cause found).store.recs.code = s.recordsFound.code := by rw [hxt.1]; exact hcode
  have hlock : (s.beginStart cause found).lockedOut = true ↔
      (s.beginStart cause found).sound .code = true ∧ s.recordsFound.code.lockEnd.isSome = true := by
    rw [State.lockedOut_iff, hcodeT]
  have hlockx := State.lockedOut_congr hxt
  have hlockw := State.lockedOut_congr hwt
  have hwcode : (s.startWork cause found).store.recs.code = s.recordsFound.code := by rw [← hwt.1]; exact hcodeT
  have hdue : (s.beginStart cause found).backup.domain = .starting cause (s.startDue cause) := by rw [hback]; rfl
  have hdueIff : s.startDue cause = true ↔ (s.startKind cause = .cold ∨ s.startKind cause = .warm) ∨
      (s.beginStart cause found).backup.retained.cover.count ≠ 0 ∨ (s.beginStart cause found).backup.retained.term.count ≠ 0 := by
    rw [hback]
    exact Retained.startWriteDue_iff _ _
  dsimp only
  rw [htam, hsupT, hkind, hattack, ← hlockx]
  rw [← hlockx] at hlatched
  refine ⟨hdips, hout, hout', hcold, hcold', fun hk hsound hend => ?_, ⟨_, hdue, fun hd => ?_, hdueIff⟩, fun hk => ?_, hactive, hslots,
    hlock, fun p hp h1 h2 => hlatched p hp h1 (by rw [← hpol]; exact h2), fun w slot hm ht hn hd => ?_⟩
  · have h := State.startRequests_rearm (hlockw.symm.trans (hlock.2 ⟨hsound, hend⟩)) (s.startDue cause)
    rw [hwclock, hwcode, ← hk] at h
    exact hreqs _ h
  · have h := (s.startWork cause found).startRequests_startWrite (s.startKind cause)
    rw [← hd] at h
    exact hreqs _ h
  · obtain ⟨r, hr, he⟩ := (htold ((recordsOutage_iff _).2 hk)).mem
    obtain ⟨h1, h2, h3, h4, h5⟩ := (s.startBlocks cause found).outageRecord_spec (s.startKind cause)
      (s.startBlocks cause found).store.recs.evidence.next
    have htime : (s.startBlocks cause found).time = (s.beginStart cause found).time :=
      congrArg (fun b : Backup => if b.retained.valid then some b.retained.clock else none) (hxback.trans hback.symm)
    rw [htime, hxback, ← hback] at h5
    rw [hev]
    exact ⟨r, hr, by rw [he]; exact h1, by rw [he]; exact h2, by rw [he]; exact h3, by rw [he]; exact h4, by rw [he]; exact h5⟩
  · rw [hback, ← hxback] at hm ht
    rw [hev]
    exact hconv w slot hm ht hn (by rw [← hpol]; exact hd)
end
